-- ==== Sys2Proof/Word.lean ====
section
/-! DEFINITION. The word types of the machine and the register-number types. -/

namespace Sys2Proof

/-- A 64-bit scalar register value (R8). -/
abbrev Word := BitVec 64
/-- A byte of memory. -/
abbrev Byte := BitVec 8
/-- A vector register (R10). -/
abbrev VReg := BitVec 1024
/-- A mask register (R8). -/
abbrev Mask := BitVec 128
/-- The number of an s register, s0–s31. -/
abbrev SReg := Fin 32
/-- The number of a p register, p0–p7. -/
abbrev PReg := Fin 8
/-- The number of an m register, m0–m7. -/
abbrev MReg := Fin 8
/-- A vector name, v0–v31 (R11, R12). -/
abbrev VName := Fin 32
/-- The number of a tensor handle, h0–h15. -/
abbrev HReg := Fin 16
/-- The number of a circular-buffer handle, c0–c7. -/
abbrev CReg := Fin 8
/-- An accumulator bank, a0–a7. -/
abbrev Bank := Fin 8

end Sys2Proof
end

