-- ==== Sys2Proof/Syntax.lean ====
section
/-! DEFINITION. The instruction and event syntax: one constructor of `Instr` per row of spec/opcode_table.json, first
the register commands and events of the machine's other agents, which have no encoding, then the encoded instructions. -/

namespace Sys2Proof

/-- A hardware thread slot: die id, die-local core index x + 16·y, and thread number (R372, R376). -/
structure Tid where
  /-- Die id, x + 3·y (R21). -/
  die : Nat
  /-- Die-local core index, x + 16·y (R372). -/
  core : Nat
  /-- Hardware thread number, 0–7. -/
  tnum : Nat
  deriving DecidableEq, Repr

/-- The guard of an R-format instruction (R73): p[pred] XOR neg. -/
structure Guard where
  /-- gn: the predicate is inverted. -/
  neg : Bool
  /-- gp: the predicate register. -/
  pred : PReg
  deriving DecidableEq, Repr

/-- The kind of an access that asks for a line grant (R205, R256). -/
inductive AccessKind where
  | read | write | fetch
  deriving DecidableEq, Repr

/-- The integer read-modify-write functions of ATOM (R237). -/
inductive AtomFn where
  | add | and | or | xor | min | max | minu | maxu | swap | cas
  deriving DecidableEq, Repr

/-- A unit of assay (R394): its class 0–4, die id and index within the die. -/
structure UnitId where
  /-- 0 core, 1 cluster engines, 2 memory channel, 3 die boundary, 4 Dywin link. -/
  cls : Nat
  /-- Die id. -/
  die : Nat
  /-- Index within the die. -/
  ix : Nat
  deriving DecidableEq, Repr

/-- A store of state and the place of it, as R390 lists them. -/
inductive Storage where
  /-- Register files, vector blocks and queues of a core. -/
  | registers (die core : Nat)
  | scratchpad (die core : Nat)
  /-- L1 data and tags. -/
  | l1 (die core : Nat)
  | icache (die core : Nat)
  /-- MXE latch and banks, RSU and BTU buffers of a cluster. -/
  | engines (die cluster : Nat)
  /-- L2 data and tags and LKM queues of a slice, by its index on its die. -/
  | l2 (die slice : Nat)
  | hbm (die channel : Nat)
  /-- Flits of a die boundary. -/
  | boundary (die ix : Nat)
  /-- Flits of a Dywin link. -/
  | dywin (die ix : Nat)
  deriving DecidableEq, Repr

/-- The unit that a store's errors are charged to (R390, R394). -/
def Storage.unit : Storage → UnitId
  | .registers d c | .scratchpad d c | .l1 d c | .icache d c => ⟨0, d, c⟩
  | .engines d k => ⟨1, d, k⟩
  | .l2 d n | .hbm d n => ⟨2, d, n⟩
  | .boundary d i => ⟨3, d, i⟩
  | .dywin d i => ⟨4, d, i⟩

/-- An error of storage, as it shows itself (R390, R392). -/
inductive UeSite where
  /-- A core or a cluster's engines use a poisoned value. -/
  | used (u : UnitId)
  /-- An uncorrectable error in an HBM half-sector: the 64 bytes from 64·n of physical memory are poisoned. -/
  | hbm (n : Nat)
  /-- An uncorrectable error in an L2 line: the 256 bytes from 256·n of physical memory are poisoned. -/
  | l2 (n : Nat)
  /-- An uncorrectable error in a die's read replica of the line from 256·n of physical memory. -/
  | replica (die n : Nat)
  /-- An uncorrectable error that a read of a core's registers, vector blocks or queues finds. -/
  | register (die core : Nat)
  /-- An uncorrectable error in a core's L1, in the 8-byte word of an address space's line that holds an address. -/
  | l1 (die core : Nat) (asid : BitVec 16) (va : BitVec 64)
  /-- An uncorrectable error in the n-th 8-byte word of a core's scratchpad. -/
  | scratch (die core n : Nat)
  /-- An uncorrectable error in the latch, a bank or a buffer of an engine (0 MXE, 1 RSU, 2 BTU, 3 CLE) during a core's oldest job
  of it. -/
  | engine (eng die core : Nat)
  /-- An uncorrectable error in the LKM queue state of a slice, by its index on its die. -/
  | lkmQueue (die slice : Nat)
  /-- An uncorrectable error in the scheduler SRAM of a die. -/
  | scheduler (die : Nat)
  /-- A corrected error of a store. -/
  | corrected (x : Storage)
  deriving DecidableEq, Repr

/-- The result of a test (R398). -/
inductive AssayOutcome where
  | pass | marginal | fail
  deriving DecidableEq, Repr

/-- One constructor per row of spec/opcode_table.json: first the rows without an encoding, then the encoded ones. (Compiled
Lean can build only the first 245 constructors of a type: with the events first every meaning that puts an event on the
agenda is compiled; the decoder, which the kernel evaluates, is noncomputable.) -/
inductive Instr where
  /-- MXFREE (R303). SRW that frees the named banks of the thread after their jobs complete. -/
  | mxfree (a : SReg)
  /-- BANK_RELEASE (R303). A bank whose release waited for its owner's jobs returns to the cleared state. -/
  | bankRelease (cl : Nat) (b : Bank)
  /-- CAPACK (R406). SRW acknowledging capacity notifications up to a sequence number. -/
  | capack (a : SReg)
  /-- RNGCLR (R127). SRW removing counter reservations of an ASID or of the package. -/
  | rngclr (a : SReg)
  /-- PGINV (R259). SRW removing translations and optionally purging lines package-wide. -/
  | pginv (a : SReg)
  /-- FEOP (R212). SRW setting or clearing a run of full-empty bits. -/
  | feop (a : SReg)
  /-- ACCDROP (R246). SRW returning accumulators of an ASID or all to the zero state. -/
  | accdrop (a : SReg)
  /-- ACCSPILL_WRITE (R245). SRW of ACCSPILL, refused with ACC_BUSY while entries are spilled. -/
  | accspillWrite (a : SReg)
  /-- FFRGN_WRITE (R264). SRW of the fault-frame region, refused with FF_BUSY while frames are held. -/
  | ffrgnWrite (a : SReg)
  /-- TXSTG_WRITE (R274). SRW of the staging window size, refused with TX_BUSY while transaction launches live. -/
  | txstgWrite (a : SReg)
  /-- CRECT_WRITE (R411). SRW of a containment rectangle, stored invalid when empty or overlapping. -/
  | crectWrite (n : Fin 16) (a : SReg)
  /-- FRPTR_WRITE (R374). SRW of the fault-ring consumer pointer, clamped to PROD, releasing held packets. -/
  | frptrWrite (a : SReg)
  /-- FRPTR_READ (R374). SRR of FRPTR acting as a die-scope acquire of the fault ring. -/
  | frptrRead (d : SReg)
  /-- CB_REGISTER_WRITE (R153). SRW of CBn or CBFn that waits until no BTU job names the buffer. -/
  | cbRegisterWrite (fill : Bool) (n : CReg) (a : SReg)
  /-- TARCMD_REGISTER (R268). Registers a tile array from a descriptor in every lock manager of its scope. -/
  | tarcmdRegister (a : SReg)
  /-- TARCMD_DEREGISTER (R268). Deregisters a tile array and purges its lines. -/
  | tarcmdDeregister (a : SReg)
  /-- SLICE_BIND (R172). Scheduler binds a ready barrier group's slices to free threads of one domain instance. -/
  | sliceBind (lid die : Nat) (threads : List Tid)
  /-- SLICE_COMPLETE (R30). A halted slice completes once its stores, jobs, banks and blocks are done. -/
  | sliceComplete (t : Tid)
  /-- RESTART_RERUN (R416). Firmware rebinds a failed slice of a RESTARTABLE launch alone. -/
  | restartRerun (lid idx : Nat) (t : Tid)
  /-- AGEING_STEP (R170). Every AGEQ.N launch ids raises aged levels and queue credits. -/
  | ageingStep
  /-- PRIORITY_PREEMPTION (R171). Issues pre-emption requests in one instance for a starved higher-priority launch. -/
  | priorityPreemption (lid : Nat)
  /-- WORK_STEAL (R173). An idle die steals the upper half of another die's unbound groups. -/
  | workSteal (lid thief : Nat)
  /-- STATUS_EXPIRY (R168). A final launch status expires after 65,536 further launch ids. -/
  | statusExpiry (lid : Nat)
  /-- BARRIER_RELEASE (R176). A barrier generation releases when every live slice of the group has arrived. -/
  | barrierRelease (lid grp : Nat)
  /-- BARRIER_LEAVE (R179). A core's waiting threads of a group leave the barrier after its stagger delay, merging flags and acquiring. -/
  | barrierLeave (core : Nat)
  /-- D2_QUANTUM_EXPIRY (R229). A D2 quantum ends after QLEN retired instructions. -/
  | d2QuantumExpiry (t : Tid)
  /-- D2_ROUND_COMMIT (R230). A closed D2 round commits its buffers in slice order and slices acquire. -/
  | d2RoundCommit (lid grp : Nat)
  /-- VR_CLAIM_GRANT (R181). Freed blocks serve the head of the core's claim FIFO. -/
  | vrClaimGrant (core : Nat)
  /-- VR_RESUMER_PREEMPT (R182). Scheduler pre-empts blocked takers so a resumer's claim fits. -/
  | vrResumerPreempt (core : Nat)
  /-- VRTAKET_TIMEOUT (R193). A timed claim leaves the FIFO and sets its predicate. -/
  | vrtaketTimeout (t : Tid)
  /-- SLEEP_TIMEOUT (R191). A sleeping thread becomes ready after its cycle limit. -/
  | sleepTimeout (t : Tid)
  /-- YIELD_HOLD_EXPIRY (R122). A thread's 32-cycle YIELD hold ends. -/
  | yieldHoldExpiry (t : Tid)
  /-- LDFE_WAIT_END (R233). A waiting LDFE finds its granule full and completes. -/
  | ldfeWaitEnd (t : Tid)
  /-- CBWAIT_END (R158). A circular-buffer wait ends on a BTU advance. -/
  | cbwaitEnd (t : Tid)
  /-- JOB_WAIT_END (R318). A waiting MXWAIT, RKWAIT or COLWAIT ends when its job completes. -/
  | jobWaitEnd (t : Tid)
  /-- LRWAIT_END (R198). A waiting LRWAIT ends when its launch reaches a final state. -/
  | lrwaitEnd (t : Tid)
  /-- QUANT_WAIT_END (R250). A QUANT wait ends after its round commits. -/
  | quantWaitEnd (t : Tid)
  /-- ENGINE_QUEUE_ENTRY_FREE (R306). A submission waiting on a full engine queue is accepted when an entry frees. -/
  | engineQueueEntryFree (t : Tid)
  /-- MXE_STEP (R307). The arbiter runs one step of a job of the core holding the turn. -/
  | mxeStep (cl : Nat)
  /-- RSU_PASS (R321). The ranking network runs a pass of a job of one core in round-robin order. -/
  | rsuPass (cl : Nat)
  /-- BTU_JOB_START (R334). A BTU job begins, possibly after the previous job on its circular buffer. -/
  | btuJobStart (core : Nat) (id : BitVec 16)
  /-- BTU_JOB_COMPLETE (R338). A BTU job finishes and applies its circular-buffer advance. -/
  | btuJobComplete (core : Nat) (id : BitVec 16)
  /-- COLLECTIVE_EXECUTE (R343). With every participant's job joined, the CLE checks and combines in ring order. -/
  | collectiveExecute (lid c : Nat)
  /-- LINE_GRANT_REQUEST (R205). A home slice answers a grant request from its record or via the TLB. -/
  | lineGrantRequest (core : Nat) (asid : BitVec 16) (va : BitVec 64) (kind : AccessKind) (user : Bool)
  /-- TABLE_WALK_COMPLETE (R256). A memory-side walk returns a translation or a refusal. -/
  | tableWalkComplete (asid : BitVec 16) (va : BitVec 64) (kind : AccessKind) (user : Bool)
  /-- SECTOR_FILL (R203). A fetched sector merges into the L1 under its dirty bytes. -/
  | sectorFill (core : Nat) (asid : BitVec 16) (va : BitVec 64)
  /-- WRITE_BACK (R203). The home slice writes the dirty bytes of a write-back by its token. -/
  | writeBack (core : Nat) (asid : BitVec 16) (va : BitVec 64)
  /-- HOME_ATOMIC (R224). An atomic is performed indivisibly at its home slice. -/
  | homeAtomic (asid : BitVec 16) (va : BitVec 64) (fn : AtomFn) (dw : Bool) (op cmp : BitVec 64)
  /-- UPDATE_APPLY (R429). A die applies a causally ready update to its replica and clock. -/
  | updateApply (die src : Nat)
  /-- REPLICA_FILL_INSTALL (R430). A replica fill is installed when the die clock covers it. -/
  | replicaFillInstall (die : Nat) (asid : BitVec 16) (va : BitVec 64)
  /-- REPLICA_DROP (R210). A slice drops a replica on its own. -/
  | replicaDrop (die : Nat) (asid : BitVec 16) (va : BitVec 64)
  /-- CLOCK_REQUEST (R432). A die answers a package acquire's request for its own count. -/
  | clockRequest (t : Tid) (die : Nat)
  /-- PACKAGE_ACQUIRE_END (R432). A package acquire ends once the returned counts are applied and invalidates clean L1 bytes. -/
  | packageAcquireEnd (t : Tid)
  /-- ACC_SPILL (R245). Hardware spills or brings back wide accumulator entries from ACCSPILL. -/
  | accSpill (slice : Nat) (back : Bool)
  /-- FAULT_FRAME_WRITE (R262). After the faulting thread's accesses complete, its fault frame is written and resources freed. -/
  | faultFrameWrite (t : Tid)
  /-- PAGE_FAULT_RECORD (R262). A fault processor receives a page-fault record to make a page resident. -/
  | pageFaultRecord (t : Tid)
  /-- PAGE_FAULT_RESOLVED (R262). RESOLVED restores threads waiting on the page. -/
  | pageFaultResolved (asid : BitVec 16) (vpage : Nat)
  /-- PAGE_FAULT_KILL (R262). KILL ends the launch FAILED with reason FAULT. -/
  | pageFaultKill (asid : BitVec 16) (vpage : Nat)
  /-- FAULT_FRAME_RESTORE (R263). A thread with a fault frame is restored on a free slot and re-executes. -/
  | faultFrameRestore (lid idx : Nat) (t : Tid)
  /-- REMOTE_FAULT_RECORD (R452). An owning package serves a remote page-fault record. -/
  | remoteFaultRecord (pkg : Nat) (asid : BitVec 16) (vpage : Nat)
  /-- FAULT_PACKET_WRITE (R374). A frozen thread's fault packet is written to the fault ring when room exists. -/
  | faultPacketWrite (die : Nat)
  /-- DEBUG_WINDOW_ACCESS (R377). An 8-byte access to a thread's debug window reads or edits frozen state. -/
  | debugWindowAccess (t : Tid) (off : Nat) (data : Option (BitVec 64))
  /-- DCTL_RESUME (R379). Resumes a frozen thread with its edited state. -/
  | dctlResume (t : Tid) (clr : Bool)
  /-- DCTL_TERMINATE_SLICE (R379). Ends a frozen slice as failed or a transaction without commit. -/
  | dctlTerminateSlice (t : Tid)
  /-- DCTL_TERMINATE_LAUNCH (R379). Ends the whole launch FAILED and discards its threads. -/
  | dctlTerminateLaunch (t : Tid)
  /-- DCTL_PREEMPT (R379). Sets a pending pre-emption request on a running kernel thread. -/
  | dctlPreempt (t : Tid)
  /-- CONTEXT_FRAME_WRITE (R384). After draining, the context frame is written and resources freed. -/
  | contextFrameWrite (t : Tid)
  /-- CONTEXT_RESUME (R387). A pre-empted thread resumes into its rebuild stub or continuation. -/
  | contextResume (lid idx : Nat) (t : Tid)
  /-- FATAL_ERROR (R389). A fatal error stops the package and firmware writes the dump. -/
  | fatalError (cause : BitVec 32)
  /-- SEQ_SET_COMPUTE (R276). Sequencer step 1: computes a transaction's set from its template. -/
  | seqSetCompute (die : Nat)
  /-- RECON_PASS_BIND (R289). Binds a reconnaissance pass holding no grant on its landing core. -/
  | reconPassBind (die : Nat) (t : Tid)
  /-- SEQ_RESERVE (R276). Sequencer step 2: reserves a landing thread and staging area. -/
  | seqReserve (die : Nat) (t : Tid)
  /-- SEQ_SEND_REQUESTS (R276). Sequencer step 3: sends one request per key when every target LKM has room. -/
  | seqSendRequests (die : Nat)
  /-- ASSIGN_RECEIVE (R434). A sequencer receiving ASSIGN closes lower unused batches and announces. -/
  | assignReceive (die : Nat) (pod : Bool) (rn : Nat)
  /-- LKM_REQUEST (R279). An LKM queues a lock request on its key in RN order. -/
  | lkmRequest (slice die : Nat)
  /-- LKM_HORIZON (R277). An LKM takes a horizon announcement and grants what the rules allow. -/
  | lkmHorizon (slice die : Nat)
  /-- LKM_PUSH (R280). Pushed tile data lands in staging, setting full bits per granule. -/
  | lkmPush (lid idx slot granule : Nat)
  /-- TRANSACTION_BIND (R282). A transaction thread binds when all its grants have reached the core. -/
  | transactionBind (lid idx : Nat)
  /-- LKM_COMMIT (R287). An LKM writes a write key's staging copy to the tile at its home. -/
  | lkmCommit (lid idx slot : Nat)
  /-- LKM_RELEASE (R281). An LKM releases a grant and forwards a write copy to newly grantable requests. -/
  | lkmRelease (lid idx slot : Nat)
  /-- TRANSACTION_RELAND (R414). A transaction keeps its RN and grants and lands again with repeated pushes. -/
  | transactionReland (lid idx : Nat) (t : Tid)
  /-- REGISTER_SCRUB (R391). The core scrubber corrects a register word on a free read port. -/
  | registerScrub (core : Nat) (word : Nat)
  /-- PATROL_READ (R393). A patrol engine reads rows and writes back corrected data with a compare. -/
  | patrolRead (die ch : Nat) (pa : Nat)
  /-- SCORE_DECAY (R395). Suspicion scores halve every 2^K hours. -/
  | scoreDecay
  /-- LEASE_ISSUE (R397). The scheduler issues a periodic or early test lease within the limits. -/
  | leaseIssue (u : UnitId)
  /-- LEASE_DRAIN_COMPLETE (R398). A leased unit holds no work and enters TESTING. -/
  | leaseDrainComplete (u : UnitId)
  /-- LEASE_DRAIN_TIMEOUT (R398). A unit not drained within 2^24 cycles returns to service. -/
  | leaseDrainTimeout (u : UnitId)
  /-- ASSAY_RESULT (R398). Test patterns end with PASS, MARGINAL or FAIL. -/
  | assayResult (u : UnitId) (res : AssayOutcome)
  /-- CHANNEL_TEST_WINDOW (R402). A memory channel tests rows in place in a window of at most 40 µs. -/
  | channelTestWindow (die ch : Nat)
  /-- UE_CONSUMPTION (R392). An agent consumes poisoned data, triggering containment or a fatal error. -/
  | ueConsumption (e : UeSite)
  /-- PAIRED_COMPARE (R409). A paired copy's outgoing message is compared by CRC before forwarding. -/
  | pairedCompare (t : Tid) (agree : Bool)
  /-- PAIR_TIMEOUT (R409). A partner offers nothing within 2^20 cycles and counts as mismatched. -/
  | pairTimeout (t : Tid)
  /-- FLIT_REPLAY (R426). A flit failing its CRC is replayed and the link's score rises. -/
  | flitReplay (u : UnitId)
  /-- BOUNDARY_FAILURE (R437). A die boundary fails, losing unsequenced messages in flight. -/
  | boundaryFailure (die ix : Nat)
  /-- DYWIN_LINK_FAILURE (R440). A Dywin link fails and is leased. -/
  | dywinLinkFailure (die ix : Nat)
  /-- PACKAGE_SILENCE (R442). No flit from a package for 2^20 cycles makes it silent. -/
  | packageSilence (pkg : Nat)
  /-- GANG_ACK (R449). A ready gang member sends its ACK to the leader. -/
  | gangAck (lid : Nat)
  /-- GANG_ACKS_COMPLETE (R449). The leader, with all ACKs, sends START or ABORT. -/
  | gangAcksComplete (lid : Nat)
  /-- GANG_START (R449). A member receiving START divides the groups and binds its share. -/
  | gangStart (lid : Nat)
  /-- GANG_ABORT (R449). A member receiving ABORT ends REFUSED. -/
  | gangAbort (lid : Nat)
  /-- DOORBELL_RING (R349). A ring doorbell sets the queue's pending bit or is dropped. -/
  | doorbellRing (port : Bool) (page : Nat) (qid : BitVec 16)
  /-- DOORBELL_RESET (R350). Resets a queue to IDLE at the next packet boundary. -/
  | doorbellReset (port : Bool) (page : Nat) (qid : BitVec 16)
  /-- DOORBELL_DISABLE (R350). Disables a queue at the next packet boundary. -/
  | doorbellDisable (port : Bool) (page : Nat) (qid : BitVec 16)
  /-- FE_PENDING_SERVICE (R349). The FE clears a pending bit and acquires the queue's WPTR. -/
  | fePendingService (q : Nat)
  /-- QUEUE_MAP (R351). Firmware maps the highest-priority pending queue to a free slot. -/
  | queueMap (port : Bool) (slot : Nat)
  /-- QUEUE_SLOT_RELEASE (R352). A mapped queue gives up its slot at a packet boundary. -/
  | queueSlotRelease (slot : Nat)
  /-- PACKET_FETCH (R356). The FE fetches packets ahead within 4 KiB after capability checks. -/
  | packetFetch (slot : Nat)
  /-- PACKET_NOP (R353). A packet with no effect. -/
  | packetNop (slot : Nat)
  /-- PACKET_LAUNCH (R354). Arms a launch record with the queue's ASID. -/
  | packetLaunch (slot : Nat)
  /-- PACKET_BUNDLE (R354). Arms several records that become ready together. -/
  | packetBundle (slot : Nat)
  /-- LAUNCH_SIGNAL_WRITE (R354). The FE writes a launch's or bundle's final status to its signal word. -/
  | launchSignalWrite (lid : Nat)
  /-- PACKET_WAIT (R354). Waits until a memory word reaches a value. -/
  | packetWait (slot : Nat)
  /-- PACKET_WAIT_MET (R354). A waiting WAIT finds its condition true and completes. -/
  | packetWaitMet (slot : Nat)
  /-- PACKET_SIGNAL_STORE (R354). Stores a value to a word as a system-scope release. -/
  | packetSignalStore (slot : Nat)
  /-- PACKET_SIGNAL_ADD (R354). Adds a value to a word as a system-scope release. -/
  | packetSignalAdd (slot : Nat)
  /-- PACKET_IB (R355). Opens an indirect buffer one level deeper. -/
  | packetIb (slot : Nat)
  /-- PACKET_PRED (R354). Skips the next n packets when a word comparison is false. -/
  | packetPred (slot : Nat)
  /-- PACKET_LOOP (R354). Repeats the next n packets count times. -/
  | packetLoop (slot : Nat)
  /-- PACKET_FETCHFENCE (R357). Discards fetched packets and acquires before refetching. -/
  | packetFetchfence (slot : Nat)
  /-- PACKET_COPY (R354). Copies bytes in ascending address order. -/
  | packetCopy (slot : Nat)
  /-- HOST_MEMORY_ACCESS (R345). A host access through the BAR4 aperture at system scope. -/
  | hostMemoryAccess (port : Bool) (off : Nat) (data : Option (List (BitVec 8)))
  /-- HOST_REGISTER_WRITE (R345). A host write to a BAR2 register that has no row of its own. -/
  | hostRegisterWrite (port : Bool) (off : Nat) (val : BitVec 64)
  /-- ATTESTATION_GO (R457). Starts signing an attestation report over the port's nonce. -/
  | attestationGo (port : Bool)
  /-- ATTESTATION_REPORT_DONE (R457). Signing completes and the report stands in the window with DONE set. -/
  | attestationReportDone (port : Bool)
  /-- PACKAGE_RESET (R461). Runs the boot order from fuses to ready. -/
  | packageReset
  /-- THERMAL_THROTTLE (R460). Firmware lowers a hot die's compute clock in 100 MHz steps. -/
  | thermalThrottle (die : Nat)
  /-- THERMAL_TRIP (R460). At 125 °C power is removed from all but the always-on island. -/
  | thermalTrip
  /-- ISLAND_GATE (R458). Firmware gates an idle compute or host-interface island. -/
  | islandGate (island : Nat)
  /-- ISLAND_POWER_UP (R459). A gated island is powered for a binding or doorbell. -/
  | islandPowerUp (island : Nat)
  /-- CONTACT_REGAINED (R450). A package that was silent to its gang regains contact, learns the gang is lost and ends its own member FAILED with GANG_LOST. -/
  | contactRegained (pkg : Nat)
  /-- DVFS_CHANGE (R458). Firmware changes the voltage and clock of an island, such as a compute island within 0.8–2.4 GHz or an HBM PHY group between 6.4 and 3.2 GT/s, for reasons other than heat. -/
  | dvfsChange (island : Nat) (mhz : Nat)
  /-- DUMP_COMPLETE (R389). Writing of the dump after a fatal error ends: DUMPINFO.STATE goes from 2 to 1 and MSI-X vector 63 is raised on each port that has a host. -/
  | dumpComplete
  /-- ADD (R106). Adds two s registers modulo 2^64. -/
  | add (g : Guard) (d a b : SReg)
  /-- SUB (R106). Subtracts s[b] from s[a] modulo 2^64. -/
  | sub (g : Guard) (d a b : SReg)
  /-- AND (R106). Bitwise AND of two s registers. -/
  | and (g : Guard) (d a b : SReg)
  /-- OR (R106). Bitwise OR of two s registers. -/
  | or (g : Guard) (d a b : SReg)
  /-- XOR (R106). Bitwise XOR of two s registers. -/
  | xor (g : Guard) (d a b : SReg)
  /-- ANDN (R106). s[a] AND NOT s[b]. -/
  | andn (g : Guard) (d a b : SReg)
  /-- SLL (R106). Logical left shift by s[b][5:0]. -/
  | sll (g : Guard) (d a b : SReg)
  /-- SRL (R106). Logical right shift by s[b][5:0]. -/
  | srl (g : Guard) (d a b : SReg)
  /-- SRA (R106). Arithmetic right shift by s[b][5:0]. -/
  | sra (g : Guard) (d a b : SReg)
  /-- MIN (R106). Signed minimum of two s registers. -/
  | min (g : Guard) (d a b : SReg)
  /-- MAX (R106). Signed maximum of two s registers. -/
  | max (g : Guard) (d a b : SReg)
  /-- MINU (R106). Unsigned minimum of two s registers. -/
  | minu (g : Guard) (d a b : SReg)
  /-- MAXU (R106). Unsigned maximum of two s registers. -/
  | maxu (g : Guard) (d a b : SReg)
  /-- MUL (R107). Low 64 bits of the product. -/
  | mul (g : Guard) (d a b : SReg)
  /-- MULH (R107). High 64 bits of the signed product. -/
  | mulh (g : Guard) (d a b : SReg)
  /-- MULHU (R107). High 64 bits of the unsigned product. -/
  | mulhu (g : Guard) (d a b : SReg)
  /-- DIV (R107). Signed division truncating toward zero with fixed results for zero divisor and overflow. -/
  | div (g : Guard) (d a b : SReg)
  /-- DIVU (R107). Unsigned division with all-ones result for zero divisor. -/
  | divu (g : Guard) (d a b : SReg)
  /-- REM (R107). Signed remainder with the dividend's sign. -/
  | rem (g : Guard) (d a b : SReg)
  /-- REMU (R107). Unsigned remainder. -/
  | remu (g : Guard) (d a b : SReg)
  /-- CLZ (R108). Counts leading zero bits. -/
  | clz (g : Guard) (d a : SReg)
  /-- CTZ (R108). Counts trailing zero bits. -/
  | ctz (g : Guard) (d a : SReg)
  /-- POPC (R108). Counts one bits. -/
  | popc (g : Guard) (d a : SReg)
  /-- BREV (R108). Reverses bit order. -/
  | brev (g : Guard) (d a : SReg)
  /-- BSWAP (R108). Reverses byte order. -/
  | bswap (g : Guard) (d a : SReg)
  /-- BEXT (R108). Extracts a bit field of s[a] positioned by s[b]. -/
  | bext (g : Guard) (d a b : SReg)
  /-- BINS (R108). Inserts a field of s[a] into s[d]. -/
  | bins (g : Guard) (d a b : SReg)
  /-- SEXT8 (R108). Sign-extends the low byte. -/
  | sext8 (g : Guard) (d a : SReg)
  /-- SEXT16 (R108). Sign-extends the low halfword. -/
  | sext16 (g : Guard) (d a : SReg)
  /-- SEXT32 (R108). Sign-extends the low word. -/
  | sext32 (g : Guard) (d a : SReg)
  /-- CMPEQ (R109). Sets a predicate when two s registers are equal. -/
  | cmpeq (g : Guard) (d : PReg) (a b : SReg)
  /-- CMPNE (R109). Sets a predicate when two s registers differ. -/
  | cmpne (g : Guard) (d : PReg) (a b : SReg)
  /-- CMPLT (R109). Signed less-than compare to a predicate. -/
  | cmplt (g : Guard) (d : PReg) (a b : SReg)
  /-- CMPGE (R109). Signed greater-or-equal compare to a predicate. -/
  | cmpge (g : Guard) (d : PReg) (a b : SReg)
  /-- CMPLTU (R109). Unsigned less-than compare to a predicate. -/
  | cmpltu (g : Guard) (d : PReg) (a b : SReg)
  /-- CMPGEU (R109). Unsigned greater-or-equal compare to a predicate. -/
  | cmpgeu (g : Guard) (d : PReg) (a b : SReg)
  /-- PAND (R110). AND of two predicates. -/
  | pand (g : Guard) (d a b : PReg)
  /-- POR (R110). OR of two predicates. -/
  | por (g : Guard) (d a b : PReg)
  /-- PXOR (R110). XOR of two predicates. -/
  | pxor (g : Guard) (d a b : PReg)
  /-- PANDN (R110). p[a] AND NOT p[b]. -/
  | pandn (g : Guard) (d a b : PReg)
  /-- PNOT (R110). Inverts a predicate. -/
  | pnot (g : Guard) (d a : PReg)
  /-- ADDI (R111). Adds a sign-extended immediate. -/
  | addi (d a : SReg) (imm : BitVec 15)
  /-- ANDI (R111). ANDs a sign-extended immediate. -/
  | andi (d a : SReg) (imm : BitVec 15)
  /-- ORI (R111). ORs a sign-extended immediate. -/
  | ori (d a : SReg) (imm : BitVec 15)
  /-- XORI (R111). XORs a sign-extended immediate. -/
  | xori (d a : SReg) (imm : BitVec 15)
  /-- SLLI (R111). Left shift by an immediate amount. -/
  | slli (d a : SReg) (sh : BitVec 6)
  /-- SRLI (R111). Logical right shift by an immediate amount. -/
  | srli (d a : SReg) (sh : BitVec 6)
  /-- SRAI (R111). Arithmetic right shift by an immediate amount. -/
  | srai (d a : SReg) (sh : BitVec 6)
  /-- RORI (R111). Rotate right by an immediate amount. -/
  | rori (d a : SReg) (sh : BitVec 6)
  /-- LDHI (R112). Shifts s[a] left by 15 and ORs in an unsigned 15-bit immediate. -/
  | ldhi (d a : SReg) (imm : BitVec 15)
  /-- CMPI_EQ (R111). Predicate from equality with a 12-bit immediate. -/
  | cmpiEq (d : PReg) (a : SReg) (imm : BitVec 12)
  /-- CMPI_NE (R111). Predicate from inequality with a 12-bit immediate. -/
  | cmpiNe (d : PReg) (a : SReg) (imm : BitVec 12)
  /-- CMPI_LT (R111). Signed less-than against a 12-bit immediate. -/
  | cmpiLt (d : PReg) (a : SReg) (imm : BitVec 12)
  /-- CMPI_GE (R111). Signed greater-or-equal against a 12-bit immediate. -/
  | cmpiGe (d : PReg) (a : SReg) (imm : BitVec 12)
  /-- CMPI_LTU (R111). Unsigned less-than against the sign-extended immediate. -/
  | cmpiLtu (d : PReg) (a : SReg) (imm : BitVec 12)
  /-- CMPI_GEU (R111). Unsigned greater-or-equal against the sign-extended immediate. -/
  | cmpiGeu (d : PReg) (a : SReg) (imm : BitVec 12)
  /-- KLD (R113). Loads a constant-window word zero-extended. -/
  | kld (d : SReg) (k : BitVec 8)
  /-- KLDS (R113). Loads a constant-window word sign-extended. -/
  | klds (d : SReg) (k : BitVec 8)
  /-- KADD (R113). Adds a sign-extended constant word. -/
  | kadd (d a : SReg) (k : BitVec 8)
  /-- KSUB (R113). Subtracts a sign-extended constant word. -/
  | ksub (d a : SReg) (k : BitVec 8)
  /-- KMUL (R113). Multiplies by a sign-extended constant word. -/
  | kmul (d a : SReg) (k : BitVec 8)
  /-- KAND (R113). ANDs a sign-extended constant word. -/
  | kand (d a : SReg) (k : BitVec 8)
  /-- KOR (R113). ORs a sign-extended constant word. -/
  | kor (d a : SReg) (k : BitVec 8)
  /-- KLDD (R113). Loads two consecutive constant words as one doubleword. -/
  | kldd (d : SReg) (k : BitVec 8)
  /-- LD (R114). Scalar load, plain or acquire, from global or scratch space. -/
  | ld (data base : SReg) (sp : Bool) (size : BitVec 2) (acq : Bool) (off : BitVec 10)
  /-- ST (R114). Scalar store, plain or release, to global or scratch space. -/
  | st (data base : SReg) (sp : Bool) (size : BitVec 2) (rel : Bool) (off : BitVec 10)
  /-- LDFE (R233). Scratch load that waits for a full granule and may clear it. -/
  | ldfe (data base : SReg) (size : BitVec 2) (clr mark : Bool) (off : BitVec 10)
  /-- STFE (R235). Scratch store that sets the granule's full bit. -/
  | stfe (data base : SReg) (size : BitVec 2) (off : BitVec 10)
  /-- AADD (R237). Atomic integer add at the home slice. -/
  | aadd (data base b : SReg) (dw : Bool) (ord : BitVec 2)
  /-- AAND (R237). Atomic AND at the home slice. -/
  | aand (data base b : SReg) (dw : Bool) (ord : BitVec 2)
  /-- AOR (R237). Atomic OR at the home slice. -/
  | aor (data base b : SReg) (dw : Bool) (ord : BitVec 2)
  /-- AXOR (R237). Atomic XOR at the home slice. -/
  | axor (data base b : SReg) (dw : Bool) (ord : BitVec 2)
  /-- AMIN (R237). Atomic signed minimum. -/
  | amin (data base b : SReg) (dw : Bool) (ord : BitVec 2)
  /-- AMAX (R237). Atomic signed maximum. -/
  | amax (data base b : SReg) (dw : Bool) (ord : BitVec 2)
  /-- AMINU (R237). Atomic unsigned minimum. -/
  | aminu (data base b : SReg) (dw : Bool) (ord : BitVec 2)
  /-- AMAXU (R237). Atomic unsigned maximum. -/
  | amaxu (data base b : SReg) (dw : Bool) (ord : BitVec 2)
  /-- ASWAP (R237). Atomic exchange. -/
  | aswap (data base b : SReg) (dw : Bool) (ord : BitVec 2)
  /-- ACAS (R237). Atomic compare and swap. -/
  | acas (data base b : SReg) (dw : Bool) (ord : BitVec 2)
  /-- AFADD (R239). Atomic binary32 add rounded at each addition. -/
  | afadd (data base b : SReg) (ord : BitVec 2)
  /-- AFADD_D (R241). Exact add of a binary32 value into the word's wide accumulator. -/
  | afaddD (base b : SReg) (ord : BitVec 2)
  /-- ACCINIT (R242). Reads out and clears the word's wide accumulator. -/
  | accinit (data base : SReg) (ord : BitVec 2)
  /-- ACCRD (R243). Reads out the wide accumulator to binary32 or binary64 without change. -/
  | accrd (data base : SReg) (dw : Bool) (ord : BitVec 2)
  /-- BR (R117). PC-relative branch on a predicate. -/
  | br (neg : Bool) (pred : PReg) (off : BitVec 21)
  /-- CALL (R118). PC-relative call writing lr when taken. -/
  | call (neg : Bool) (pred : PReg) (off : BitVec 21)
  /-- LOOP (R121). Decrements a count register and branches back over the body. -/
  | loop (a : SReg) (len : BitVec 15)
  /-- JR (R119). Jumps to the address in s[a]. -/
  | jr (g : Guard) (a : SReg)
  /-- RET (R119). Jumps to lr. -/
  | ret (g : Guard)
  /-- HALT (R30). Ends a kernel thread, or ends a transaction without commit. -/
  | halt
  /-- YIELD (R122). Holds the thread out of issue choice for 32 cycles. -/
  | yield (g : Guard)
  /-- NOP (R122). No effect. -/
  | nop (g : Guard)
  /-- CLEAVE (R123). Marks a cleavage point, clears CLVCNT and lets pending pre-emption, capacity events and D2 quantum ends act. -/
  | cleave (idx : BitVec 12)
  /-- VADD (R134). Lane-wise integer add. -/
  | vadd (esz : BitVec 2) (mk : MReg) (vd va vb : VName)
  /-- VSUB (R134). Lane-wise integer subtract. -/
  | vsub (esz : BitVec 2) (mk : MReg) (vd va vb : VName)
  /-- VMULLO (R134). Low half of lane-wise products. -/
  | vmullo (esz : BitVec 2) (mk : MReg) (vd va vb : VName)
  /-- VMULHI (R134). High half of signed lane products. -/
  | vmulhi (esz : BitVec 2) (mk : MReg) (vd va vb : VName)
  /-- VMULHIU (R134). High half of unsigned lane products. -/
  | vmulhiu (esz : BitVec 2) (mk : MReg) (vd va vb : VName)
  /-- VAND (R134). Lane-wise AND. -/
  | vand (esz : BitVec 2) (mk : MReg) (vd va vb : VName)
  /-- VOR (R134). Lane-wise OR. -/
  | vor (esz : BitVec 2) (mk : MReg) (vd va vb : VName)
  /-- VXOR (R134). Lane-wise XOR. -/
  | vxor (esz : BitVec 2) (mk : MReg) (vd va vb : VName)
  /-- VANDN (R134). Lane-wise AND NOT. -/
  | vandn (esz : BitVec 2) (mk : MReg) (vd va vb : VName)
  /-- VMAX (R134). Lane-wise signed maximum. -/
  | vmax (esz : BitVec 2) (mk : MReg) (vd va vb : VName)
  /-- VMIN (R134). Lane-wise signed minimum. -/
  | vmin (esz : BitVec 2) (mk : MReg) (vd va vb : VName)
  /-- VMAXU (R134). Lane-wise unsigned maximum. -/
  | vmaxu (esz : BitVec 2) (mk : MReg) (vd va vb : VName)
  /-- VMINU (R134). Lane-wise unsigned minimum. -/
  | vminu (esz : BitVec 2) (mk : MReg) (vd va vb : VName)
  /-- VSHL (R134). Lane-wise left shift. -/
  | vshl (esz : BitVec 2) (mk : MReg) (vd va vb : VName)
  /-- VSHR (R134). Lane-wise logical right shift. -/
  | vshr (esz : BitVec 2) (mk : MReg) (vd va vb : VName)
  /-- VSRA (R134). Lane-wise arithmetic right shift. -/
  | vsra (esz : BitVec 2) (mk : MReg) (vd va vb : VName)
  /-- VADDS (R134). Lane-wise signed saturating add. -/
  | vadds (esz : BitVec 2) (mk : MReg) (vd va vb : VName)
  /-- VADDSU (R134). Lane-wise unsigned saturating add. -/
  | vaddsu (esz : BitVec 2) (mk : MReg) (vd va vb : VName)
  /-- VSUBS (R134). Lane-wise signed saturating subtract. -/
  | vsubs (esz : BitVec 2) (mk : MReg) (vd va vb : VName)
  /-- VSUBSU (R134). Lane-wise unsigned saturating subtract. -/
  | vsubsu (esz : BitVec 2) (mk : MReg) (vd va vb : VName)
  /-- VABS (R134). Lane-wise absolute value modulo 2^w. -/
  | vabs (esz : BitVec 2) (mk : MReg) (vd va : VName)
  /-- VNEG (R134). Lane-wise negation modulo 2^w. -/
  | vneg (esz : BitVec 2) (mk : MReg) (vd va : VName)
  /-- VMOV (R134). Lane-wise copy. -/
  | vmov (esz : BitVec 2) (mk : MReg) (vd va : VName)
  /-- VBCAST (R134). Broadcasts the low bits of an s register to all active lanes. -/
  | vbcast (esz : BitVec 2) (mk : MReg) (vd : VName) (a : SReg)
  /-- VADD_16 (R135). 16-bit form of VADD over all lanes. -/
  | vadd16 (w : Bool) (vd vs : VName)
  /-- VSUB_16 (R135). 16-bit form of VSUB. -/
  | vsub16 (w : Bool) (vd vs : VName)
  /-- VMULLO_16 (R135). 16-bit form of VMULLO. -/
  | vmullo16 (w : Bool) (vd vs : VName)
  /-- VAND_16 (R135). 16-bit form of VAND. -/
  | vand16 (w : Bool) (vd vs : VName)
  /-- VOR_16 (R135). 16-bit form of VOR. -/
  | vor16 (w : Bool) (vd vs : VName)
  /-- VXOR_16 (R135). 16-bit form of VXOR. -/
  | vxor16 (w : Bool) (vd vs : VName)
  /-- VMAX_16 (R135). 16-bit form of VMAX. -/
  | vmax16 (w : Bool) (vd vs : VName)
  /-- VMIN_16 (R135). 16-bit form of VMIN. -/
  | vmin16 (w : Bool) (vd vs : VName)
  /-- VSHL_16 (R135). 16-bit form of VSHL. -/
  | vshl16 (w : Bool) (vd vs : VName)
  /-- VSHR_16 (R135). 16-bit form of VSHR. -/
  | vshr16 (w : Bool) (vd vs : VName)
  /-- VFADD_16 (R135). 16-bit form of VFADD. -/
  | vfadd16 (w : Bool) (vd vs : VName)
  /-- VFSUB_16 (R135). 16-bit form of VFSUB. -/
  | vfsub16 (w : Bool) (vd vs : VName)
  /-- VFMUL_16 (R135). 16-bit form of VFMUL. -/
  | vfmul16 (w : Bool) (vd vs : VName)
  /-- VFMAX_16 (R135). 16-bit form of VFMAX. -/
  | vfmax16 (w : Bool) (vd vs : VName)
  /-- VFMIN_16 (R135). 16-bit form of VFMIN. -/
  | vfmin16 (w : Bool) (vd vs : VName)
  /-- VMOV_16 (R135). 16-bit form of VMOV. -/
  | vmov16 (w : Bool) (vd vs : VName)
  /-- VFADD (R136). Lane-wise floating add rounded once. -/
  | vfadd (esz : BitVec 2) (mk : MReg) (vd va vb : VName)
  /-- VFSUB (R136). Lane-wise floating subtract. -/
  | vfsub (esz : BitVec 2) (mk : MReg) (vd va vb : VName)
  /-- VFMUL (R136). Lane-wise floating multiply. -/
  | vfmul (esz : BitVec 2) (mk : MReg) (vd va vb : VName)
  /-- VFDIV (R136). Lane-wise correctly rounded division. -/
  | vfdiv (esz : BitVec 2) (mk : MReg) (vd va vb : VName)
  /-- VFMAX (R137). Lane-wise floating maximum with defined NaN and zero rules. -/
  | vfmax (esz : BitVec 2) (mk : MReg) (vd va vb : VName)
  /-- VFMIN (R137). Lane-wise floating minimum with defined NaN and zero rules. -/
  | vfmin (esz : BitVec 2) (mk : MReg) (vd va vb : VName)
  /-- VFABS (R136). Clears the sign bit of each lane. -/
  | vfabs (esz : BitVec 2) (mk : MReg) (vd va : VName)
  /-- VFNEG (R136). Inverts the sign bit of each lane. -/
  | vfneg (esz : BitVec 2) (mk : MReg) (vd va : VName)
  /-- VFSQRT (R136). Lane-wise correctly rounded square root. -/
  | vfsqrt (esz : BitVec 2) (mk : MReg) (vd va : VName)
  /-- VCMPEQ (R141). Integer equality compare into a mask register. -/
  | vcmpeq (esz : BitVec 2) (mk : MReg) (md : MReg) (va vb : VName)
  /-- VCMPNE (R141). Integer inequality compare into a mask. -/
  | vcmpne (esz : BitVec 2) (mk : MReg) (md : MReg) (va vb : VName)
  /-- VCMPLT (R141). Signed less-than compare into a mask. -/
  | vcmplt (esz : BitVec 2) (mk : MReg) (md : MReg) (va vb : VName)
  /-- VCMPLE (R141). Signed less-or-equal compare into a mask. -/
  | vcmple (esz : BitVec 2) (mk : MReg) (md : MReg) (va vb : VName)
  /-- VCMPLTU (R141). Unsigned less-than compare into a mask. -/
  | vcmpltu (esz : BitVec 2) (mk : MReg) (md : MReg) (va vb : VName)
  /-- VCMPLEU (R141). Unsigned less-or-equal compare into a mask. -/
  | vcmpleu (esz : BitVec 2) (mk : MReg) (md : MReg) (va vb : VName)
  /-- VFCMPEQ (R141). Floating equality compare into a mask. -/
  | vfcmpeq (esz : BitVec 2) (mk : MReg) (md : MReg) (va vb : VName)
  /-- VFCMPLT (R141). Floating less-than compare into a mask. -/
  | vfcmplt (esz : BitVec 2) (mk : MReg) (md : MReg) (va vb : VName)
  /-- VFCMPLE (R141). Floating less-or-equal compare into a mask. -/
  | vfcmple (esz : BitVec 2) (mk : MReg) (md : MReg) (va vb : VName)
  /-- VFCMPUN (R141). Unordered compare into a mask. -/
  | vfcmpun (esz : BitVec 2) (mk : MReg) (md : MReg) (va vb : VName)
  /-- VMAND (R142). AND of two mask registers. -/
  | vmand (md ma mb : MReg)
  /-- VMOR (R142). OR of two mask registers. -/
  | vmor (md ma mb : MReg)
  /-- VMXOR (R142). XOR of two mask registers. -/
  | vmxor (md ma mb : MReg)
  /-- VMNOT (R142). Inverts a mask register. -/
  | vmnot (md ma : MReg)
  /-- VCVT (R143). Converts lanes between element formats under FPM or a fixed variant. -/
  | vcvt (src dst : BitVec 5) (cv : BitVec 2) (mk : MReg) (vd va : VName)
  /-- VRSUM (R144). Integer sum reduction by the fixed tree. -/
  | vrsum (esz : BitVec 2) (mk : MReg) (vd va : VName)
  /-- VRMAX (R144). Signed maximum reduction. -/
  | vrmax (esz : BitVec 2) (mk : MReg) (vd va : VName)
  /-- VRMIN (R144). Signed minimum reduction. -/
  | vrmin (esz : BitVec 2) (mk : MReg) (vd va : VName)
  /-- VRMAXU (R144). Unsigned maximum reduction. -/
  | vrmaxu (esz : BitVec 2) (mk : MReg) (vd va : VName)
  /-- VRMINU (R144). Unsigned minimum reduction. -/
  | vrminu (esz : BitVec 2) (mk : MReg) (vd va : VName)
  /-- VRAND (R144). Bitwise AND reduction. -/
  | vrand (esz : BitVec 2) (mk : MReg) (vd va : VName)
  /-- VROR (R144). Bitwise OR reduction. -/
  | vror (esz : BitVec 2) (mk : MReg) (vd va : VName)
  /-- VRXOR (R144). Bitwise XOR reduction. -/
  | vrxor (esz : BitVec 2) (mk : MReg) (vd va : VName)
  /-- VFRSUM (R144). Floating sum reduction with each tree node rounded. -/
  | vfrsum (esz : BitVec 2) (mk : MReg) (vd va : VName)
  /-- VFRMAX (R144). Floating maximum reduction. -/
  | vfrmax (esz : BitVec 2) (mk : MReg) (vd va : VName)
  /-- VFRMIN (R144). Floating minimum reduction. -/
  | vfrmin (esz : BitVec 2) (mk : MReg) (vd va : VName)
  /-- VFRPROD (R144). Floating product reduction. -/
  | vfrprod (esz : BitVec 2) (mk : MReg) (vd va : VName)
  /-- VSCAN (R145). Integer inclusive prefix sum in fixed order. -/
  | vscan (esz : BitVec 2) (mk : MReg) (vd va : VName)
  /-- VFSCAN (R145). Floating inclusive prefix sum in fixed order. -/
  | vfscan (esz : BitVec 2) (mk : MReg) (vd va : VName)
  /-- VPERM (R146). Permutes lanes by indices in vb. -/
  | vperm (esz : BitVec 2) (mk : MReg) (vd va vb : VName)
  /-- VROTL (R146). Rotates lanes by a scalar amount. -/
  | vrotl (esz : BitVec 2) (mk : MReg) (vd va : VName) (b : SReg)
  /-- VSLIDEUP (R146). Slides lanes up by a scalar amount. -/
  | vslideup (esz : BitVec 2) (mk : MReg) (vd va : VName) (b : SReg)
  /-- VSLIDEDN (R146). Slides lanes down by a scalar amount. -/
  | vslidedn (esz : BitVec 2) (mk : MReg) (vd va : VName) (b : SReg)
  /-- VZIPLO (R146). Interleaves the low halves of two vectors. -/
  | vziplo (esz : BitVec 2) (mk : MReg) (vd va vb : VName)
  /-- VZIPHI (R146). Interleaves the high halves of two vectors. -/
  | vziphi (esz : BitVec 2) (mk : MReg) (vd va vb : VName)
  /-- VUNZIPE (R146). Takes even elements of two concatenated vectors. -/
  | vunzipe (esz : BitVec 2) (mk : MReg) (vd va vb : VName)
  /-- VUNZIPO (R146). Takes odd elements of two concatenated vectors. -/
  | vunzipo (esz : BitVec 2) (mk : MReg) (vd va vb : VName)
  /-- VCOMPRESS (R147). Packs active lanes to the bottom and zeroes the rest. -/
  | vcompress (esz : BitVec 2) (mk : MReg) (vd va : VName)
  /-- VEXPAND (R147). Spreads low lanes into active destination lanes. -/
  | vexpand (esz : BitVec 2) (mk : MReg) (vd va : VName)
  /-- VLD (R149). Contiguous global vector load. -/
  | vld (esz : BitVec 2) (mk : MReg) (vd : VName) (a b : SReg)
  /-- VLDS (R149). Strided global vector load. -/
  | vlds (esz : BitVec 2) (mk : MReg) (vd : VName) (a b : SReg)
  /-- VLDSP (R149). Contiguous scratch vector load. -/
  | vldsp (esz : BitVec 2) (mk : MReg) (vd : VName) (a b : SReg)
  /-- VLDSPS (R149). Strided scratch vector load. -/
  | vldsps (esz : BitVec 2) (mk : MReg) (vd : VName) (a b : SReg)
  /-- VST (R149). Contiguous global vector store. -/
  | vst (esz : BitVec 2) (mk : MReg) (vd : VName) (a b : SReg)
  /-- VSTS (R149). Strided global vector store. -/
  | vsts (esz : BitVec 2) (mk : MReg) (vd : VName) (a b : SReg)
  /-- VSTSP (R149). Contiguous scratch vector store. -/
  | vstsp (esz : BitVec 2) (mk : MReg) (vd : VName) (a b : SReg)
  /-- VSTSPS (R149). Strided scratch vector store. -/
  | vstsps (esz : BitVec 2) (mk : MReg) (vd : VName) (a b : SReg)
  /-- VGATH (R152). Global gather by per-lane byte offsets. -/
  | vgath (esz : BitVec 2) (mk : MReg) (vd : VName) (a : SReg) (vb : VName)
  /-- VSCAT (R152). Global scatter by per-lane byte offsets in ascending lane order. -/
  | vscat (esz : BitVec 2) (mk : MReg) (vd : VName) (a : SReg) (vb : VName)
  /-- VGATHSP (R152). Scratch gather. -/
  | vgathsp (esz : BitVec 2) (mk : MReg) (vd : VName) (a : SReg) (vb : VName)
  /-- VSCATSP (R152). Scratch scatter. -/
  | vscatsp (esz : BitVec 2) (mk : MReg) (vd : VName) (a : SReg) (vb : VName)
  /-- VLDC (R155). Loads relative to a circular buffer's HEAD without moving it. -/
  | vldc (esz : BitVec 2) (mk : MReg) (vd : VName) (c : CReg) (b : SReg)
  /-- VSTC (R155). Stores relative to a circular buffer's TAIL without moving it. -/
  | vstc (esz : BitVec 2) (mk : MReg) (vd : VName) (c : CReg) (b : SReg)
  /-- VFMA (R138). Fused va*vb + vd rounded once. -/
  | vfma (esz : BitVec 2) (mk : MReg) (vd va vb : VName)
  /-- VFMS (R138). Fused va*vb - vd. -/
  | vfms (esz : BitVec 2) (mk : MReg) (vd va vb : VName)
  /-- VFNMA (R138). Fused -(va*vb) + vd. -/
  | vfnma (esz : BitVec 2) (mk : MReg) (vd va vb : VName)
  /-- VFNMS (R138). Fused -(va*vb) - vd. -/
  | vfnms (esz : BitVec 2) (mk : MReg) (vd va vb : VName)
  /-- VMAC (R139). Integer multiply-accumulate modulo 2^w. -/
  | vmac (esz : BitVec 2) (mk : MReg) (vd va vb : VName)
  /-- VEXP2 (R140). Correctly rounded 2^x per lane. -/
  | vexp2 (esz : BitVec 2) (mk : MReg) (vd va : VName)
  /-- VLOG2 (R140). Correctly rounded log2 per lane. -/
  | vlog2 (esz : BitVec 2) (mk : MReg) (vd va : VName)
  /-- VRCP (R140). Correctly rounded reciprocal per lane. -/
  | vrcp (esz : BitVec 2) (mk : MReg) (vd va : VName)
  /-- VRSQRT (R140). Correctly rounded reciprocal square root per lane. -/
  | vrsqrt (esz : BitVec 2) (mk : MReg) (vd va : VName)
  /-- VSIN (R140). Correctly rounded sine per lane. -/
  | vsin (esz : BitVec 2) (mk : MReg) (vd va : VName)
  /-- VTANH (R140). Correctly rounded tanh per lane. -/
  | vtanh (esz : BitVec 2) (mk : MReg) (vd va : VName)
  /-- VSIGM (R140). Correctly rounded logistic sigmoid per lane. -/
  | vsigm (esz : BitVec 2) (mk : MReg) (vd va : VName)
  /-- VEXT (R148). Extracts one lane into an s register. -/
  | vext (esz : BitVec 2) (mk : MReg) (d : SReg) (va : VName) (b : SReg)
  /-- VINS (R148). Inserts an s register value into one lane. -/
  | vins (esz : BitVec 2) (mk : MReg) (vd : VName) (a b : SReg)
  /-- VSPLAT (R148). Copies one lane to every active lane. -/
  | vsplat (esz : BitVec 2) (mk : MReg) (vd va : VName) (b : SReg)
  /-- VMTOS (R148). Moves mask bits 63:0 to an s register. -/
  | vmtos (d : SReg) (ma : MReg)
  /-- VMTOSH (R148). Moves mask bits 127:64 to an s register. -/
  | vmtosh (d : SReg) (ma : MReg)
  /-- VSTOM (R148). Builds a mask register from two s registers. -/
  | vstom (md : MReg) (a b : SReg)
  /-- MPOP (R148). Counts the one bits of a mask register. -/
  | mpop (d : SReg) (ma : MReg)
  /-- HMOV (R159). Copies a tensor handle. -/
  | hmov (hd ha : HReg)
  /-- HLD (R159). Loads a tensor handle from 32 bytes of global memory. -/
  | hld (hd : HReg) (x : SReg)
  /-- HST (R159). Stores a tensor handle to 32 bytes of global memory. -/
  | hst (hd : HReg) (x : SReg)
  /-- HSETB (R159). Sets a handle's BASE and SPACE. -/
  | hsetb (hd : HReg) (x : SReg)
  /-- HSETD (R159). Sets a handle's dimensions and tile logs. -/
  | hsetd (hd : HReg) (x : SReg)
  /-- HSETS (R159). Sets a handle's row stride. -/
  | hsets (hd : HReg) (x : SReg)
  /-- HSETF (R159). Sets a handle's FMT, TAREG and SPOFF. -/
  | hsetf (hd : HReg) (x : SReg)
  /-- HCUR (R159). Sets a handle's tile cursor. -/
  | hcur (hd : HReg) (x : SReg)
  /-- HNEXT (R160). Advances a handle's cursor modulo the tile count. -/
  | hnext (hd : HReg)
  /-- HGET (R159). Reads a field group of a handle into an s register. -/
  | hget (ha : HReg) (f : BitVec 3) (x : SReg)
  /-- HTADDR (R160). Computes the address of a handle's current tile. -/
  | htaddr (ha : HReg) (x : SReg)
  /-- MXMUL (R311). Submits a matrix multiply-accumulate job to the MXE. -/
  | mxmul (hd ha hb : HReg) (acc : Bank) (x : SReg)
  /-- MXGMUL (R311). Submits a row-gathered matrix multiply job. -/
  | mxgmul (hd ha hb : HReg) (acc : Bank) (x : SReg)
  /-- MXRANK (R314). Submits a rank-coded weighted row sum job on a bead string. -/
  | mxrank (hd ha hb : HReg) (acc : Bank) (x : SReg)
  /-- MXLOAD (R316). Submits a job loading a tile into a bank. -/
  | mxload (hd : HReg) (acc : Bank) (x : SReg)
  /-- MXSTORE (R316). Submits a job storing bank entries to a tile. -/
  | mxstore (hd : HReg) (acc : Bank) (x : SReg)
  /-- MXZERO (R317). Submits a job returning a bank to the cleared state. -/
  | mxzero (acc : Bank) (x : SReg)
  /-- MXWAIT (R318). Waits for an MXE job and observes it. -/
  | mxwait (x : SReg)
  /-- MXPOLL (R318). Sets a predicate when an MXE job is complete, observing it. -/
  | mxpoll (pd : PReg) (x : SReg)
  /-- MXWGT (R320). Sets the arbiter weight of the issuing core's position. -/
  | mxwgt (x : SReg)
  /-- CPY (R337). Submits a BTU tile copy, with conversion, over P planes. -/
  | cpy (hd ha : HReg) (x : SReg)
  /-- CPYG (R337). Submits a BTU row gather by an index list. -/
  | cpyg (hd ha hb : HReg) (x : SReg)
  /-- CPYF (R337). Submits a BTU fill of a tile from a constant word. -/
  | cpyf (hd : HReg) (x : SReg)
  /-- CPYW_FILL (R338). Submits a BTU job writing a tile into a circular buffer at TAIL. -/
  | cpywFill (c : CReg) (ha : HReg) (x : SReg)
  /-- CPYW_DRAIN (R338). Submits a BTU job draining a circular buffer at HEAD into a tile. -/
  | cpywDrain (hd : HReg) (c : CReg) (x : SReg)
  /-- CPYP (R340). Polls one BTU job and observes it when complete. -/
  | cpyp (pd : PReg) (x : SReg)
  /-- RKSORT (R327). Submits an RSU job ranking a whole key array into one bead string. -/
  | rksort (hd ha : HReg) (x : SReg)
  /-- RKTOPK (R327). Submits an RSU job ranking each column into its own bead string. -/
  | rktopk (hd ha : HReg) (x : SReg)
  /-- RKTAB (R329). Submits an RSU job replacing the attenuation or reconstruction table. -/
  | rktab (ha : HReg) (x : SReg)
  /-- RKVAL (R330). Submits an RSU job rebuilding a dense vector from a bead string. -/
  | rkval (hd ha : HReg) (x : SReg)
  /-- RKWAIT (R331). Waits for an RSU job and observes it. -/
  | rkwait (x : SReg)
  /-- COLRED (R343). Submits a collective reduction across participants in ring order. -/
  | colred (hd ha : HReg) (acc : BitVec 3) (x : SReg)
  /-- COLBC (R343). Submits a collective broadcast from the root. -/
  | colbc (hd ha : HReg) (x : SReg)
  /-- COLWAIT (R344). Waits for a CLE job and observes it. -/
  | colwait (x : SReg)
  /-- FENCE (R247). Full, acquire or release fence on the CORE path at a scope. -/
  | fence (kind scope : BitVec 2)
  /-- XFENCE (R248). Orders accesses between named access paths at a scope. -/
  | xfence (scope : BitVec 2) (paths : BitVec 8)
  /-- IFENCE (R249). Releases at die scope and invalidates the instruction cache and fetched instructions. -/
  | ifence
  /-- QUANT (R250). Under D2 ends the quantum and waits for its round to commit. -/
  | quant
  /-- BAR (R186). Arrives at the next barrier generation and waits for its release. -/
  | bar
  /-- BARARV (R187). Arrives at a barrier generation without waiting and returns its number. -/
  | bararv (d : SReg)
  /-- BARWT (R187). Waits for an outstanding barrier generation to release. -/
  | barwt (a : SReg)
  /-- STAG (R192). Sets the barrier release step of every core of the die. -/
  | stag (a : SReg)
  /-- DOMQ (R190). Returns a domain arrangement value selected by s[a]. -/
  | domq (d a : SReg)
  /-- SLEEP (R191). Consumes the wake bit or waits for WAKE or a timeout. -/
  | sleep (a : SReg)
  /-- WAKE (R191). Sets the wake bit of a thread on the issuing core. -/
  | wake (a : SReg)
  /-- CBWAITF (R156). Waits until a circular buffer holds n filled slots. -/
  | cbwaitf (c : CReg) (n : BitVec 8)
  /-- CBWAITE (R156). Waits until a circular buffer has n free slots. -/
  | cbwaite (c : CReg) (n : BitVec 8)
  /-- CBPOP (R156). Advances HEAD and lowers FILL by n. -/
  | cbpop (c : CReg) (n : BitVec 8)
  /-- CBPUSH (R156). Advances TAIL and raises FILL by n. -/
  | cbpush (c : CReg) (n : BitVec 8)
  /-- VRTAKE (R193). Claims vector blocks from the shared pool through the core FIFO. -/
  | vrtake (slots : BitVec 7)
  /-- VRTAKET (R193). Claims vector blocks with a time limit, reporting failure in a predicate. -/
  | vrtaket (pd : PReg) (a : SReg) (slots : BitVec 7)
  /-- VRGIVE (R194). Returns vector blocks to the shared pool. -/
  | vrgive (slots : BitVec 7)
  /-- VRQUERY (R195). Returns a snapshot of the vector register pool. -/
  | vrquery (d : SReg)
  /-- TXH (R293). Writes a handle onto a set slot's staging copy. -/
  | txh (hd : HReg) (slot : BitVec 4)
  /-- TXEND (R294). Commits a transaction, or ends a reconnaissance pass handing over its set. -/
  | txend
  /-- TXINFO (R295). Returns a transaction information item. -/
  | txinfo (d : SReg) (item : BitVec 4)
  /-- TXTOUCH (R296). Records or checks a slot's tile key, possibly causing a checked restart. -/
  | txtouch (a : SReg) (slot : BitVec 4) (w : Bool)
  /-- TXCHECK (R297). Sets a predicate when an address maps to a slot's key. -/
  | txcheck (pd : PReg) (a : SReg) (slot : BitVec 4) (w : Bool)
  /-- SRR (R124). Reads a special register. -/
  | srr (d : SReg) (idx : BitVec 12)
  /-- SRW (R124). Writes the writable fields of a special register that has no row of its own. -/
  | srw (idx : BitVec 12) (a : SReg)
  /-- RNG (R125). Replaces a counter with the random word of the launch seed and counter. -/
  | rng (d : SReg)
  /-- RNGRES (R126). Reserves a counter range in the package reservation table. -/
  | rngres (d a : SReg)
  /-- CYC (R128). Reads the core cycle count. -/
  | cyc (d : SReg)
  /-- ECALL (R129). Retires and stops the thread with a SERVICE packet to the supervisor. -/
  | ecall (svc : BitVec 12)
  /-- BKPT (R130). Raises BREAK with a tag without retiring. -/
  | bkpt (tag : BitVec 12)
  /-- LRPATCH (R196). Writes a patchable word of a pool launch record. -/
  | lrpatch (d a : SReg) (word : BitVec 12)
  /-- LRARM (R197). Arms a pool launch record and returns its launch id. -/
  | lrarm (d a : SReg)
  /-- LRWAIT (R198). Waits for a launch's final state and acquires its effects. -/
  | lrwait (d a : SReg)
  /-- LRSTAT (R198). Reads a launch status word without waiting. -/
  | lrstat (d a : SReg)
  deriving DecidableEq, Repr

end Sys2Proof
end

