-- ==== Sys2Proof/WellFormed.lean ====
section
/-! DEFINITION. Well-formedness: which terms of `Instr` are instructions of the machine (R6, R12, R67, R73, R87 to R103) and
which event terms name agents that exist. -/

namespace Sys2Proof

/-- gp = 0 with gn = 1 is not a guard (R73). -/
def Guard.wf (g : Guard) : Bool := !(g.neg && g.pred == 0)

/-- A thread slot of the package: die 0–8, core 0–255, thread 0–7. -/
def Tid.wf (t : Tid) : Bool := decide (t.die < 9) && decide (t.core < 256) && decide (t.tnum < 8)

/-- A unit of R394. -/
def UnitId.wf (u : UnitId) : Bool :=
  decide (u.die < 9) &&
    match u.cls with
    | 0 => decide (u.ix < 256)
    | 1 => decide (u.ix < 32)
    | 2 => decide (u.ix < 32)
    | 3 => decide (u.ix < 2)
    | 4 => decide (u.ix < 4)
    | _ => false

/-- A site of an error of storage (R390, R392). -/
def UeSite.wf : UeSite → Bool
  | .used u => u.wf
  | .corrected x => x.unit.wf
  | .hbm n => decide (n < 2 ^ 45)
  | .l2 n => decide (n < 2 ^ 43)
  | .replica die n => decide (die < 9) && decide (n < 2 ^ 43)
  | .register die core => decide (die < 9) && decide (core < 256)
  | .l1 die core _ _ => decide (die < 9) && decide (core < 256)
  | .scratch die core n => decide (die < 9) && decide (core < 256) && decide (n < 65536)
  | .engine eng die core => decide (eng < 4) && decide (die < 9) && decide (core < 256)
  | .lkmQueue die slice => decide (die < 9) && decide (slice < 32)
  | .scheduler die => decide (die < 9)

/-- A vector name that may be a destination: v28 may not (R12). -/
def dstOk (v : VName) : Bool := v != 28
/-- A vector name that may be a source: v29 may not (R12). -/
def srcOk (v : VName) : Bool := v != 29

/-- Number of set bits of an 8-bit field. -/
def popcount8 (x : BitVec 8) : Nat := (List.range 8).foldl (fun n i => n + (x.getLsbD i).toNat) 0

/-- An integer element format, 0x00–0x07 (R32). -/
def fmtIsInt (f : BitVec 5) : Bool := decide (f.toNat < 8)

/-- The format pairs and variants of VCVT (R95). DS8 counts as a floating-point source of .rtz, which the spec does not say (DESIGN CHOICE,
log entry 69). -/
def cvtOk (src dst : BitVec 5) (cv : BitVec 2) : Bool :=
  decide (src.toNat ≤ 0x0D) && decide (dst.toNat ≤ 0x0D) &&
    match cv.toNat with
    | 0 => true
    | 1 => fmtIsInt src && fmtIsInt dst
    | 2 => !fmtIsInt src && fmtIsInt dst
    | _ => false

/-- Access class of a special register. -/
inductive SrAccess where
  | ro | rw | wo
  deriving DecidableEq, Repr

/-- The assigned special-register indices and their access (R23, R124, R153, R164, R200, R212, R245, R246, R252, R259, R264,
R268, R274, R305, R307, R318, R325, R331, R340, R344, R372, R393, R396, R406, R411, R415, R428, R441, R451). -/
def srAccess (idx : BitVec 12) : Option SrAccess :=
  let n := idx.toNat
  if n ∈ [0x000, 0x004, 0x008, 0x009, 0x00A, 0x00C, 0x020, 0x021, 0x022, 0x023, 0x024, 0x025, 0x028, 0x02A, 0x02D, 0x02E,
      0x02F, 0x030, 0x031] then some .ro
  else if n ∈ [0x001, 0x002, 0x02C] then some .rw
  else if 0x010 ≤ n ∧ n ≤ 0x01F then some .rw
  else if n ∈ [0x029, 0x032] then some .wo
  else if n ∈ [0x411, 0x438, 0x440, 0x443, 0x446, 0x470] then some .ro
  else if 0x460 ≤ n ∧ n ≤ 0x468 then some .ro
  else if n ∈ [0x420, 0x430, 0x432, 0x434, 0x436, 0x439, 0x43A, 0x441, 0x442, 0x444, 0x445, 0x471] then some .rw
  else if 0x450 ≤ n ∧ n ≤ 0x45F then some .rw
  else if n ∈ [0x410, 0x431, 0x433, 0x435, 0x437] then some .wo
  else none

/-- SRR accepts an assigned index whose register is not write-only (R23, R124). -/
def srReadable (idx : BitVec 12) : Bool :=
  match srAccess idx with
  | some .ro => true
  | some .rw => true
  | some .wo => false
  | none => false

/-- SRW accepts an assigned index whose register has a writable field (R23, R124). -/
def srWritable (idx : BitVec 12) : Bool :=
  match srAccess idx with
  | some .ro => false
  | some .rw => true
  | some .wo => true
  | none => false

/-- The well-formed terms. -/
def Instr.wf : Instr → Bool
  | .add g _ _ _ => g.wf
  | .sub g _ _ _ => g.wf
  | .and g _ _ _ => g.wf
  | .or g _ _ _ => g.wf
  | .xor g _ _ _ => g.wf
  | .andn g _ _ _ => g.wf
  | .sll g _ _ _ => g.wf
  | .srl g _ _ _ => g.wf
  | .sra g _ _ _ => g.wf
  | .min g _ _ _ => g.wf
  | .max g _ _ _ => g.wf
  | .minu g _ _ _ => g.wf
  | .maxu g _ _ _ => g.wf
  | .mul g _ _ _ => g.wf
  | .mulh g _ _ _ => g.wf
  | .mulhu g _ _ _ => g.wf
  | .div g _ _ _ => g.wf
  | .divu g _ _ _ => g.wf
  | .rem g _ _ _ => g.wf
  | .remu g _ _ _ => g.wf
  | .clz g _ _ => g.wf
  | .ctz g _ _ => g.wf
  | .popc g _ _ => g.wf
  | .brev g _ _ => g.wf
  | .bswap g _ _ => g.wf
  | .bext g _ _ _ => g.wf
  | .bins g _ _ _ => g.wf
  | .sext8 g _ _ => g.wf
  | .sext16 g _ _ => g.wf
  | .sext32 g _ _ => g.wf
  | .cmpeq g _ _ _ => g.wf
  | .cmpne g _ _ _ => g.wf
  | .cmplt g _ _ _ => g.wf
  | .cmpge g _ _ _ => g.wf
  | .cmpltu g _ _ _ => g.wf
  | .cmpgeu g _ _ _ => g.wf
  | .pand g _ _ _ => g.wf
  | .por g _ _ _ => g.wf
  | .pxor g _ _ _ => g.wf
  | .pandn g _ _ _ => g.wf
  | .pnot g _ _ => g.wf
  | .addi _ _ _ => true
  | .andi _ _ _ => true
  | .ori _ _ _ => true
  | .xori _ _ _ => true
  | .slli _ _ _ => true
  | .srli _ _ _ => true
  | .srai _ _ _ => true
  | .rori _ _ _ => true
  | .ldhi _ _ _ => true
  | .cmpiEq _ _ _ => true
  | .cmpiNe _ _ _ => true
  | .cmpiLt _ _ _ => true
  | .cmpiGe _ _ _ => true
  | .cmpiLtu _ _ _ => true
  | .cmpiGeu _ _ _ => true
  | .kld _ _ => true
  | .klds _ _ => true
  | .kadd _ _ _ => true
  | .ksub _ _ _ => true
  | .kmul _ _ _ => true
  | .kand _ _ _ => true
  | .kor _ _ _ => true
  | .kldd _ k => k.toNat % 2 == 0
  | .ld _ _ _ _ _ _ => true
  | .st _ _ _ _ _ _ => true
  | .ldfe _ _ _ _ _ _ => true
  | .stfe _ _ _ _ => true
  | .aadd _ _ _ _ _ => true
  | .aand _ _ _ _ _ => true
  | .aor _ _ _ _ _ => true
  | .axor _ _ _ _ _ => true
  | .amin _ _ _ _ _ => true
  | .amax _ _ _ _ _ => true
  | .aminu _ _ _ _ _ => true
  | .amaxu _ _ _ _ _ => true
  | .aswap _ _ _ _ _ => true
  | .acas _ _ _ _ _ => true
  | .afadd _ _ _ _ => true
  | .afaddD _ _ _ => true
  | .accinit _ _ _ => true
  | .accrd _ _ _ _ => true
  | .br neg pred _ => !(neg && pred == 0)
  | .call neg pred _ => !(neg && pred == 0)
  | .loop _ len => decide (0 < len.toInt)
  | .jr g _ => g.wf
  | .ret g => g.wf
  | .halt => true
  | .yield g => g.wf
  | .nop g => g.wf
  | .cleave _ => true
  | .vadd _ _ vd va vb => dstOk vd && srcOk va && srcOk vb
  | .vsub _ _ vd va vb => dstOk vd && srcOk va && srcOk vb
  | .vmullo _ _ vd va vb => dstOk vd && srcOk va && srcOk vb
  | .vmulhi _ _ vd va vb => dstOk vd && srcOk va && srcOk vb
  | .vmulhiu _ _ vd va vb => dstOk vd && srcOk va && srcOk vb
  | .vand _ _ vd va vb => dstOk vd && srcOk va && srcOk vb
  | .vor _ _ vd va vb => dstOk vd && srcOk va && srcOk vb
  | .vxor _ _ vd va vb => dstOk vd && srcOk va && srcOk vb
  | .vandn _ _ vd va vb => dstOk vd && srcOk va && srcOk vb
  | .vmax _ _ vd va vb => dstOk vd && srcOk va && srcOk vb
  | .vmin _ _ vd va vb => dstOk vd && srcOk va && srcOk vb
  | .vmaxu _ _ vd va vb => dstOk vd && srcOk va && srcOk vb
  | .vminu _ _ vd va vb => dstOk vd && srcOk va && srcOk vb
  | .vshl _ _ vd va vb => dstOk vd && srcOk va && srcOk vb
  | .vshr _ _ vd va vb => dstOk vd && srcOk va && srcOk vb
  | .vsra _ _ vd va vb => dstOk vd && srcOk va && srcOk vb
  | .vadds _ _ vd va vb => dstOk vd && srcOk va && srcOk vb
  | .vaddsu _ _ vd va vb => dstOk vd && srcOk va && srcOk vb
  | .vsubs _ _ vd va vb => dstOk vd && srcOk va && srcOk vb
  | .vsubsu _ _ vd va vb => dstOk vd && srcOk va && srcOk vb
  | .vabs _ _ vd va => dstOk vd && srcOk va
  | .vneg _ _ vd va => dstOk vd && srcOk va
  | .vmov _ _ vd va => dstOk vd && srcOk va
  | .vbcast _ _ vd _ => dstOk vd
  | .vadd16 w vd vs => vd != 28 && vd != 29 && vs != 29 && !(vd == 0 && vs == 0 && !w)
  | .vsub16 _ vd vs => vd != 28 && vd != 29 && vs != 29
  | .vmullo16 _ vd vs => vd != 28 && vd != 29 && vs != 29
  | .vand16 _ vd vs => vd != 28 && vd != 29 && vs != 29
  | .vor16 _ vd vs => vd != 28 && vd != 29 && vs != 29
  | .vxor16 _ vd vs => vd != 28 && vd != 29 && vs != 29
  | .vmax16 _ vd vs => vd != 28 && vd != 29 && vs != 29
  | .vmin16 _ vd vs => vd != 28 && vd != 29 && vs != 29
  | .vshl16 _ vd vs => vd != 28 && vd != 29 && vs != 29
  | .vshr16 _ vd vs => vd != 28 && vd != 29 && vs != 29
  | .vfadd16 _ vd vs => vd != 28 && vd != 29 && vs != 29
  | .vfsub16 _ vd vs => vd != 28 && vd != 29 && vs != 29
  | .vfmul16 _ vd vs => vd != 28 && vd != 29 && vs != 29
  | .vfmax16 _ vd vs => vd != 28 && vd != 29 && vs != 29
  | .vfmin16 _ vd vs => vd != 28 && vd != 29 && vs != 29
  | .vmov16 _ vd vs => vd != 28 && vd != 29 && vs != 29
  | .vfadd esz _ vd va vb => esz != 0 && dstOk vd && srcOk va && srcOk vb
  | .vfsub esz _ vd va vb => esz != 0 && dstOk vd && srcOk va && srcOk vb
  | .vfmul esz _ vd va vb => esz != 0 && dstOk vd && srcOk va && srcOk vb
  | .vfdiv esz _ vd va vb => esz != 0 && dstOk vd && srcOk va && srcOk vb
  | .vfmax esz _ vd va vb => esz != 0 && dstOk vd && srcOk va && srcOk vb
  | .vfmin esz _ vd va vb => esz != 0 && dstOk vd && srcOk va && srcOk vb
  | .vfabs esz _ vd va => esz != 0 && dstOk vd && srcOk va
  | .vfneg esz _ vd va => esz != 0 && dstOk vd && srcOk va
  | .vfsqrt esz _ vd va => esz != 0 && dstOk vd && srcOk va
  | .vcmpeq _ _ _ va vb => srcOk va && srcOk vb
  | .vcmpne _ _ _ va vb => srcOk va && srcOk vb
  | .vcmplt _ _ _ va vb => srcOk va && srcOk vb
  | .vcmple _ _ _ va vb => srcOk va && srcOk vb
  | .vcmpltu _ _ _ va vb => srcOk va && srcOk vb
  | .vcmpleu _ _ _ va vb => srcOk va && srcOk vb
  | .vfcmpeq esz _ _ va vb => esz != 0 && srcOk va && srcOk vb
  | .vfcmplt esz _ _ va vb => esz != 0 && srcOk va && srcOk vb
  | .vfcmple esz _ _ va vb => esz != 0 && srcOk va && srcOk vb
  | .vfcmpun esz _ _ va vb => esz != 0 && srcOk va && srcOk vb
  | .vmand _ _ _ => true
  | .vmor _ _ _ => true
  | .vmxor _ _ _ => true
  | .vmnot _ _ => true
  | .vcvt src dst cv _ vd va => cvtOk src dst cv && dstOk vd && srcOk va
  | .vrsum _ _ vd va => dstOk vd && srcOk va
  | .vrmax _ _ vd va => dstOk vd && srcOk va
  | .vrmin _ _ vd va => dstOk vd && srcOk va
  | .vrmaxu _ _ vd va => dstOk vd && srcOk va
  | .vrminu _ _ vd va => dstOk vd && srcOk va
  | .vrand _ _ vd va => dstOk vd && srcOk va
  | .vror _ _ vd va => dstOk vd && srcOk va
  | .vrxor _ _ vd va => dstOk vd && srcOk va
  | .vfrsum esz _ vd va => esz != 0 && dstOk vd && srcOk va
  | .vfrmax esz _ vd va => esz != 0 && dstOk vd && srcOk va
  | .vfrmin esz _ vd va => esz != 0 && dstOk vd && srcOk va
  | .vfrprod esz _ vd va => esz != 0 && dstOk vd && srcOk va
  | .vscan _ _ vd va => dstOk vd && srcOk va
  | .vfscan esz _ vd va => esz != 0 && dstOk vd && srcOk va
  | .vperm _ _ vd va vb => dstOk vd && srcOk va && srcOk vb
  | .vrotl _ _ vd va _ => dstOk vd && srcOk va
  | .vslideup _ _ vd va _ => dstOk vd && srcOk va
  | .vslidedn _ _ vd va _ => dstOk vd && srcOk va
  | .vziplo _ _ vd va vb => dstOk vd && srcOk va && srcOk vb
  | .vziphi _ _ vd va vb => dstOk vd && srcOk va && srcOk vb
  | .vunzipe _ _ vd va vb => dstOk vd && srcOk va && srcOk vb
  | .vunzipo _ _ vd va vb => dstOk vd && srcOk va && srcOk vb
  | .vcompress _ _ vd va => dstOk vd && srcOk va
  | .vexpand _ _ vd va => dstOk vd && srcOk va
  | .vld _ _ vd _ _ => vd != 29
  | .vlds _ _ vd _ _ => vd != 29
  | .vldsp _ _ vd _ _ => vd != 29
  | .vldsps _ _ vd _ _ => vd != 29
  | .vst _ _ vd _ _ => vd != 28
  | .vsts _ _ vd _ _ => vd != 28
  | .vstsp _ _ vd _ _ => vd != 28
  | .vstsps _ _ vd _ _ => vd != 28
  | .vgath esz _ vd _ vb => esz != 0 && vd != 29 && srcOk vb
  | .vscat esz _ vd _ vb => esz != 0 && vd != 28 && srcOk vb
  | .vgathsp esz _ vd _ vb => esz != 0 && vd != 29 && srcOk vb
  | .vscatsp esz _ vd _ vb => esz != 0 && vd != 28 && srcOk vb
  | .vldc _ _ vd _ _ => vd != 29
  | .vstc _ _ vd _ _ => vd != 28
  | .vfma esz _ vd va vb => esz != 0 && dstOk vd && srcOk vd && srcOk va && srcOk vb
  | .vfms esz _ vd va vb => esz != 0 && dstOk vd && srcOk vd && srcOk va && srcOk vb
  | .vfnma esz _ vd va vb => esz != 0 && dstOk vd && srcOk vd && srcOk va && srcOk vb
  | .vfnms esz _ vd va vb => esz != 0 && dstOk vd && srcOk vd && srcOk va && srcOk vb
  | .vmac esz _ vd va vb => esz != 3 && dstOk vd && srcOk vd && srcOk va && srcOk vb
  | .vexp2 esz _ vd va => (esz == 1 || esz == 2) && dstOk vd && srcOk va
  | .vlog2 esz _ vd va => (esz == 1 || esz == 2) && dstOk vd && srcOk va
  | .vrcp esz _ vd va => (esz == 1 || esz == 2) && dstOk vd && srcOk va
  | .vrsqrt esz _ vd va => (esz == 1 || esz == 2) && dstOk vd && srcOk va
  | .vsin esz _ vd va => (esz == 1 || esz == 2) && dstOk vd && srcOk va
  | .vtanh esz _ vd va => (esz == 1 || esz == 2) && dstOk vd && srcOk va
  | .vsigm esz _ vd va => (esz == 1 || esz == 2) && dstOk vd && srcOk va
  | .vext _ _ _ va _ => srcOk va
  | .vins _ _ vd _ _ => dstOk vd
  | .vsplat _ _ vd va _ => dstOk vd && srcOk va
  | .vmtos _ _ => true
  | .vmtosh _ _ => true
  | .vstom _ _ _ => true
  | .mpop _ _ => true
  | .hmov _ _ => true
  | .hld _ _ => true
  | .hst _ _ => true
  | .hsetb _ _ => true
  | .hsetd _ _ => true
  | .hsets _ _ => true
  | .hsetf _ _ => true
  | .hcur _ _ => true
  | .hnext _ => true
  | .hget _ _ _ => true
  | .htaddr _ _ => true
  | .mxmul _ _ _ _ _ => true
  | .mxgmul _ _ _ _ _ => true
  | .mxrank _ _ _ _ _ => true
  | .mxload _ _ _ => true
  | .mxstore _ _ _ => true
  | .mxzero _ _ => true
  | .mxwait _ => true
  | .mxpoll _ _ => true
  | .mxwgt _ => true
  | .cpy _ _ _ => true
  | .cpyg _ _ _ _ => true
  | .cpyf _ _ => true
  | .cpywFill _ _ _ => true
  | .cpywDrain _ _ _ => true
  | .cpyp _ _ => true
  | .rksort _ _ _ => true
  | .rktopk _ _ _ => true
  | .rktab _ _ => true
  | .rkval _ _ _ => true
  | .rkwait _ => true
  | .colred _ _ acc _ => acc.extractLsb' 1 2 != 3
  | .colbc _ _ _ => true
  | .colwait _ => true
  | .fence kind _ => kind != 3
  | .xfence _ paths => decide (2 ≤ popcount8 paths)
  | .ifence => true
  | .quant => true
  | .bar => true
  | .bararv _ => true
  | .barwt _ => true
  | .stag _ => true
  | .domq _ _ => true
  | .sleep _ => true
  | .wake _ => true
  | .cbwaitf _ n => n != 0
  | .cbwaite _ n => n != 0
  | .cbpop _ n => n != 0
  | .cbpush _ n => n != 0
  | .vrtake slots => slots != 0
  | .vrtaket _ _ slots => slots != 0
  | .vrgive slots => slots != 0
  | .vrquery _ => true
  | .txh _ _ => true
  | .txend => true
  | .txinfo _ _ => true
  | .txtouch _ _ _ => true
  | .txcheck _ _ _ _ => true
  | .srr _ idx => srReadable idx
  | .srw idx _ => srWritable idx
  | .rng _ => true
  | .rngres _ _ => true
  | .cyc _ => true
  | .ecall _ => true
  | .bkpt _ => true
  | .lrpatch _ _ _ => true
  | .lrarm _ _ => true
  | .lrwait _ _ => true
  | .lrstat _ _ => true
  | .mxfree _ => true
  | .bankRelease cl _ => decide (cl < 288)
  | .capack _ => true
  | .rngclr _ => true
  | .pginv _ => true
  | .feop _ => true
  | .accdrop _ => true
  | .accspillWrite _ => true
  | .ffrgnWrite _ => true
  | .txstgWrite _ => true
  | .crectWrite _ _ => true
  | .frptrWrite _ => true
  | .frptrRead _ => true
  | .cbRegisterWrite _ _ _ => true
  | .tarcmdRegister _ => true
  | .tarcmdDeregister _ => true
  | .sliceBind _ die threads => decide (die < 9) && threads.all Tid.wf
  | .sliceComplete t => t.wf
  | .restartRerun _ _ t => t.wf
  | .ageingStep => true
  | .priorityPreemption _ => true
  | .workSteal _ thief => decide (thief < 9)
  | .statusExpiry _ => true
  | .barrierRelease _ _ => true
  | .barrierLeave core => decide (core < 2304)
  | .d2QuantumExpiry t => t.wf
  | .d2RoundCommit _ _ => true
  | .vrClaimGrant core => decide (core < 2304)
  | .vrResumerPreempt core => decide (core < 2304)
  | .vrtaketTimeout t => t.wf
  | .sleepTimeout t => t.wf
  | .yieldHoldExpiry t => t.wf
  | .ldfeWaitEnd t => t.wf
  | .cbwaitEnd t => t.wf
  | .jobWaitEnd t => t.wf
  | .lrwaitEnd t => t.wf
  | .quantWaitEnd t => t.wf
  | .engineQueueEntryFree t => t.wf
  | .mxeStep cl => decide (cl < 288)
  | .rsuPass cl => decide (cl < 288)
  | .btuJobStart core _ => decide (core < 2304)
  | .btuJobComplete core _ => decide (core < 2304)
  | .collectiveExecute _ _ => true
  | .lineGrantRequest core _ _ _ _ => decide (core < 2304)
  | .tableWalkComplete _ _ _ _ => true
  | .sectorFill core _ _ => decide (core < 2304)
  | .writeBack core _ _ => decide (core < 2304)
  | .homeAtomic _ _ _ _ _ _ => true
  | .updateApply die src => decide (die < 9) && decide (src < 9)
  | .replicaFillInstall die _ _ => decide (die < 9)
  | .replicaDrop die _ _ => decide (die < 9)
  | .clockRequest t die => t.wf && decide (die < 9)
  | .packageAcquireEnd t => t.wf
  | .accSpill slice _ => decide (slice < 288)
  | .faultFrameWrite t => t.wf
  | .pageFaultRecord t => t.wf
  | .pageFaultResolved _ _ => true
  | .pageFaultKill _ _ => true
  | .faultFrameRestore _ _ t => t.wf
  | .remoteFaultRecord _ _ _ => true
  | .faultPacketWrite die => decide (die < 9)
  | .debugWindowAccess t _ _ => t.wf
  | .dctlResume t _ => t.wf
  | .dctlTerminateSlice t => t.wf
  | .dctlTerminateLaunch t => t.wf
  | .dctlPreempt t => t.wf
  | .contextFrameWrite t => t.wf
  | .contextResume _ _ t => t.wf
  | .fatalError _ => true
  | .seqSetCompute die => decide (die < 9)
  | .reconPassBind die t => decide (die < 9) && t.wf
  | .seqReserve die t => decide (die < 9) && t.wf
  | .seqSendRequests die => decide (die < 9)
  | .assignReceive die _ _ => decide (die < 9)
  | .lkmRequest slice die => decide (slice < 288) && decide (die < 9)
  | .lkmHorizon slice die => decide (slice < 288) && decide (die < 9)
  | .lkmPush _ _ _ _ => true
  | .transactionBind _ _ => true
  | .lkmCommit _ _ _ => true
  | .lkmRelease _ _ _ => true
  | .transactionReland _ _ t => t.wf
  | .registerScrub core _ => decide (core < 2304)
  | .patrolRead die _ _ => decide (die < 9)
  | .scoreDecay => true
  | .leaseIssue u => u.wf
  | .leaseDrainComplete u => u.wf
  | .leaseDrainTimeout u => u.wf
  | .assayResult u _ => u.wf
  | .channelTestWindow die _ => decide (die < 9)
  | .ueConsumption e => e.wf
  | .pairedCompare t _ => t.wf
  | .pairTimeout t => t.wf
  | .flitReplay u => u.wf
  | .boundaryFailure die _ => decide (die < 9)
  | .dywinLinkFailure die _ => decide (die < 9)
  | .packageSilence _ => true
  | .gangAck _ => true
  | .gangAcksComplete _ => true
  | .gangStart _ => true
  | .gangAbort _ => true
  | .doorbellRing _ _ _ => true
  | .doorbellReset _ _ _ => true
  | .doorbellDisable _ _ _ => true
  | .fePendingService _ => true
  | .queueMap _ _ => true
  | .queueSlotRelease _ => true
  | .packetFetch _ => true
  | .packetNop _ => true
  | .packetLaunch _ => true
  | .packetBundle _ => true
  | .launchSignalWrite _ => true
  | .packetWait _ => true
  | .packetWaitMet _ => true
  | .packetSignalStore _ => true
  | .packetSignalAdd _ => true
  | .packetIb _ => true
  | .packetPred _ => true
  | .packetLoop _ => true
  | .packetFetchfence _ => true
  | .packetCopy _ => true
  | .hostMemoryAccess _ _ _ => true
  | .hostRegisterWrite _ _ _ => true
  | .attestationGo _ => true
  | .attestationReportDone _ => true
  | .packageReset => true
  | .thermalThrottle die => decide (die < 9)
  | .thermalTrip => true
  | .islandGate _ => true
  | .islandPowerUp _ => true
  | .contactRegained _ => true
  | .dvfsChange _ _ => true
  | .dumpComplete => true

/-- The rows that are events of other agents: a step takes them from the agenda, no thread fetches them. -/
def Instr.isEvent : Instr → Bool
  | .bankRelease .. => true
  | .sliceBind .. => true
  | .sliceComplete .. => true
  | .restartRerun .. => true
  | .ageingStep => true
  | .priorityPreemption .. => true
  | .workSteal .. => true
  | .statusExpiry .. => true
  | .barrierRelease .. => true
  | .barrierLeave .. => true
  | .d2QuantumExpiry .. => true
  | .d2RoundCommit .. => true
  | .vrClaimGrant .. => true
  | .vrResumerPreempt .. => true
  | .vrtaketTimeout .. => true
  | .sleepTimeout .. => true
  | .yieldHoldExpiry .. => true
  | .ldfeWaitEnd .. => true
  | .cbwaitEnd .. => true
  | .jobWaitEnd .. => true
  | .lrwaitEnd .. => true
  | .quantWaitEnd .. => true
  | .engineQueueEntryFree .. => true
  | .mxeStep .. => true
  | .rsuPass .. => true
  | .btuJobStart .. => true
  | .btuJobComplete .. => true
  | .collectiveExecute .. => true
  | .lineGrantRequest .. => true
  | .tableWalkComplete .. => true
  | .sectorFill .. => true
  | .writeBack .. => true
  | .homeAtomic .. => true
  | .updateApply .. => true
  | .replicaFillInstall .. => true
  | .replicaDrop .. => true
  | .clockRequest .. => true
  | .packageAcquireEnd .. => true
  | .accSpill .. => true
  | .faultFrameWrite .. => true
  | .pageFaultRecord .. => true
  | .pageFaultResolved .. => true
  | .pageFaultKill .. => true
  | .faultFrameRestore .. => true
  | .remoteFaultRecord .. => true
  | .faultPacketWrite .. => true
  | .debugWindowAccess .. => true
  | .dctlResume .. => true
  | .dctlTerminateSlice .. => true
  | .dctlTerminateLaunch .. => true
  | .dctlPreempt .. => true
  | .contextFrameWrite .. => true
  | .contextResume .. => true
  | .fatalError .. => true
  | .seqSetCompute .. => true
  | .reconPassBind .. => true
  | .seqReserve .. => true
  | .seqSendRequests .. => true
  | .assignReceive .. => true
  | .lkmRequest .. => true
  | .lkmHorizon .. => true
  | .lkmPush .. => true
  | .transactionBind .. => true
  | .lkmCommit .. => true
  | .lkmRelease .. => true
  | .transactionReland .. => true
  | .registerScrub .. => true
  | .patrolRead .. => true
  | .scoreDecay => true
  | .leaseIssue .. => true
  | .leaseDrainComplete .. => true
  | .leaseDrainTimeout .. => true
  | .assayResult .. => true
  | .channelTestWindow .. => true
  | .ueConsumption .. => true
  | .pairedCompare .. => true
  | .pairTimeout .. => true
  | .flitReplay .. => true
  | .boundaryFailure .. => true
  | .dywinLinkFailure .. => true
  | .packageSilence .. => true
  | .gangAck .. => true
  | .gangAcksComplete .. => true
  | .gangStart .. => true
  | .gangAbort .. => true
  | .doorbellRing .. => true
  | .doorbellReset .. => true
  | .doorbellDisable .. => true
  | .fePendingService .. => true
  | .queueMap .. => true
  | .queueSlotRelease .. => true
  | .packetFetch .. => true
  | .packetNop .. => true
  | .packetLaunch .. => true
  | .packetBundle .. => true
  | .launchSignalWrite .. => true
  | .packetWait .. => true
  | .packetWaitMet .. => true
  | .packetSignalStore .. => true
  | .packetSignalAdd .. => true
  | .packetIb .. => true
  | .packetPred .. => true
  | .packetLoop .. => true
  | .packetFetchfence .. => true
  | .packetCopy .. => true
  | .hostMemoryAccess .. => true
  | .hostRegisterWrite .. => true
  | .attestationGo .. => true
  | .attestationReportDone .. => true
  | .packageReset => true
  | .thermalThrottle .. => true
  | .thermalTrip => true
  | .islandGate .. => true
  | .islandPowerUp .. => true
  | .contactRegained .. => true
  | .dvfsChange .. => true
  | .dumpComplete => true
  | _ => false

end Sys2Proof
end

