-- ==== Sys2Proof/Decode.lean ====
section
/-! DEFINITION. The decoder and the encoder (R62 to R71, R85 to R103). A word is first split into the fields of its format;
the decoder reads the fields and answers an instruction or rejects the word by name, and the encoder packs the same fields. -/

namespace Sys2Proof

noncomputable section

/-- Why a word is not an instruction; every one of these raises ILLEGAL (R74, R104). -/
inductive DecodeError where
  /-- Fewer halfwords than the length bit asks for. -/
  | short
  /-- The halfword 0x0000, or a 16-bit form that names v28 or v29 where it may not (R65, R85). -/
  | laneForm
  /-- A major opcode that is not assigned (R86). -/
  | unassignedMajor
  /-- A function code that is not listed (R87). -/
  | unassignedFunction
  /-- A nonzero reserved or unused field, or a p, m or c register number above 7 (R6, R67, R70, R87). -/
  | reservedField
  /-- A guard, size, element size, order, count, path set, format pair, vector name or register index outside the row's list. -/
  | illFormed
  deriving DecidableEq, Repr

/-- A one-bit field as a Bool. -/
def bit (x : BitVec 1) : Bool := x == 1
/-- A Bool as a one-bit field. -/
def ofBit (b : Bool) : BitVec 1 := if b then 1 else 0
/-- The upper two bits of a 5-bit field. -/
def hi2 (x : BitVec 5) : BitVec 2 := x.extractLsb' 3 2
/-- The low three bits of a 5-bit field as a register number. -/
def lo3 (x : BitVec 5) : Fin 8 := (x.extractLsb' 0 3).toFin
/-- The upper bit of a 4-bit field. -/
def hi1 (x : BitVec 4) : BitVec 1 := x.extractLsb' 3 1
/-- The low three bits of a 4-bit field as a register number. -/
def lo3b (x : BitVec 4) : Fin 8 := (x.extractLsb' 0 3).toFin
/-- A register number 0–7 in a 5-bit field. -/
def up5 (x : Fin 8) : BitVec 5 := 0#2 ++ (BitVec.ofFin x : BitVec 3)
/-- A register number 0–7 in a 4-bit field. -/
def up4 (x : Fin 8) : BitVec 4 := 0#1 ++ (BitVec.ofFin x : BitVec 3)

/-- The fields of the R format (R66). -/
structure RF where
  major : BitVec 6
  f6 : BitVec 6
  gn : BitVec 1
  gp : BitVec 3
  b : BitVec 5
  a : BitVec 5
  d : BitVec 5
  deriving DecidableEq, Repr

/-- The word of R-format fields. -/
def RF.pack (x : RF) : BitVec 32 :=
  x.f6 ++ x.gn ++ x.gp ++ x.b ++ x.a ++ x.d ++ x.major ++ 1#1

/-- The R-format fields of a word. -/
def RF.unpack (w : BitVec 32) : RF where
  major := w.extractLsb' 1 6
  f6 := w.extractLsb' 26 6
  gn := w.extractLsb' 25 1
  gp := w.extractLsb' 22 3
  b := w.extractLsb' 17 5
  a := w.extractLsb' 12 5
  d := w.extractLsb' 7 5

/-- The fields of the I format (R66). -/
structure IF where
  major : BitVec 6
  imm : BitVec 15
  a : BitVec 5
  d : BitVec 5
  deriving DecidableEq, Repr

/-- The word of I-format fields. -/
def IF.pack (x : IF) : BitVec 32 :=
  x.imm ++ x.a ++ x.d ++ x.major ++ 1#1

/-- The I-format fields of a word. -/
def IF.unpack (w : BitVec 32) : IF where
  major := w.extractLsb' 1 6
  imm := w.extractLsb' 17 15
  a := w.extractLsb' 12 5
  d := w.extractLsb' 7 5

/-- The fields of the K format (R66). -/
structure KF where
  major : BitVec 6
  f7 : BitVec 7
  k : BitVec 8
  a : BitVec 5
  d : BitVec 5
  deriving DecidableEq, Repr

/-- The word of K-format fields. -/
def KF.pack (x : KF) : BitVec 32 :=
  x.f7 ++ x.k ++ x.a ++ x.d ++ x.major ++ 1#1

/-- The K-format fields of a word. -/
def KF.unpack (w : BitVec 32) : KF where
  major := w.extractLsb' 1 6
  f7 := w.extractLsb' 25 7
  k := w.extractLsb' 17 8
  a := w.extractLsb' 12 5
  d := w.extractLsb' 7 5

/-- The fields of the M format (R66). -/
structure MF where
  major : BitVec 6
  off : BitVec 10
  ord : BitVec 2
  size : BitVec 2
  sp : BitVec 1
  base : BitVec 5
  data : BitVec 5
  deriving DecidableEq, Repr

/-- The word of M-format fields. -/
def MF.pack (x : MF) : BitVec 32 :=
  x.off ++ x.ord ++ x.size ++ x.sp ++ x.base ++ x.data ++ x.major ++ 1#1

/-- The M-format fields of a word. -/
def MF.unpack (w : BitVec 32) : MF where
  major := w.extractLsb' 1 6
  off := w.extractLsb' 22 10
  ord := w.extractLsb' 20 2
  size := w.extractLsb' 18 2
  sp := w.extractLsb' 17 1
  base := w.extractLsb' 12 5
  data := w.extractLsb' 7 5

/-- The fields of the B format (R66). -/
structure BF where
  major : BitVec 6
  off : BitVec 21
  neg : BitVec 1
  pred : BitVec 3
  deriving DecidableEq, Repr

/-- The word of B-format fields. -/
def BF.pack (x : BF) : BitVec 32 :=
  x.off ++ x.neg ++ x.pred ++ x.major ++ 1#1

/-- The B-format fields of a word. -/
def BF.unpack (w : BitVec 32) : BF where
  major := w.extractLsb' 1 6
  off := w.extractLsb' 11 21
  neg := w.extractLsb' 10 1
  pred := w.extractLsb' 7 3

/-- The fields of the V format (R66). -/
structure VF where
  major : BitVec 6
  f5 : BitVec 5
  esz : BitVec 2
  mask : BitVec 3
  vb : BitVec 5
  va : BitVec 5
  vd : BitVec 5
  deriving DecidableEq, Repr

/-- The word of V-format fields. -/
def VF.pack (x : VF) : BitVec 32 :=
  x.f5 ++ x.esz ++ x.mask ++ x.vb ++ x.va ++ x.vd ++ x.major ++ 1#1

/-- The V-format fields of a word. -/
def VF.unpack (w : BitVec 32) : VF where
  major := w.extractLsb' 1 6
  f5 := w.extractLsb' 27 5
  esz := w.extractLsb' 25 2
  mask := w.extractLsb' 22 3
  vb := w.extractLsb' 17 5
  va := w.extractLsb' 12 5
  vd := w.extractLsb' 7 5

/-- The fields of the E format (R66). -/
structure EF where
  major : BitVec 6
  f5 : BitVec 5
  x : BitVec 5
  acc : BitVec 3
  hb : BitVec 4
  ha : BitVec 4
  hd : BitVec 4
  deriving DecidableEq, Repr

/-- The word of E-format fields. -/
def EF.pack (x : EF) : BitVec 32 :=
  x.f5 ++ x.x ++ x.acc ++ x.hb ++ x.ha ++ x.hd ++ x.major ++ 1#1

/-- The E-format fields of a word. -/
def EF.unpack (w : BitVec 32) : EF where
  major := w.extractLsb' 1 6
  f5 := w.extractLsb' 27 5
  x := w.extractLsb' 22 5
  acc := w.extractLsb' 19 3
  hb := w.extractLsb' 15 4
  ha := w.extractLsb' 11 4
  hd := w.extractLsb' 7 4

/-- The fields of the S format (R66). -/
structure SF where
  major : BitVec 6
  f3 : BitVec 3
  sidx : BitVec 12
  a : BitVec 5
  d : BitVec 5
  deriving DecidableEq, Repr

/-- The word of S-format fields. -/
def SF.pack (x : SF) : BitVec 32 :=
  x.f3 ++ x.sidx ++ x.a ++ x.d ++ x.major ++ 1#1

/-- The S-format fields of a word. -/
def SF.unpack (w : BitVec 32) : SF where
  major := w.extractLsb' 1 6
  f3 := w.extractLsb' 29 3
  sidx := w.extractLsb' 17 12
  a := w.extractLsb' 12 5
  d := w.extractLsb' 7 5

/-- Accept a well-formed instruction. -/
def accept (i : Instr) : Except DecodeError Instr := if i.wf then .ok i else .error .illFormed

/-- Accept an instruction whose reserved fields are zero. -/
def acceptIf (ok : Bool) (i : Instr) : Except DecodeError Instr := if ok then accept i else .error .reservedField

/-- Major 0x01 (R88). -/
def decAlu (x : RF) : Except DecodeError Instr :=
  match x.f6.toNat with
  | 0 => accept (.add ⟨bit x.gn, x.gp.toFin⟩ x.d.toFin x.a.toFin x.b.toFin)
  | 1 => accept (.sub ⟨bit x.gn, x.gp.toFin⟩ x.d.toFin x.a.toFin x.b.toFin)
  | 2 => accept (.and ⟨bit x.gn, x.gp.toFin⟩ x.d.toFin x.a.toFin x.b.toFin)
  | 3 => accept (.or ⟨bit x.gn, x.gp.toFin⟩ x.d.toFin x.a.toFin x.b.toFin)
  | 4 => accept (.xor ⟨bit x.gn, x.gp.toFin⟩ x.d.toFin x.a.toFin x.b.toFin)
  | 5 => accept (.andn ⟨bit x.gn, x.gp.toFin⟩ x.d.toFin x.a.toFin x.b.toFin)
  | 6 => accept (.sll ⟨bit x.gn, x.gp.toFin⟩ x.d.toFin x.a.toFin x.b.toFin)
  | 7 => accept (.srl ⟨bit x.gn, x.gp.toFin⟩ x.d.toFin x.a.toFin x.b.toFin)
  | 8 => accept (.sra ⟨bit x.gn, x.gp.toFin⟩ x.d.toFin x.a.toFin x.b.toFin)
  | 9 => accept (.min ⟨bit x.gn, x.gp.toFin⟩ x.d.toFin x.a.toFin x.b.toFin)
  | 10 => accept (.max ⟨bit x.gn, x.gp.toFin⟩ x.d.toFin x.a.toFin x.b.toFin)
  | 11 => accept (.minu ⟨bit x.gn, x.gp.toFin⟩ x.d.toFin x.a.toFin x.b.toFin)
  | 12 => accept (.maxu ⟨bit x.gn, x.gp.toFin⟩ x.d.toFin x.a.toFin x.b.toFin)
  | _ => .error .unassignedFunction

/-- Major 0x02 (R88). -/
def decMul (x : RF) : Except DecodeError Instr :=
  match x.f6.toNat with
  | 0 => accept (.mul ⟨bit x.gn, x.gp.toFin⟩ x.d.toFin x.a.toFin x.b.toFin)
  | 1 => accept (.mulh ⟨bit x.gn, x.gp.toFin⟩ x.d.toFin x.a.toFin x.b.toFin)
  | 2 => accept (.mulhu ⟨bit x.gn, x.gp.toFin⟩ x.d.toFin x.a.toFin x.b.toFin)
  | 3 => accept (.div ⟨bit x.gn, x.gp.toFin⟩ x.d.toFin x.a.toFin x.b.toFin)
  | 4 => accept (.divu ⟨bit x.gn, x.gp.toFin⟩ x.d.toFin x.a.toFin x.b.toFin)
  | 5 => accept (.rem ⟨bit x.gn, x.gp.toFin⟩ x.d.toFin x.a.toFin x.b.toFin)
  | 6 => accept (.remu ⟨bit x.gn, x.gp.toFin⟩ x.d.toFin x.a.toFin x.b.toFin)
  | _ => .error .unassignedFunction

/-- Major 0x03 (R88). -/
def decBit (x : RF) : Except DecodeError Instr :=
  match x.f6.toNat with
  | 0 => acceptIf (x.b == 0) (.clz ⟨bit x.gn, x.gp.toFin⟩ x.d.toFin x.a.toFin)
  | 1 => acceptIf (x.b == 0) (.ctz ⟨bit x.gn, x.gp.toFin⟩ x.d.toFin x.a.toFin)
  | 2 => acceptIf (x.b == 0) (.popc ⟨bit x.gn, x.gp.toFin⟩ x.d.toFin x.a.toFin)
  | 3 => acceptIf (x.b == 0) (.brev ⟨bit x.gn, x.gp.toFin⟩ x.d.toFin x.a.toFin)
  | 4 => acceptIf (x.b == 0) (.bswap ⟨bit x.gn, x.gp.toFin⟩ x.d.toFin x.a.toFin)
  | 5 => accept (.bext ⟨bit x.gn, x.gp.toFin⟩ x.d.toFin x.a.toFin x.b.toFin)
  | 6 => accept (.bins ⟨bit x.gn, x.gp.toFin⟩ x.d.toFin x.a.toFin x.b.toFin)
  | 7 => acceptIf (x.b == 0) (.sext8 ⟨bit x.gn, x.gp.toFin⟩ x.d.toFin x.a.toFin)
  | 8 => acceptIf (x.b == 0) (.sext16 ⟨bit x.gn, x.gp.toFin⟩ x.d.toFin x.a.toFin)
  | 9 => acceptIf (x.b == 0) (.sext32 ⟨bit x.gn, x.gp.toFin⟩ x.d.toFin x.a.toFin)
  | _ => .error .unassignedFunction

/-- Major 0x04 (R88). -/
def decCmp (x : RF) : Except DecodeError Instr :=
  match x.f6.toNat with
  | 0 => acceptIf (hi2 x.d == 0) (.cmpeq ⟨bit x.gn, x.gp.toFin⟩ (lo3 x.d) x.a.toFin x.b.toFin)
  | 1 => acceptIf (hi2 x.d == 0) (.cmpne ⟨bit x.gn, x.gp.toFin⟩ (lo3 x.d) x.a.toFin x.b.toFin)
  | 2 => acceptIf (hi2 x.d == 0) (.cmplt ⟨bit x.gn, x.gp.toFin⟩ (lo3 x.d) x.a.toFin x.b.toFin)
  | 3 => acceptIf (hi2 x.d == 0) (.cmpge ⟨bit x.gn, x.gp.toFin⟩ (lo3 x.d) x.a.toFin x.b.toFin)
  | 4 => acceptIf (hi2 x.d == 0) (.cmpltu ⟨bit x.gn, x.gp.toFin⟩ (lo3 x.d) x.a.toFin x.b.toFin)
  | 5 => acceptIf (hi2 x.d == 0) (.cmpgeu ⟨bit x.gn, x.gp.toFin⟩ (lo3 x.d) x.a.toFin x.b.toFin)
  | _ => .error .unassignedFunction

/-- Major 0x05 (R88). -/
def decPred (x : RF) : Except DecodeError Instr :=
  match x.f6.toNat with
  | 0 => acceptIf (hi2 x.b == 0 && hi2 x.a == 0 && hi2 x.d == 0) (.pand ⟨bit x.gn, x.gp.toFin⟩ (lo3 x.d) (lo3 x.a) (lo3 x.b))
  | 1 => acceptIf (hi2 x.b == 0 && hi2 x.a == 0 && hi2 x.d == 0) (.por ⟨bit x.gn, x.gp.toFin⟩ (lo3 x.d) (lo3 x.a) (lo3 x.b))
  | 2 => acceptIf (hi2 x.b == 0 && hi2 x.a == 0 && hi2 x.d == 0) (.pxor ⟨bit x.gn, x.gp.toFin⟩ (lo3 x.d) (lo3 x.a) (lo3 x.b))
  | 3 => acceptIf (hi2 x.b == 0 && hi2 x.a == 0 && hi2 x.d == 0) (.pandn ⟨bit x.gn, x.gp.toFin⟩ (lo3 x.d) (lo3 x.a) (lo3 x.b))
  | 4 => acceptIf (x.b == 0 && hi2 x.a == 0 && hi2 x.d == 0) (.pnot ⟨bit x.gn, x.gp.toFin⟩ (lo3 x.d) (lo3 x.a))
  | _ => .error .unassignedFunction

/-- Major 0x1F (R93); CLEAVE keeps its index in bits [18:7]. -/
def decCtl (x : RF) : Except DecodeError Instr :=
  match x.f6.toNat with
  | 0 => acceptIf (x.b == 0 && x.d == 0) (.jr ⟨bit x.gn, x.gp.toFin⟩ x.a.toFin)
  | 1 => acceptIf (x.b == 0 && x.a == 0 && x.d == 0) (.ret ⟨bit x.gn, x.gp.toFin⟩)
  | 2 => acceptIf (x.gn == 0 && x.gp == 0 && x.b == 0 && x.a == 0 && x.d == 0) (.halt)
  | 3 => acceptIf (x.b == 0 && x.a == 0 && x.d == 0) (.yield ⟨bit x.gn, x.gp.toFin⟩)
  | 4 => acceptIf (x.b == 0 && x.a == 0 && x.d == 0) (.nop ⟨bit x.gn, x.gp.toFin⟩)
  | 5 => acceptIf (x.gn == 0 && x.gp == 0 && x.b.extractLsb' 2 3 == 0) (.cleave (x.b.extractLsb' 0 2 ++ x.a ++ x.d))
  | _ => .error .unassignedFunction

/-- Major 0x39 (R103). -/
def decPar (x : RF) : Except DecodeError Instr :=
  match x.f6.toNat with
  | 0 => acceptIf (x.gn == 0 && x.gp == 0 && x.b == 0 && x.a == 0 && x.d == 0) (.bar)
  | 1 => acceptIf (x.gn == 0 && x.gp == 0 && x.b == 0 && x.a == 0) (.bararv x.d.toFin)
  | 2 => acceptIf (x.gn == 0 && x.gp == 0 && x.b == 0 && x.d == 0) (.barwt x.a.toFin)
  | 3 => acceptIf (x.gn == 0 && x.gp == 0 && x.b == 0 && x.d == 0) (.stag x.a.toFin)
  | 4 => acceptIf (x.gn == 0 && x.gp == 0 && x.b == 0) (.domq x.d.toFin x.a.toFin)
  | 5 => acceptIf (x.gn == 0 && x.gp == 0 && x.b == 0 && x.d == 0) (.sleep x.a.toFin)
  | 6 => acceptIf (x.gn == 0 && x.gp == 0 && x.b == 0 && x.d == 0) (.wake x.a.toFin)
  | _ => .error .unassignedFunction

/-- Major 0x10 (R90). -/
def decK (x : KF) : Except DecodeError Instr :=
  match x.f7.toNat with
  | 0 => acceptIf (x.a == 0) (.kld x.d.toFin x.k)
  | 1 => acceptIf (x.a == 0) (.klds x.d.toFin x.k)
  | 2 => accept (.kadd x.d.toFin x.a.toFin x.k)
  | 3 => accept (.ksub x.d.toFin x.a.toFin x.k)
  | 4 => accept (.kmul x.d.toFin x.a.toFin x.k)
  | 5 => accept (.kand x.d.toFin x.a.toFin x.k)
  | 6 => accept (.kor x.d.toFin x.a.toFin x.k)
  | 7 => acceptIf (x.a == 0) (.kldd x.d.toFin x.k)
  | _ => .error .unassignedFunction

/-- Major 0x20 (R94). -/
def decVInt (x : VF) : Except DecodeError Instr :=
  match x.f5.toNat with
  | 0 => accept (.vadd x.esz x.mask.toFin x.vd.toFin x.va.toFin x.vb.toFin)
  | 1 => accept (.vsub x.esz x.mask.toFin x.vd.toFin x.va.toFin x.vb.toFin)
  | 2 => accept (.vmullo x.esz x.mask.toFin x.vd.toFin x.va.toFin x.vb.toFin)
  | 3 => accept (.vmulhi x.esz x.mask.toFin x.vd.toFin x.va.toFin x.vb.toFin)
  | 4 => accept (.vmulhiu x.esz x.mask.toFin x.vd.toFin x.va.toFin x.vb.toFin)
  | 5 => accept (.vand x.esz x.mask.toFin x.vd.toFin x.va.toFin x.vb.toFin)
  | 6 => accept (.vor x.esz x.mask.toFin x.vd.toFin x.va.toFin x.vb.toFin)
  | 7 => accept (.vxor x.esz x.mask.toFin x.vd.toFin x.va.toFin x.vb.toFin)
  | 8 => accept (.vandn x.esz x.mask.toFin x.vd.toFin x.va.toFin x.vb.toFin)
  | 9 => accept (.vmax x.esz x.mask.toFin x.vd.toFin x.va.toFin x.vb.toFin)
  | 10 => accept (.vmin x.esz x.mask.toFin x.vd.toFin x.va.toFin x.vb.toFin)
  | 11 => accept (.vmaxu x.esz x.mask.toFin x.vd.toFin x.va.toFin x.vb.toFin)
  | 12 => accept (.vminu x.esz x.mask.toFin x.vd.toFin x.va.toFin x.vb.toFin)
  | 13 => accept (.vshl x.esz x.mask.toFin x.vd.toFin x.va.toFin x.vb.toFin)
  | 14 => accept (.vshr x.esz x.mask.toFin x.vd.toFin x.va.toFin x.vb.toFin)
  | 15 => accept (.vsra x.esz x.mask.toFin x.vd.toFin x.va.toFin x.vb.toFin)
  | 16 => accept (.vadds x.esz x.mask.toFin x.vd.toFin x.va.toFin x.vb.toFin)
  | 17 => accept (.vaddsu x.esz x.mask.toFin x.vd.toFin x.va.toFin x.vb.toFin)
  | 18 => accept (.vsubs x.esz x.mask.toFin x.vd.toFin x.va.toFin x.vb.toFin)
  | 19 => accept (.vsubsu x.esz x.mask.toFin x.vd.toFin x.va.toFin x.vb.toFin)
  | 20 => acceptIf (x.vb == 0) (.vabs x.esz x.mask.toFin x.vd.toFin x.va.toFin)
  | 21 => acceptIf (x.vb == 0) (.vneg x.esz x.mask.toFin x.vd.toFin x.va.toFin)
  | 22 => acceptIf (x.vb == 0) (.vmov x.esz x.mask.toFin x.vd.toFin x.va.toFin)
  | 23 => acceptIf (x.vb == 0) (.vbcast x.esz x.mask.toFin x.vd.toFin x.va.toFin)
  | _ => .error .unassignedFunction

/-- Major 0x21 (R94). -/
def decVFloat (x : VF) : Except DecodeError Instr :=
  match x.f5.toNat with
  | 0 => accept (.vfadd x.esz x.mask.toFin x.vd.toFin x.va.toFin x.vb.toFin)
  | 1 => accept (.vfsub x.esz x.mask.toFin x.vd.toFin x.va.toFin x.vb.toFin)
  | 2 => accept (.vfmul x.esz x.mask.toFin x.vd.toFin x.va.toFin x.vb.toFin)
  | 3 => accept (.vfdiv x.esz x.mask.toFin x.vd.toFin x.va.toFin x.vb.toFin)
  | 4 => accept (.vfmax x.esz x.mask.toFin x.vd.toFin x.va.toFin x.vb.toFin)
  | 5 => accept (.vfmin x.esz x.mask.toFin x.vd.toFin x.va.toFin x.vb.toFin)
  | 6 => acceptIf (x.vb == 0) (.vfabs x.esz x.mask.toFin x.vd.toFin x.va.toFin)
  | 7 => acceptIf (x.vb == 0) (.vfneg x.esz x.mask.toFin x.vd.toFin x.va.toFin)
  | 8 => acceptIf (x.vb == 0) (.vfsqrt x.esz x.mask.toFin x.vd.toFin x.va.toFin)
  | _ => .error .unassignedFunction

/-- Major 0x22 (R94). -/
def decVCmp (x : VF) : Except DecodeError Instr :=
  match x.f5.toNat with
  | 0 => acceptIf (hi2 x.vd == 0) (.vcmpeq x.esz x.mask.toFin (lo3 x.vd) x.va.toFin x.vb.toFin)
  | 1 => acceptIf (hi2 x.vd == 0) (.vcmpne x.esz x.mask.toFin (lo3 x.vd) x.va.toFin x.vb.toFin)
  | 2 => acceptIf (hi2 x.vd == 0) (.vcmplt x.esz x.mask.toFin (lo3 x.vd) x.va.toFin x.vb.toFin)
  | 3 => acceptIf (hi2 x.vd == 0) (.vcmple x.esz x.mask.toFin (lo3 x.vd) x.va.toFin x.vb.toFin)
  | 4 => acceptIf (hi2 x.vd == 0) (.vcmpltu x.esz x.mask.toFin (lo3 x.vd) x.va.toFin x.vb.toFin)
  | 5 => acceptIf (hi2 x.vd == 0) (.vcmpleu x.esz x.mask.toFin (lo3 x.vd) x.va.toFin x.vb.toFin)
  | 8 => acceptIf (hi2 x.vd == 0) (.vfcmpeq x.esz x.mask.toFin (lo3 x.vd) x.va.toFin x.vb.toFin)
  | 9 => acceptIf (hi2 x.vd == 0) (.vfcmplt x.esz x.mask.toFin (lo3 x.vd) x.va.toFin x.vb.toFin)
  | 10 => acceptIf (hi2 x.vd == 0) (.vfcmple x.esz x.mask.toFin (lo3 x.vd) x.va.toFin x.vb.toFin)
  | 11 => acceptIf (hi2 x.vd == 0) (.vfcmpun x.esz x.mask.toFin (lo3 x.vd) x.va.toFin x.vb.toFin)
  | 16 => acceptIf (x.esz == 0 && x.mask == 0 && hi2 x.vb == 0 && hi2 x.va == 0 && hi2 x.vd == 0) (.vmand (lo3 x.vd) (lo3 x.va) (lo3 x.vb))
  | 17 => acceptIf (x.esz == 0 && x.mask == 0 && hi2 x.vb == 0 && hi2 x.va == 0 && hi2 x.vd == 0) (.vmor (lo3 x.vd) (lo3 x.va) (lo3 x.vb))
  | 18 => acceptIf (x.esz == 0 && x.mask == 0 && hi2 x.vb == 0 && hi2 x.va == 0 && hi2 x.vd == 0) (.vmxor (lo3 x.vd) (lo3 x.va) (lo3 x.vb))
  | 19 => acceptIf (x.esz == 0 && x.mask == 0 && x.vb == 0 && hi2 x.va == 0 && hi2 x.vd == 0) (.vmnot (lo3 x.vd) (lo3 x.va))
  | _ => .error .unassignedFunction

/-- Major 0x24 (R94). -/
def decVRed (x : VF) : Except DecodeError Instr :=
  match x.f5.toNat with
  | 0 => acceptIf (x.vb == 0) (.vrsum x.esz x.mask.toFin x.vd.toFin x.va.toFin)
  | 1 => acceptIf (x.vb == 0) (.vrmax x.esz x.mask.toFin x.vd.toFin x.va.toFin)
  | 2 => acceptIf (x.vb == 0) (.vrmin x.esz x.mask.toFin x.vd.toFin x.va.toFin)
  | 3 => acceptIf (x.vb == 0) (.vrmaxu x.esz x.mask.toFin x.vd.toFin x.va.toFin)
  | 4 => acceptIf (x.vb == 0) (.vrminu x.esz x.mask.toFin x.vd.toFin x.va.toFin)
  | 5 => acceptIf (x.vb == 0) (.vrand x.esz x.mask.toFin x.vd.toFin x.va.toFin)
  | 6 => acceptIf (x.vb == 0) (.vror x.esz x.mask.toFin x.vd.toFin x.va.toFin)
  | 7 => acceptIf (x.vb == 0) (.vrxor x.esz x.mask.toFin x.vd.toFin x.va.toFin)
  | 8 => acceptIf (x.vb == 0) (.vfrsum x.esz x.mask.toFin x.vd.toFin x.va.toFin)
  | 9 => acceptIf (x.vb == 0) (.vfrmax x.esz x.mask.toFin x.vd.toFin x.va.toFin)
  | 10 => acceptIf (x.vb == 0) (.vfrmin x.esz x.mask.toFin x.vd.toFin x.va.toFin)
  | 11 => acceptIf (x.vb == 0) (.vfrprod x.esz x.mask.toFin x.vd.toFin x.va.toFin)
  | 16 => acceptIf (x.vb == 0) (.vscan x.esz x.mask.toFin x.vd.toFin x.va.toFin)
  | 17 => acceptIf (x.vb == 0) (.vfscan x.esz x.mask.toFin x.vd.toFin x.va.toFin)
  | _ => .error .unassignedFunction

/-- Major 0x25 (R94). -/
def decVPerm (x : VF) : Except DecodeError Instr :=
  match x.f5.toNat with
  | 0 => accept (.vperm x.esz x.mask.toFin x.vd.toFin x.va.toFin x.vb.toFin)
  | 1 => accept (.vrotl x.esz x.mask.toFin x.vd.toFin x.va.toFin x.vb.toFin)
  | 2 => accept (.vslideup x.esz x.mask.toFin x.vd.toFin x.va.toFin x.vb.toFin)
  | 3 => accept (.vslidedn x.esz x.mask.toFin x.vd.toFin x.va.toFin x.vb.toFin)
  | 4 => accept (.vziplo x.esz x.mask.toFin x.vd.toFin x.va.toFin x.vb.toFin)
  | 5 => accept (.vziphi x.esz x.mask.toFin x.vd.toFin x.va.toFin x.vb.toFin)
  | 6 => accept (.vunzipe x.esz x.mask.toFin x.vd.toFin x.va.toFin x.vb.toFin)
  | 7 => accept (.vunzipo x.esz x.mask.toFin x.vd.toFin x.va.toFin x.vb.toFin)
  | 8 => acceptIf (x.vb == 0) (.vcompress x.esz x.mask.toFin x.vd.toFin x.va.toFin)
  | 9 => acceptIf (x.vb == 0) (.vexpand x.esz x.mask.toFin x.vd.toFin x.va.toFin)
  | _ => .error .unassignedFunction

/-- Major 0x26 (R94). -/
def decVLoad (x : VF) : Except DecodeError Instr :=
  match x.f5.toNat with
  | 0 => accept (.vld x.esz x.mask.toFin x.vd.toFin x.va.toFin x.vb.toFin)
  | 1 => accept (.vlds x.esz x.mask.toFin x.vd.toFin x.va.toFin x.vb.toFin)
  | 2 => accept (.vldsp x.esz x.mask.toFin x.vd.toFin x.va.toFin x.vb.toFin)
  | 3 => accept (.vldsps x.esz x.mask.toFin x.vd.toFin x.va.toFin x.vb.toFin)
  | _ => .error .unassignedFunction

/-- Major 0x27 (R94). -/
def decVStore (x : VF) : Except DecodeError Instr :=
  match x.f5.toNat with
  | 0 => accept (.vst x.esz x.mask.toFin x.vd.toFin x.va.toFin x.vb.toFin)
  | 1 => accept (.vsts x.esz x.mask.toFin x.vd.toFin x.va.toFin x.vb.toFin)
  | 2 => accept (.vstsp x.esz x.mask.toFin x.vd.toFin x.va.toFin x.vb.toFin)
  | 3 => accept (.vstsps x.esz x.mask.toFin x.vd.toFin x.va.toFin x.vb.toFin)
  | _ => .error .unassignedFunction

/-- Major 0x28 (R94). -/
def decVGath (x : VF) : Except DecodeError Instr :=
  match x.f5.toNat with
  | 0 => accept (.vgath x.esz x.mask.toFin x.vd.toFin x.va.toFin x.vb.toFin)
  | 1 => accept (.vscat x.esz x.mask.toFin x.vd.toFin x.va.toFin x.vb.toFin)
  | 2 => accept (.vgathsp x.esz x.mask.toFin x.vd.toFin x.va.toFin x.vb.toFin)
  | 3 => accept (.vscatsp x.esz x.mask.toFin x.vd.toFin x.va.toFin x.vb.toFin)
  | _ => .error .unassignedFunction

/-- Major 0x29 (R94). -/
def decVCb (x : VF) : Except DecodeError Instr :=
  match x.f5.toNat with
  | 0 => acceptIf (hi2 x.va == 0) (.vldc x.esz x.mask.toFin x.vd.toFin (lo3 x.va) x.vb.toFin)
  | 1 => acceptIf (hi2 x.va == 0) (.vstc x.esz x.mask.toFin x.vd.toFin (lo3 x.va) x.vb.toFin)
  | _ => .error .unassignedFunction

/-- Major 0x2A (R94). -/
def decVFma (x : VF) : Except DecodeError Instr :=
  match x.f5.toNat with
  | 0 => accept (.vfma x.esz x.mask.toFin x.vd.toFin x.va.toFin x.vb.toFin)
  | 1 => accept (.vfms x.esz x.mask.toFin x.vd.toFin x.va.toFin x.vb.toFin)
  | 2 => accept (.vfnma x.esz x.mask.toFin x.vd.toFin x.va.toFin x.vb.toFin)
  | 3 => accept (.vfnms x.esz x.mask.toFin x.vd.toFin x.va.toFin x.vb.toFin)
  | 4 => accept (.vmac x.esz x.mask.toFin x.vd.toFin x.va.toFin x.vb.toFin)
  | _ => .error .unassignedFunction

/-- Major 0x2B (R94). -/
def decVSpec (x : VF) : Except DecodeError Instr :=
  match x.f5.toNat with
  | 0 => acceptIf (x.vb == 0) (.vexp2 x.esz x.mask.toFin x.vd.toFin x.va.toFin)
  | 1 => acceptIf (x.vb == 0) (.vlog2 x.esz x.mask.toFin x.vd.toFin x.va.toFin)
  | 2 => acceptIf (x.vb == 0) (.vrcp x.esz x.mask.toFin x.vd.toFin x.va.toFin)
  | 3 => acceptIf (x.vb == 0) (.vrsqrt x.esz x.mask.toFin x.vd.toFin x.va.toFin)
  | 4 => acceptIf (x.vb == 0) (.vsin x.esz x.mask.toFin x.vd.toFin x.va.toFin)
  | 5 => acceptIf (x.vb == 0) (.vtanh x.esz x.mask.toFin x.vd.toFin x.va.toFin)
  | 6 => acceptIf (x.vb == 0) (.vsigm x.esz x.mask.toFin x.vd.toFin x.va.toFin)
  | _ => .error .unassignedFunction

/-- Major 0x2C (R94). -/
def decVLane (x : VF) : Except DecodeError Instr :=
  match x.f5.toNat with
  | 0 => accept (.vext x.esz x.mask.toFin x.vd.toFin x.va.toFin x.vb.toFin)
  | 1 => accept (.vins x.esz x.mask.toFin x.vd.toFin x.va.toFin x.vb.toFin)
  | 2 => accept (.vsplat x.esz x.mask.toFin x.vd.toFin x.va.toFin x.vb.toFin)
  | 3 => acceptIf (x.esz == 0 && x.mask == 0 && x.vb == 0 && hi2 x.va == 0) (.vmtos x.vd.toFin (lo3 x.va))
  | 4 => acceptIf (x.esz == 0 && x.mask == 0 && x.vb == 0 && hi2 x.va == 0) (.vmtosh x.vd.toFin (lo3 x.va))
  | 5 => acceptIf (x.esz == 0 && x.mask == 0 && hi2 x.vd == 0) (.vstom (lo3 x.vd) x.va.toFin x.vb.toFin)
  | 6 => acceptIf (x.esz == 0 && x.mask == 0 && x.vb == 0 && hi2 x.va == 0) (.mpop x.vd.toFin (lo3 x.va))
  | _ => .error .unassignedFunction

/-- Major 0x30 (R96). -/
def decHandle (x : EF) : Except DecodeError Instr :=
  match x.f5.toNat with
  | 0 => acceptIf (x.x == 0 && x.acc == 0 && x.hb == 0) (.hmov x.hd.toFin x.ha.toFin)
  | 1 => acceptIf (x.acc == 0 && x.hb == 0 && x.ha == 0) (.hld x.hd.toFin x.x.toFin)
  | 2 => acceptIf (x.acc == 0 && x.hb == 0 && x.ha == 0) (.hst x.hd.toFin x.x.toFin)
  | 3 => acceptIf (x.acc == 0 && x.hb == 0 && x.ha == 0) (.hsetb x.hd.toFin x.x.toFin)
  | 4 => acceptIf (x.acc == 0 && x.hb == 0 && x.ha == 0) (.hsetd x.hd.toFin x.x.toFin)
  | 5 => acceptIf (x.acc == 0 && x.hb == 0 && x.ha == 0) (.hsets x.hd.toFin x.x.toFin)
  | 6 => acceptIf (x.acc == 0 && x.hb == 0 && x.ha == 0) (.hsetf x.hd.toFin x.x.toFin)
  | 7 => acceptIf (x.acc == 0 && x.hb == 0 && x.ha == 0) (.hcur x.hd.toFin x.x.toFin)
  | 8 => acceptIf (x.x == 0 && x.acc == 0 && x.hb == 0 && x.ha == 0) (.hnext x.hd.toFin)
  | 9 => acceptIf (x.hb == 0 && x.hd == 0) (.hget x.ha.toFin x.acc x.x.toFin)
  | 10 => acceptIf (x.acc == 0 && x.hb == 0 && x.hd == 0) (.htaddr x.ha.toFin x.x.toFin)
  | _ => .error .unassignedFunction

/-- Major 0x34 (R96). -/
def decMxe (x : EF) : Except DecodeError Instr :=
  match x.f5.toNat with
  | 0 => accept (.mxmul x.hd.toFin x.ha.toFin x.hb.toFin x.acc.toFin x.x.toFin)
  | 1 => accept (.mxgmul x.hd.toFin x.ha.toFin x.hb.toFin x.acc.toFin x.x.toFin)
  | 2 => accept (.mxrank x.hd.toFin x.ha.toFin x.hb.toFin x.acc.toFin x.x.toFin)
  | 3 => acceptIf (x.hb == 0 && x.ha == 0) (.mxload x.hd.toFin x.acc.toFin x.x.toFin)
  | 4 => acceptIf (x.hb == 0 && x.ha == 0) (.mxstore x.hd.toFin x.acc.toFin x.x.toFin)
  | 5 => acceptIf (x.hb == 0 && x.ha == 0 && x.hd == 0) (.mxzero x.acc.toFin x.x.toFin)
  | 6 => acceptIf (x.acc == 0 && x.hb == 0 && x.ha == 0 && x.hd == 0) (.mxwait x.x.toFin)
  | 7 => acceptIf (x.acc == 0 && x.hb == 0 && x.ha == 0 && hi1 x.hd == 0) (.mxpoll (lo3b x.hd) x.x.toFin)
  | 8 => acceptIf (x.acc == 0 && x.hb == 0 && x.ha == 0 && x.hd == 0) (.mxwgt x.x.toFin)
  | _ => .error .unassignedFunction

/-- Major 0x35 (R96). -/
def decBtu (x : EF) : Except DecodeError Instr :=
  match x.f5.toNat with
  | 0 => acceptIf (x.acc == 0 && x.hb == 0) (.cpy x.hd.toFin x.ha.toFin x.x.toFin)
  | 1 => acceptIf (x.acc == 0) (.cpyg x.hd.toFin x.ha.toFin x.hb.toFin x.x.toFin)
  | 2 => acceptIf (x.acc == 0 && x.hb == 0 && x.ha == 0) (.cpyf x.hd.toFin x.x.toFin)
  | 4 => acceptIf (x.acc == 0 && x.hb == 0 && x.ha == 0 && hi1 x.hd == 0) (.cpyp (lo3b x.hd) x.x.toFin)
  | 3 =>
    if x.acc != 0 then .error .reservedField
    else if x.hb == 0 then acceptIf (hi1 x.hd == 0) (.cpywFill (lo3b x.hd) x.ha.toFin x.x.toFin)
    else if x.hb == 1 then acceptIf (hi1 x.ha == 0) (.cpywDrain x.hd.toFin (lo3b x.ha) x.x.toFin)
    else .error .illFormed
  | _ => .error .unassignedFunction

/-- Major 0x36 (R96). -/
def decRsu (x : EF) : Except DecodeError Instr :=
  match x.f5.toNat with
  | 0 => acceptIf (x.acc == 0 && x.hb == 0) (.rksort x.hd.toFin x.ha.toFin x.x.toFin)
  | 1 => acceptIf (x.acc == 0 && x.hb == 0) (.rktopk x.hd.toFin x.ha.toFin x.x.toFin)
  | 2 => acceptIf (x.acc == 0 && x.hb == 0 && x.hd == 0) (.rktab x.ha.toFin x.x.toFin)
  | 3 => acceptIf (x.acc == 0 && x.hb == 0) (.rkval x.hd.toFin x.ha.toFin x.x.toFin)
  | 4 => acceptIf (x.acc == 0 && x.hb == 0 && x.ha == 0 && x.hd == 0) (.rkwait x.x.toFin)
  | _ => .error .unassignedFunction

/-- Major 0x37 (R96). -/
def decCle (x : EF) : Except DecodeError Instr :=
  match x.f5.toNat with
  | 0 => acceptIf (x.hb == 0) (.colred x.hd.toFin x.ha.toFin x.acc x.x.toFin)
  | 1 => acceptIf (x.acc == 0 && x.hb == 0) (.colbc x.hd.toFin x.ha.toFin x.x.toFin)
  | 2 => acceptIf (x.acc == 0 && x.hb == 0 && x.ha == 0 && x.hd == 0) (.colwait x.x.toFin)
  | _ => .error .unassignedFunction

/-- Major 0x38 (R100, R101). -/
def decFence (x : SF) : Except DecodeError Instr :=
  match x.f3.toNat with
  | 2 => acceptIf (x.sidx == 0 && x.a == 0 && x.d == 0) (.ifence)
  | 3 => acceptIf (x.sidx == 0 && x.a == 0 && x.d == 0) (.quant)
  | 0 => acceptIf (x.a == 0 && x.d == 0 && x.sidx.extractLsb' 0 8 == 0) (.fence (x.sidx.extractLsb' 10 2) (x.sidx.extractLsb' 8 2))
  | 1 => acceptIf (x.a == 0 && x.d == 0 && x.sidx.extractLsb' 10 2 == 0) (.xfence (x.sidx.extractLsb' 8 2) (x.sidx.extractLsb' 0 8))
  | _ => .error .unassignedFunction

/-- Major 0x3B (R100, R102). -/
def decPool (x : SF) : Except DecodeError Instr :=
  match x.f3.toNat with
  | 3 => acceptIf (x.sidx == 0 && x.a == 0) (.vrquery x.d.toFin)
  | 0 => acceptIf (x.a == 0 && x.d == 0 && x.sidx.extractLsb' 7 5 == 0) (.vrtake (x.sidx.extractLsb' 0 7))
  | 1 => acceptIf (hi2 x.d == 0 && x.sidx.extractLsb' 7 5 == 0) (.vrtaket (lo3 x.d) x.a.toFin (x.sidx.extractLsb' 0 7))
  | 2 => acceptIf (x.a == 0 && x.d == 0 && x.sidx.extractLsb' 7 5 == 0) (.vrgive (x.sidx.extractLsb' 0 7))
  | _ => .error .unassignedFunction

/-- Major 0x3C (R100). -/
def decTx (x : SF) : Except DecodeError Instr :=
  match x.f3.toNat with
  | 1 => acceptIf (x.sidx == 0 && x.a == 0 && x.d == 0) (.txend)
  | 0 => acceptIf (x.a == 0 && x.d.extractLsb' 4 1 == 0 && x.sidx.extractLsb' 4 8 == 0) (.txh (x.d.extractLsb' 0 4).toFin (x.sidx.extractLsb' 0 4))
  | 2 => acceptIf (x.a == 0 && x.sidx.extractLsb' 4 8 == 0) (.txinfo x.d.toFin (x.sidx.extractLsb' 0 4))
  | 3 => acceptIf (x.d == 0 && x.sidx.extractLsb' 5 7 == 0) (.txtouch x.a.toFin (x.sidx.extractLsb' 0 4) (bit (x.sidx.extractLsb' 4 1)))
  | 4 => acceptIf (hi2 x.d == 0 && x.sidx.extractLsb' 5 7 == 0) (.txcheck (lo3 x.d) x.a.toFin (x.sidx.extractLsb' 0 4) (bit (x.sidx.extractLsb' 4 1)))
  | _ => .error .unassignedFunction

/-- Major 0x3D (R100). -/
def decSys (x : SF) : Except DecodeError Instr :=
  match x.f3.toNat with
  | 0 => acceptIf (x.a == 0) (.srr x.d.toFin x.sidx)
  | 1 => acceptIf (x.d == 0) (.srw x.sidx x.a.toFin)
  | 2 => acceptIf (x.sidx == 0 && x.a == 0) (.rng x.d.toFin)
  | 3 => acceptIf (x.sidx == 0) (.rngres x.d.toFin x.a.toFin)
  | 4 => acceptIf (x.sidx == 0 && x.a == 0) (.cyc x.d.toFin)
  | 5 => acceptIf (x.a == 0 && x.d == 0) (.ecall x.sidx)
  | 6 => acceptIf (x.a == 0 && x.d == 0) (.bkpt x.sidx)
  | _ => .error .unassignedFunction

/-- Major 0x3E (R100). -/
def decLaunch (x : SF) : Except DecodeError Instr :=
  match x.f3.toNat with
  | 0 => accept (.lrpatch x.d.toFin x.a.toFin x.sidx)
  | 1 => acceptIf (x.sidx == 0) (.lrarm x.d.toFin x.a.toFin)
  | 2 => acceptIf (x.sidx == 0) (.lrwait x.d.toFin x.a.toFin)
  | 3 => acceptIf (x.sidx == 0) (.lrstat x.d.toFin x.a.toFin)
  | _ => .error .unassignedFunction

/-- Major 0x0C, immediate shifts: the function is imm15[14:13] (R89). -/
def decShift (x : IF) : Except DecodeError Instr :=
  match (x.imm.extractLsb' 13 2).toNat with
  | 0 => acceptIf (x.imm.extractLsb' 6 7 == 0) (.slli x.d.toFin x.a.toFin (x.imm.extractLsb' 0 6))
  | 1 => acceptIf (x.imm.extractLsb' 6 7 == 0) (.srli x.d.toFin x.a.toFin (x.imm.extractLsb' 0 6))
  | 2 => acceptIf (x.imm.extractLsb' 6 7 == 0) (.srai x.d.toFin x.a.toFin (x.imm.extractLsb' 0 6))
  | 3 => acceptIf (x.imm.extractLsb' 6 7 == 0) (.rori x.d.toFin x.a.toFin (x.imm.extractLsb' 0 6))
  | _ => .error .unassignedFunction

/-- Major 0x0E, CMPI: the condition is imm15[14:12] (R89). -/
def decCmpi (x : IF) : Except DecodeError Instr :=
  match (x.imm.extractLsb' 12 3).toNat with
  | 0 => acceptIf (hi2 x.d == 0) (.cmpiEq (lo3 x.d) x.a.toFin (x.imm.extractLsb' 0 12))
  | 1 => acceptIf (hi2 x.d == 0) (.cmpiNe (lo3 x.d) x.a.toFin (x.imm.extractLsb' 0 12))
  | 2 => acceptIf (hi2 x.d == 0) (.cmpiLt (lo3 x.d) x.a.toFin (x.imm.extractLsb' 0 12))
  | 3 => acceptIf (hi2 x.d == 0) (.cmpiGe (lo3 x.d) x.a.toFin (x.imm.extractLsb' 0 12))
  | 4 => acceptIf (hi2 x.d == 0) (.cmpiLtu (lo3 x.d) x.a.toFin (x.imm.extractLsb' 0 12))
  | 5 => acceptIf (hi2 x.d == 0) (.cmpiGeu (lo3 x.d) x.a.toFin (x.imm.extractLsb' 0 12))
  | _ => .error .unassignedFunction

/-- Major 0x3A, circular-buffer waits and advances: the function is imm15[14:12] (R99). -/
def decCbw (x : IF) : Except DecodeError Instr :=
  if !(x.a == 0 && hi2 x.d == 0 && x.imm.extractLsb' 8 4 == 0) then .error .reservedField
  else match (x.imm.extractLsb' 12 3).toNat with
  | 0 => accept (.cbwaitf (lo3 x.d) (x.imm.extractLsb' 0 8))
  | 1 => accept (.cbwaite (lo3 x.d) (x.imm.extractLsb' 0 8))
  | 2 => accept (.cbpop (lo3 x.d) (x.imm.extractLsb' 0 8))
  | 3 => accept (.cbpush (lo3 x.d) (x.imm.extractLsb' 0 8))
  | _ => .error .unassignedFunction

/-- Majors 0x14–0x17, loads, stores and full-empty accesses (R91). -/
def decMem (x : MF) : Except DecodeError Instr :=
  match x.major.toNat with
  | 0x14 => acceptIf (x.ord.extractLsb' 1 1 == 0)
      (.ld x.data.toFin x.base.toFin (bit x.sp) x.size (bit (x.ord.extractLsb' 0 1)) x.off)
  | 0x15 => acceptIf (x.ord.extractLsb' 0 1 == 0)
      (.st x.data.toFin x.base.toFin (bit x.sp) x.size (bit (x.ord.extractLsb' 1 1)) x.off)
  | 0x16 => acceptIf (x.sp == 1)
      (.ldfe x.data.toFin x.base.toFin x.size (bit (x.ord.extractLsb' 0 1)) (bit (x.ord.extractLsb' 1 1)) x.off)
  | 0x17 => acceptIf (x.sp == 1 && x.ord == 0) (.stfe x.data.toFin x.base.toFin x.size x.off)
  | _ => .error .unassignedMajor

/-- Major 0x18, ATOM: off10 holds aop and b (R92). -/
def decAtom (x : MF) : Except DecodeError Instr :=
  let b := (x.off.extractLsb' 0 5).toFin
  let dw := bit (x.size.extractLsb' 0 1)
  if !(x.sp == 0 && x.size.extractLsb' 1 1 == 1) then .error .illFormed
  else match (x.off.extractLsb' 5 5).toNat with
  | 0 => accept (.aadd x.data.toFin x.base.toFin b dw x.ord)
  | 1 => accept (.aand x.data.toFin x.base.toFin b dw x.ord)
  | 2 => accept (.aor x.data.toFin x.base.toFin b dw x.ord)
  | 3 => accept (.axor x.data.toFin x.base.toFin b dw x.ord)
  | 4 => accept (.amin x.data.toFin x.base.toFin b dw x.ord)
  | 5 => accept (.amax x.data.toFin x.base.toFin b dw x.ord)
  | 6 => accept (.aminu x.data.toFin x.base.toFin b dw x.ord)
  | 7 => accept (.amaxu x.data.toFin x.base.toFin b dw x.ord)
  | 8 => accept (.aswap x.data.toFin x.base.toFin b dw x.ord)
  | 9 => accept (.acas x.data.toFin x.base.toFin b dw x.ord)
  | 0x0A => if dw then .error .illFormed else accept (.afadd x.data.toFin x.base.toFin b x.ord)
  | 0x0B => if dw then .error .illFormed else acceptIf (x.data == 0) (.afaddD x.base.toFin b x.ord)
  | 0x0C => if dw then .error .illFormed else acceptIf (x.off.extractLsb' 0 5 == 0) (.accinit x.data.toFin x.base.toFin x.ord)
  | 0x0D => acceptIf (x.off.extractLsb' 0 5 == 0) (.accrd x.data.toFin x.base.toFin dw x.ord)
  | _ => .error .unassignedFunction

/-- A 16-bit instruction: the lane operation its op4 selects, but for the halfword 0x0000 and the names v28 and v29 where
they may not stand (R64, R65, R85). -/
def decode16 (h : BitVec 16) : Except DecodeError Instr :=
  let vd := (h.extractLsb' 5 5).toFin
  let vs := (h.extractLsb' 10 5).toFin
  let w := bit (h.extractLsb' 15 1)
  let ok := fun (i : Instr) => if i.wf then Except.ok i else .error DecodeError.laneForm
  match (h.extractLsb' 1 4).toNat with
  | 0 => ok (.vadd16 w vd vs)
  | 1 => ok (.vsub16 w vd vs)
  | 2 => ok (.vmullo16 w vd vs)
  | 3 => ok (.vand16 w vd vs)
  | 4 => ok (.vor16 w vd vs)
  | 5 => ok (.vxor16 w vd vs)
  | 6 => ok (.vmax16 w vd vs)
  | 7 => ok (.vmin16 w vd vs)
  | 8 => ok (.vshl16 w vd vs)
  | 9 => ok (.vshr16 w vd vs)
  | 10 => ok (.vfadd16 w vd vs)
  | 11 => ok (.vfsub16 w vd vs)
  | 12 => ok (.vfmul16 w vd vs)
  | 13 => ok (.vfmax16 w vd vs)
  | 14 => ok (.vfmin16 w vd vs)
  | _ => ok (.vmov16 w vd vs)

/-- A 32-bit instruction, by its major opcode (R86). -/
def decode32 (w : BitVec 32) : Except DecodeError Instr :=
  match (w.extractLsb' 1 6).toNat with
  | 0x01 => decAlu (RF.unpack w)
  | 0x02 => decMul (RF.unpack w)
  | 0x03 => decBit (RF.unpack w)
  | 0x04 => decCmp (RF.unpack w)
  | 0x05 => decPred (RF.unpack w)
  | 0x08 => let x := IF.unpack w; accept (.addi x.d.toFin x.a.toFin x.imm)
  | 0x09 => let x := IF.unpack w; accept (.andi x.d.toFin x.a.toFin x.imm)
  | 0x0A => let x := IF.unpack w; accept (.ori x.d.toFin x.a.toFin x.imm)
  | 0x0B => let x := IF.unpack w; accept (.xori x.d.toFin x.a.toFin x.imm)
  | 0x0D => let x := IF.unpack w; accept (.ldhi x.d.toFin x.a.toFin x.imm)
  | 0x10 => decK (KF.unpack w)
  | 0x1E => let x := IF.unpack w; acceptIf (x.d == 0) (.loop x.a.toFin x.imm)
  | 0x1F => decCtl (RF.unpack w)
  | 0x20 => decVInt (VF.unpack w)
  | 0x21 => decVFloat (VF.unpack w)
  | 0x22 => decVCmp (VF.unpack w)
  | 0x24 => decVRed (VF.unpack w)
  | 0x25 => decVPerm (VF.unpack w)
  | 0x26 => decVLoad (VF.unpack w)
  | 0x27 => decVStore (VF.unpack w)
  | 0x28 => decVGath (VF.unpack w)
  | 0x29 => decVCb (VF.unpack w)
  | 0x2A => decVFma (VF.unpack w)
  | 0x2B => decVSpec (VF.unpack w)
  | 0x2C => decVLane (VF.unpack w)
  | 0x30 => decHandle (EF.unpack w)
  | 0x34 => decMxe (EF.unpack w)
  | 0x35 => decBtu (EF.unpack w)
  | 0x36 => decRsu (EF.unpack w)
  | 0x37 => decCle (EF.unpack w)
  | 0x38 => decFence (SF.unpack w)
  | 0x39 => decPar (RF.unpack w)
  | 0x3B => decPool (SF.unpack w)
  | 0x3C => decTx (SF.unpack w)
  | 0x3D => decSys (SF.unpack w)
  | 0x3E => decLaunch (SF.unpack w)
  | 0x1C => let x := BF.unpack w; accept (.br (bit x.neg) x.pred.toFin x.off)
  | 0x1D => let x := BF.unpack w; accept (.call (bit x.neg) x.pred.toFin x.off)
  | 0x23 => let x := VF.unpack w; accept (.vcvt x.f5 x.vb x.esz x.mask.toFin x.vd.toFin x.va.toFin)
  | 0x0C => decShift (IF.unpack w)
  | 0x0E => decCmpi (IF.unpack w)
  | 0x3A => decCbw (IF.unpack w)
  | 0x14 => decMem (MF.unpack w)
  | 0x15 => decMem (MF.unpack w)
  | 0x16 => decMem (MF.unpack w)
  | 0x17 => decMem (MF.unpack w)
  | 0x18 => decAtom (MF.unpack w)
  | _ => .error .unassignedMajor

/-- The words of an instruction: one halfword or two (R62). -/
inductive Enc where
  | h16 (h : BitVec 16)
  | w32 (w : BitVec 32)
  deriving DecidableEq, Repr

/-- Decode an instruction of either length. -/
def decodeEnc : Enc → Except DecodeError Instr
  | .h16 h => decode16 h
  | .w32 w => decode32 w

/-- The halfwords of an instruction, lower address first (R62). -/
def Enc.halves : Enc → List (BitVec 16)
  | .h16 h => [h]
  | .w32 w => [w.extractLsb' 0 16, w.extractLsb' 16 16]

/-- Length in bytes (R62). -/
def Enc.len : Enc → Nat
  | .h16 _ => 2
  | .w32 _ => 4

/-- The instruction at the head of a list of halfwords, with its length: bit 0 of the first decides (R62). -/
def takeEnc : List (BitVec 16) → Option Enc
  | [] => none
  | h :: rest =>
    if h.getLsbD 0 then
      match rest with
      | [] => none
      | g :: _ => some (.w32 (g ++ h))
    else some (.h16 h)

/-- Decode the instruction at the head of a list of halfwords. -/
def decodeHalves (hs : List (BitVec 16)) : Except DecodeError Instr :=
  match takeEnc hs with
  | none => .error .short
  | some e => decodeEnc e

/-- The words of an instruction; an event has none. -/
def encode : Instr → Option Enc
  | .add g d a b => some (.w32 (RF.pack ⟨1#6, 0#6, (ofBit g.neg), (BitVec.ofFin g.pred), (BitVec.ofFin b), (BitVec.ofFin a), (BitVec.ofFin d)⟩))
  | .sub g d a b => some (.w32 (RF.pack ⟨1#6, 1#6, (ofBit g.neg), (BitVec.ofFin g.pred), (BitVec.ofFin b), (BitVec.ofFin a), (BitVec.ofFin d)⟩))
  | .and g d a b => some (.w32 (RF.pack ⟨1#6, 2#6, (ofBit g.neg), (BitVec.ofFin g.pred), (BitVec.ofFin b), (BitVec.ofFin a), (BitVec.ofFin d)⟩))
  | .or g d a b => some (.w32 (RF.pack ⟨1#6, 3#6, (ofBit g.neg), (BitVec.ofFin g.pred), (BitVec.ofFin b), (BitVec.ofFin a), (BitVec.ofFin d)⟩))
  | .xor g d a b => some (.w32 (RF.pack ⟨1#6, 4#6, (ofBit g.neg), (BitVec.ofFin g.pred), (BitVec.ofFin b), (BitVec.ofFin a), (BitVec.ofFin d)⟩))
  | .andn g d a b => some (.w32 (RF.pack ⟨1#6, 5#6, (ofBit g.neg), (BitVec.ofFin g.pred), (BitVec.ofFin b), (BitVec.ofFin a), (BitVec.ofFin d)⟩))
  | .sll g d a b => some (.w32 (RF.pack ⟨1#6, 6#6, (ofBit g.neg), (BitVec.ofFin g.pred), (BitVec.ofFin b), (BitVec.ofFin a), (BitVec.ofFin d)⟩))
  | .srl g d a b => some (.w32 (RF.pack ⟨1#6, 7#6, (ofBit g.neg), (BitVec.ofFin g.pred), (BitVec.ofFin b), (BitVec.ofFin a), (BitVec.ofFin d)⟩))
  | .sra g d a b => some (.w32 (RF.pack ⟨1#6, 8#6, (ofBit g.neg), (BitVec.ofFin g.pred), (BitVec.ofFin b), (BitVec.ofFin a), (BitVec.ofFin d)⟩))
  | .min g d a b => some (.w32 (RF.pack ⟨1#6, 9#6, (ofBit g.neg), (BitVec.ofFin g.pred), (BitVec.ofFin b), (BitVec.ofFin a), (BitVec.ofFin d)⟩))
  | .max g d a b => some (.w32 (RF.pack ⟨1#6, 10#6, (ofBit g.neg), (BitVec.ofFin g.pred), (BitVec.ofFin b), (BitVec.ofFin a), (BitVec.ofFin d)⟩))
  | .minu g d a b => some (.w32 (RF.pack ⟨1#6, 11#6, (ofBit g.neg), (BitVec.ofFin g.pred), (BitVec.ofFin b), (BitVec.ofFin a), (BitVec.ofFin d)⟩))
  | .maxu g d a b => some (.w32 (RF.pack ⟨1#6, 12#6, (ofBit g.neg), (BitVec.ofFin g.pred), (BitVec.ofFin b), (BitVec.ofFin a), (BitVec.ofFin d)⟩))
  | .mul g d a b => some (.w32 (RF.pack ⟨2#6, 0#6, (ofBit g.neg), (BitVec.ofFin g.pred), (BitVec.ofFin b), (BitVec.ofFin a), (BitVec.ofFin d)⟩))
  | .mulh g d a b => some (.w32 (RF.pack ⟨2#6, 1#6, (ofBit g.neg), (BitVec.ofFin g.pred), (BitVec.ofFin b), (BitVec.ofFin a), (BitVec.ofFin d)⟩))
  | .mulhu g d a b => some (.w32 (RF.pack ⟨2#6, 2#6, (ofBit g.neg), (BitVec.ofFin g.pred), (BitVec.ofFin b), (BitVec.ofFin a), (BitVec.ofFin d)⟩))
  | .div g d a b => some (.w32 (RF.pack ⟨2#6, 3#6, (ofBit g.neg), (BitVec.ofFin g.pred), (BitVec.ofFin b), (BitVec.ofFin a), (BitVec.ofFin d)⟩))
  | .divu g d a b => some (.w32 (RF.pack ⟨2#6, 4#6, (ofBit g.neg), (BitVec.ofFin g.pred), (BitVec.ofFin b), (BitVec.ofFin a), (BitVec.ofFin d)⟩))
  | .rem g d a b => some (.w32 (RF.pack ⟨2#6, 5#6, (ofBit g.neg), (BitVec.ofFin g.pred), (BitVec.ofFin b), (BitVec.ofFin a), (BitVec.ofFin d)⟩))
  | .remu g d a b => some (.w32 (RF.pack ⟨2#6, 6#6, (ofBit g.neg), (BitVec.ofFin g.pred), (BitVec.ofFin b), (BitVec.ofFin a), (BitVec.ofFin d)⟩))
  | .clz g d a => some (.w32 (RF.pack ⟨3#6, 0#6, (ofBit g.neg), (BitVec.ofFin g.pred), 0, (BitVec.ofFin a), (BitVec.ofFin d)⟩))
  | .ctz g d a => some (.w32 (RF.pack ⟨3#6, 1#6, (ofBit g.neg), (BitVec.ofFin g.pred), 0, (BitVec.ofFin a), (BitVec.ofFin d)⟩))
  | .popc g d a => some (.w32 (RF.pack ⟨3#6, 2#6, (ofBit g.neg), (BitVec.ofFin g.pred), 0, (BitVec.ofFin a), (BitVec.ofFin d)⟩))
  | .brev g d a => some (.w32 (RF.pack ⟨3#6, 3#6, (ofBit g.neg), (BitVec.ofFin g.pred), 0, (BitVec.ofFin a), (BitVec.ofFin d)⟩))
  | .bswap g d a => some (.w32 (RF.pack ⟨3#6, 4#6, (ofBit g.neg), (BitVec.ofFin g.pred), 0, (BitVec.ofFin a), (BitVec.ofFin d)⟩))
  | .bext g d a b => some (.w32 (RF.pack ⟨3#6, 5#6, (ofBit g.neg), (BitVec.ofFin g.pred), (BitVec.ofFin b), (BitVec.ofFin a), (BitVec.ofFin d)⟩))
  | .bins g d a b => some (.w32 (RF.pack ⟨3#6, 6#6, (ofBit g.neg), (BitVec.ofFin g.pred), (BitVec.ofFin b), (BitVec.ofFin a), (BitVec.ofFin d)⟩))
  | .sext8 g d a => some (.w32 (RF.pack ⟨3#6, 7#6, (ofBit g.neg), (BitVec.ofFin g.pred), 0, (BitVec.ofFin a), (BitVec.ofFin d)⟩))
  | .sext16 g d a => some (.w32 (RF.pack ⟨3#6, 8#6, (ofBit g.neg), (BitVec.ofFin g.pred), 0, (BitVec.ofFin a), (BitVec.ofFin d)⟩))
  | .sext32 g d a => some (.w32 (RF.pack ⟨3#6, 9#6, (ofBit g.neg), (BitVec.ofFin g.pred), 0, (BitVec.ofFin a), (BitVec.ofFin d)⟩))
  | .cmpeq g d a b => some (.w32 (RF.pack ⟨4#6, 0#6, (ofBit g.neg), (BitVec.ofFin g.pred), (BitVec.ofFin b), (BitVec.ofFin a), (up5 d)⟩))
  | .cmpne g d a b => some (.w32 (RF.pack ⟨4#6, 1#6, (ofBit g.neg), (BitVec.ofFin g.pred), (BitVec.ofFin b), (BitVec.ofFin a), (up5 d)⟩))
  | .cmplt g d a b => some (.w32 (RF.pack ⟨4#6, 2#6, (ofBit g.neg), (BitVec.ofFin g.pred), (BitVec.ofFin b), (BitVec.ofFin a), (up5 d)⟩))
  | .cmpge g d a b => some (.w32 (RF.pack ⟨4#6, 3#6, (ofBit g.neg), (BitVec.ofFin g.pred), (BitVec.ofFin b), (BitVec.ofFin a), (up5 d)⟩))
  | .cmpltu g d a b => some (.w32 (RF.pack ⟨4#6, 4#6, (ofBit g.neg), (BitVec.ofFin g.pred), (BitVec.ofFin b), (BitVec.ofFin a), (up5 d)⟩))
  | .cmpgeu g d a b => some (.w32 (RF.pack ⟨4#6, 5#6, (ofBit g.neg), (BitVec.ofFin g.pred), (BitVec.ofFin b), (BitVec.ofFin a), (up5 d)⟩))
  | .pand g d a b => some (.w32 (RF.pack ⟨5#6, 0#6, (ofBit g.neg), (BitVec.ofFin g.pred), (up5 b), (up5 a), (up5 d)⟩))
  | .por g d a b => some (.w32 (RF.pack ⟨5#6, 1#6, (ofBit g.neg), (BitVec.ofFin g.pred), (up5 b), (up5 a), (up5 d)⟩))
  | .pxor g d a b => some (.w32 (RF.pack ⟨5#6, 2#6, (ofBit g.neg), (BitVec.ofFin g.pred), (up5 b), (up5 a), (up5 d)⟩))
  | .pandn g d a b => some (.w32 (RF.pack ⟨5#6, 3#6, (ofBit g.neg), (BitVec.ofFin g.pred), (up5 b), (up5 a), (up5 d)⟩))
  | .pnot g d a => some (.w32 (RF.pack ⟨5#6, 4#6, (ofBit g.neg), (BitVec.ofFin g.pred), 0, (up5 a), (up5 d)⟩))
  | .addi d a imm => some (.w32 (IF.pack ⟨8#6, imm, (BitVec.ofFin a), (BitVec.ofFin d)⟩))
  | .andi d a imm => some (.w32 (IF.pack ⟨9#6, imm, (BitVec.ofFin a), (BitVec.ofFin d)⟩))
  | .ori d a imm => some (.w32 (IF.pack ⟨10#6, imm, (BitVec.ofFin a), (BitVec.ofFin d)⟩))
  | .xori d a imm => some (.w32 (IF.pack ⟨11#6, imm, (BitVec.ofFin a), (BitVec.ofFin d)⟩))
  | .slli d a sh => some (.w32 (IF.pack ⟨12#6, ((0#2 ++ 0#7 ++ sh)), (BitVec.ofFin a), (BitVec.ofFin d)⟩))
  | .srli d a sh => some (.w32 (IF.pack ⟨12#6, ((1#2 ++ 0#7 ++ sh)), (BitVec.ofFin a), (BitVec.ofFin d)⟩))
  | .srai d a sh => some (.w32 (IF.pack ⟨12#6, ((2#2 ++ 0#7 ++ sh)), (BitVec.ofFin a), (BitVec.ofFin d)⟩))
  | .rori d a sh => some (.w32 (IF.pack ⟨12#6, ((3#2 ++ 0#7 ++ sh)), (BitVec.ofFin a), (BitVec.ofFin d)⟩))
  | .ldhi d a imm => some (.w32 (IF.pack ⟨13#6, imm, (BitVec.ofFin a), (BitVec.ofFin d)⟩))
  | .cmpiEq d a imm => some (.w32 (IF.pack ⟨14#6, ((0#3 ++ imm)), (BitVec.ofFin a), (up5 d)⟩))
  | .cmpiNe d a imm => some (.w32 (IF.pack ⟨14#6, ((1#3 ++ imm)), (BitVec.ofFin a), (up5 d)⟩))
  | .cmpiLt d a imm => some (.w32 (IF.pack ⟨14#6, ((2#3 ++ imm)), (BitVec.ofFin a), (up5 d)⟩))
  | .cmpiGe d a imm => some (.w32 (IF.pack ⟨14#6, ((3#3 ++ imm)), (BitVec.ofFin a), (up5 d)⟩))
  | .cmpiLtu d a imm => some (.w32 (IF.pack ⟨14#6, ((4#3 ++ imm)), (BitVec.ofFin a), (up5 d)⟩))
  | .cmpiGeu d a imm => some (.w32 (IF.pack ⟨14#6, ((5#3 ++ imm)), (BitVec.ofFin a), (up5 d)⟩))
  | .kld d k => some (.w32 (KF.pack ⟨16#6, 0#7, k, 0, (BitVec.ofFin d)⟩))
  | .klds d k => some (.w32 (KF.pack ⟨16#6, 1#7, k, 0, (BitVec.ofFin d)⟩))
  | .kadd d a k => some (.w32 (KF.pack ⟨16#6, 2#7, k, (BitVec.ofFin a), (BitVec.ofFin d)⟩))
  | .ksub d a k => some (.w32 (KF.pack ⟨16#6, 3#7, k, (BitVec.ofFin a), (BitVec.ofFin d)⟩))
  | .kmul d a k => some (.w32 (KF.pack ⟨16#6, 4#7, k, (BitVec.ofFin a), (BitVec.ofFin d)⟩))
  | .kand d a k => some (.w32 (KF.pack ⟨16#6, 5#7, k, (BitVec.ofFin a), (BitVec.ofFin d)⟩))
  | .kor d a k => some (.w32 (KF.pack ⟨16#6, 6#7, k, (BitVec.ofFin a), (BitVec.ofFin d)⟩))
  | .kldd d k => some (.w32 (KF.pack ⟨16#6, 7#7, k, 0, (BitVec.ofFin d)⟩))
  | .ld data base sp size acq off => some (.w32 (MF.pack ⟨20#6, off, (0#1 ++ ofBit acq), size, ofBit sp, BitVec.ofFin base, BitVec.ofFin data⟩))
  | .st data base sp size rel off => some (.w32 (MF.pack ⟨21#6, off, (ofBit rel ++ 0#1), size, ofBit sp, BitVec.ofFin base, BitVec.ofFin data⟩))
  | .ldfe data base size clr mark off => some (.w32 (MF.pack ⟨22#6, off, (ofBit mark ++ ofBit clr), size, 1, BitVec.ofFin base, BitVec.ofFin data⟩))
  | .stfe data base size off => some (.w32 (MF.pack ⟨23#6, off, 0, size, 1, BitVec.ofFin base, BitVec.ofFin data⟩))
  | .aadd data base b dw ord => some (.w32 (MF.pack ⟨24#6, (0#5 ++ (BitVec.ofFin b : BitVec 5)), ord, (1#1 ++ ofBit dw), 0, BitVec.ofFin base, BitVec.ofFin data⟩))
  | .aand data base b dw ord => some (.w32 (MF.pack ⟨24#6, (1#5 ++ (BitVec.ofFin b : BitVec 5)), ord, (1#1 ++ ofBit dw), 0, BitVec.ofFin base, BitVec.ofFin data⟩))
  | .aor data base b dw ord => some (.w32 (MF.pack ⟨24#6, (2#5 ++ (BitVec.ofFin b : BitVec 5)), ord, (1#1 ++ ofBit dw), 0, BitVec.ofFin base, BitVec.ofFin data⟩))
  | .axor data base b dw ord => some (.w32 (MF.pack ⟨24#6, (3#5 ++ (BitVec.ofFin b : BitVec 5)), ord, (1#1 ++ ofBit dw), 0, BitVec.ofFin base, BitVec.ofFin data⟩))
  | .amin data base b dw ord => some (.w32 (MF.pack ⟨24#6, (4#5 ++ (BitVec.ofFin b : BitVec 5)), ord, (1#1 ++ ofBit dw), 0, BitVec.ofFin base, BitVec.ofFin data⟩))
  | .amax data base b dw ord => some (.w32 (MF.pack ⟨24#6, (5#5 ++ (BitVec.ofFin b : BitVec 5)), ord, (1#1 ++ ofBit dw), 0, BitVec.ofFin base, BitVec.ofFin data⟩))
  | .aminu data base b dw ord => some (.w32 (MF.pack ⟨24#6, (6#5 ++ (BitVec.ofFin b : BitVec 5)), ord, (1#1 ++ ofBit dw), 0, BitVec.ofFin base, BitVec.ofFin data⟩))
  | .amaxu data base b dw ord => some (.w32 (MF.pack ⟨24#6, (7#5 ++ (BitVec.ofFin b : BitVec 5)), ord, (1#1 ++ ofBit dw), 0, BitVec.ofFin base, BitVec.ofFin data⟩))
  | .aswap data base b dw ord => some (.w32 (MF.pack ⟨24#6, (8#5 ++ (BitVec.ofFin b : BitVec 5)), ord, (1#1 ++ ofBit dw), 0, BitVec.ofFin base, BitVec.ofFin data⟩))
  | .acas data base b dw ord => some (.w32 (MF.pack ⟨24#6, (9#5 ++ (BitVec.ofFin b : BitVec 5)), ord, (1#1 ++ ofBit dw), 0, BitVec.ofFin base, BitVec.ofFin data⟩))
  | .afadd data base b ord => some (.w32 (MF.pack ⟨24#6, (10#5 ++ (BitVec.ofFin b : BitVec 5)), ord, 2, 0, BitVec.ofFin base, BitVec.ofFin data⟩))
  | .afaddD base b ord => some (.w32 (MF.pack ⟨24#6, (11#5 ++ (BitVec.ofFin b : BitVec 5)), ord, 2, 0, BitVec.ofFin base, 0⟩))
  | .accinit data base ord => some (.w32 (MF.pack ⟨24#6, (12#5 ++ 0#5), ord, 2, 0, BitVec.ofFin base, BitVec.ofFin data⟩))
  | .accrd data base dw ord => some (.w32 (MF.pack ⟨24#6, (13#5 ++ 0#5), ord, (1#1 ++ ofBit dw), 0, BitVec.ofFin base, BitVec.ofFin data⟩))
  | .br neg pred off => some (.w32 (BF.pack ⟨28#6, off, (ofBit neg), (BitVec.ofFin pred)⟩))
  | .call neg pred off => some (.w32 (BF.pack ⟨29#6, off, (ofBit neg), (BitVec.ofFin pred)⟩))
  | .loop a len => some (.w32 (IF.pack ⟨30#6, len, (BitVec.ofFin a), 0⟩))
  | .jr g a => some (.w32 (RF.pack ⟨31#6, 0#6, (ofBit g.neg), (BitVec.ofFin g.pred), 0, (BitVec.ofFin a), 0⟩))
  | .ret g => some (.w32 (RF.pack ⟨31#6, 1#6, (ofBit g.neg), (BitVec.ofFin g.pred), 0, 0, 0⟩))
  | .halt => some (.w32 (RF.pack ⟨31#6, 2#6, 0, 0, 0, 0, 0⟩))
  | .yield g => some (.w32 (RF.pack ⟨31#6, 3#6, (ofBit g.neg), (BitVec.ofFin g.pred), 0, 0, 0⟩))
  | .nop g => some (.w32 (RF.pack ⟨31#6, 4#6, (ofBit g.neg), (BitVec.ofFin g.pred), 0, 0, 0⟩))
  | .cleave idx => some (.w32 (RF.pack ⟨31#6, 5#6, 0, 0, (0#3 ++ idx.extractLsb' 10 2), idx.extractLsb' 5 5, idx.extractLsb' 0 5⟩))
  | .vadd esz mk vd va vb => some (.w32 (VF.pack ⟨32#6, 0#5, esz, (BitVec.ofFin mk), (BitVec.ofFin vb), (BitVec.ofFin va), (BitVec.ofFin vd)⟩))
  | .vsub esz mk vd va vb => some (.w32 (VF.pack ⟨32#6, 1#5, esz, (BitVec.ofFin mk), (BitVec.ofFin vb), (BitVec.ofFin va), (BitVec.ofFin vd)⟩))
  | .vmullo esz mk vd va vb => some (.w32 (VF.pack ⟨32#6, 2#5, esz, (BitVec.ofFin mk), (BitVec.ofFin vb), (BitVec.ofFin va), (BitVec.ofFin vd)⟩))
  | .vmulhi esz mk vd va vb => some (.w32 (VF.pack ⟨32#6, 3#5, esz, (BitVec.ofFin mk), (BitVec.ofFin vb), (BitVec.ofFin va), (BitVec.ofFin vd)⟩))
  | .vmulhiu esz mk vd va vb => some (.w32 (VF.pack ⟨32#6, 4#5, esz, (BitVec.ofFin mk), (BitVec.ofFin vb), (BitVec.ofFin va), (BitVec.ofFin vd)⟩))
  | .vand esz mk vd va vb => some (.w32 (VF.pack ⟨32#6, 5#5, esz, (BitVec.ofFin mk), (BitVec.ofFin vb), (BitVec.ofFin va), (BitVec.ofFin vd)⟩))
  | .vor esz mk vd va vb => some (.w32 (VF.pack ⟨32#6, 6#5, esz, (BitVec.ofFin mk), (BitVec.ofFin vb), (BitVec.ofFin va), (BitVec.ofFin vd)⟩))
  | .vxor esz mk vd va vb => some (.w32 (VF.pack ⟨32#6, 7#5, esz, (BitVec.ofFin mk), (BitVec.ofFin vb), (BitVec.ofFin va), (BitVec.ofFin vd)⟩))
  | .vandn esz mk vd va vb => some (.w32 (VF.pack ⟨32#6, 8#5, esz, (BitVec.ofFin mk), (BitVec.ofFin vb), (BitVec.ofFin va), (BitVec.ofFin vd)⟩))
  | .vmax esz mk vd va vb => some (.w32 (VF.pack ⟨32#6, 9#5, esz, (BitVec.ofFin mk), (BitVec.ofFin vb), (BitVec.ofFin va), (BitVec.ofFin vd)⟩))
  | .vmin esz mk vd va vb => some (.w32 (VF.pack ⟨32#6, 10#5, esz, (BitVec.ofFin mk), (BitVec.ofFin vb), (BitVec.ofFin va), (BitVec.ofFin vd)⟩))
  | .vmaxu esz mk vd va vb => some (.w32 (VF.pack ⟨32#6, 11#5, esz, (BitVec.ofFin mk), (BitVec.ofFin vb), (BitVec.ofFin va), (BitVec.ofFin vd)⟩))
  | .vminu esz mk vd va vb => some (.w32 (VF.pack ⟨32#6, 12#5, esz, (BitVec.ofFin mk), (BitVec.ofFin vb), (BitVec.ofFin va), (BitVec.ofFin vd)⟩))
  | .vshl esz mk vd va vb => some (.w32 (VF.pack ⟨32#6, 13#5, esz, (BitVec.ofFin mk), (BitVec.ofFin vb), (BitVec.ofFin va), (BitVec.ofFin vd)⟩))
  | .vshr esz mk vd va vb => some (.w32 (VF.pack ⟨32#6, 14#5, esz, (BitVec.ofFin mk), (BitVec.ofFin vb), (BitVec.ofFin va), (BitVec.ofFin vd)⟩))
  | .vsra esz mk vd va vb => some (.w32 (VF.pack ⟨32#6, 15#5, esz, (BitVec.ofFin mk), (BitVec.ofFin vb), (BitVec.ofFin va), (BitVec.ofFin vd)⟩))
  | .vadds esz mk vd va vb => some (.w32 (VF.pack ⟨32#6, 16#5, esz, (BitVec.ofFin mk), (BitVec.ofFin vb), (BitVec.ofFin va), (BitVec.ofFin vd)⟩))
  | .vaddsu esz mk vd va vb => some (.w32 (VF.pack ⟨32#6, 17#5, esz, (BitVec.ofFin mk), (BitVec.ofFin vb), (BitVec.ofFin va), (BitVec.ofFin vd)⟩))
  | .vsubs esz mk vd va vb => some (.w32 (VF.pack ⟨32#6, 18#5, esz, (BitVec.ofFin mk), (BitVec.ofFin vb), (BitVec.ofFin va), (BitVec.ofFin vd)⟩))
  | .vsubsu esz mk vd va vb => some (.w32 (VF.pack ⟨32#6, 19#5, esz, (BitVec.ofFin mk), (BitVec.ofFin vb), (BitVec.ofFin va), (BitVec.ofFin vd)⟩))
  | .vabs esz mk vd va => some (.w32 (VF.pack ⟨32#6, 20#5, esz, (BitVec.ofFin mk), 0, (BitVec.ofFin va), (BitVec.ofFin vd)⟩))
  | .vneg esz mk vd va => some (.w32 (VF.pack ⟨32#6, 21#5, esz, (BitVec.ofFin mk), 0, (BitVec.ofFin va), (BitVec.ofFin vd)⟩))
  | .vmov esz mk vd va => some (.w32 (VF.pack ⟨32#6, 22#5, esz, (BitVec.ofFin mk), 0, (BitVec.ofFin va), (BitVec.ofFin vd)⟩))
  | .vbcast esz mk vd a => some (.w32 (VF.pack ⟨32#6, 23#5, esz, (BitVec.ofFin mk), 0, (BitVec.ofFin a), (BitVec.ofFin vd)⟩))
  | .vadd16 w vd vs => some (.h16 (ofBit w ++ (BitVec.ofFin vs : BitVec 5) ++ (BitVec.ofFin vd : BitVec 5) ++ 0#4 ++ 0#1))
  | .vsub16 w vd vs => some (.h16 (ofBit w ++ (BitVec.ofFin vs : BitVec 5) ++ (BitVec.ofFin vd : BitVec 5) ++ 1#4 ++ 0#1))
  | .vmullo16 w vd vs => some (.h16 (ofBit w ++ (BitVec.ofFin vs : BitVec 5) ++ (BitVec.ofFin vd : BitVec 5) ++ 2#4 ++ 0#1))
  | .vand16 w vd vs => some (.h16 (ofBit w ++ (BitVec.ofFin vs : BitVec 5) ++ (BitVec.ofFin vd : BitVec 5) ++ 3#4 ++ 0#1))
  | .vor16 w vd vs => some (.h16 (ofBit w ++ (BitVec.ofFin vs : BitVec 5) ++ (BitVec.ofFin vd : BitVec 5) ++ 4#4 ++ 0#1))
  | .vxor16 w vd vs => some (.h16 (ofBit w ++ (BitVec.ofFin vs : BitVec 5) ++ (BitVec.ofFin vd : BitVec 5) ++ 5#4 ++ 0#1))
  | .vmax16 w vd vs => some (.h16 (ofBit w ++ (BitVec.ofFin vs : BitVec 5) ++ (BitVec.ofFin vd : BitVec 5) ++ 6#4 ++ 0#1))
  | .vmin16 w vd vs => some (.h16 (ofBit w ++ (BitVec.ofFin vs : BitVec 5) ++ (BitVec.ofFin vd : BitVec 5) ++ 7#4 ++ 0#1))
  | .vshl16 w vd vs => some (.h16 (ofBit w ++ (BitVec.ofFin vs : BitVec 5) ++ (BitVec.ofFin vd : BitVec 5) ++ 8#4 ++ 0#1))
  | .vshr16 w vd vs => some (.h16 (ofBit w ++ (BitVec.ofFin vs : BitVec 5) ++ (BitVec.ofFin vd : BitVec 5) ++ 9#4 ++ 0#1))
  | .vfadd16 w vd vs => some (.h16 (ofBit w ++ (BitVec.ofFin vs : BitVec 5) ++ (BitVec.ofFin vd : BitVec 5) ++ 10#4 ++ 0#1))
  | .vfsub16 w vd vs => some (.h16 (ofBit w ++ (BitVec.ofFin vs : BitVec 5) ++ (BitVec.ofFin vd : BitVec 5) ++ 11#4 ++ 0#1))
  | .vfmul16 w vd vs => some (.h16 (ofBit w ++ (BitVec.ofFin vs : BitVec 5) ++ (BitVec.ofFin vd : BitVec 5) ++ 12#4 ++ 0#1))
  | .vfmax16 w vd vs => some (.h16 (ofBit w ++ (BitVec.ofFin vs : BitVec 5) ++ (BitVec.ofFin vd : BitVec 5) ++ 13#4 ++ 0#1))
  | .vfmin16 w vd vs => some (.h16 (ofBit w ++ (BitVec.ofFin vs : BitVec 5) ++ (BitVec.ofFin vd : BitVec 5) ++ 14#4 ++ 0#1))
  | .vmov16 w vd vs => some (.h16 (ofBit w ++ (BitVec.ofFin vs : BitVec 5) ++ (BitVec.ofFin vd : BitVec 5) ++ 15#4 ++ 0#1))
  | .vfadd esz mk vd va vb => some (.w32 (VF.pack ⟨33#6, 0#5, esz, (BitVec.ofFin mk), (BitVec.ofFin vb), (BitVec.ofFin va), (BitVec.ofFin vd)⟩))
  | .vfsub esz mk vd va vb => some (.w32 (VF.pack ⟨33#6, 1#5, esz, (BitVec.ofFin mk), (BitVec.ofFin vb), (BitVec.ofFin va), (BitVec.ofFin vd)⟩))
  | .vfmul esz mk vd va vb => some (.w32 (VF.pack ⟨33#6, 2#5, esz, (BitVec.ofFin mk), (BitVec.ofFin vb), (BitVec.ofFin va), (BitVec.ofFin vd)⟩))
  | .vfdiv esz mk vd va vb => some (.w32 (VF.pack ⟨33#6, 3#5, esz, (BitVec.ofFin mk), (BitVec.ofFin vb), (BitVec.ofFin va), (BitVec.ofFin vd)⟩))
  | .vfmax esz mk vd va vb => some (.w32 (VF.pack ⟨33#6, 4#5, esz, (BitVec.ofFin mk), (BitVec.ofFin vb), (BitVec.ofFin va), (BitVec.ofFin vd)⟩))
  | .vfmin esz mk vd va vb => some (.w32 (VF.pack ⟨33#6, 5#5, esz, (BitVec.ofFin mk), (BitVec.ofFin vb), (BitVec.ofFin va), (BitVec.ofFin vd)⟩))
  | .vfabs esz mk vd va => some (.w32 (VF.pack ⟨33#6, 6#5, esz, (BitVec.ofFin mk), 0, (BitVec.ofFin va), (BitVec.ofFin vd)⟩))
  | .vfneg esz mk vd va => some (.w32 (VF.pack ⟨33#6, 7#5, esz, (BitVec.ofFin mk), 0, (BitVec.ofFin va), (BitVec.ofFin vd)⟩))
  | .vfsqrt esz mk vd va => some (.w32 (VF.pack ⟨33#6, 8#5, esz, (BitVec.ofFin mk), 0, (BitVec.ofFin va), (BitVec.ofFin vd)⟩))
  | .vcmpeq esz mk md va vb => some (.w32 (VF.pack ⟨34#6, 0#5, esz, (BitVec.ofFin mk), (BitVec.ofFin vb), (BitVec.ofFin va), (up5 md)⟩))
  | .vcmpne esz mk md va vb => some (.w32 (VF.pack ⟨34#6, 1#5, esz, (BitVec.ofFin mk), (BitVec.ofFin vb), (BitVec.ofFin va), (up5 md)⟩))
  | .vcmplt esz mk md va vb => some (.w32 (VF.pack ⟨34#6, 2#5, esz, (BitVec.ofFin mk), (BitVec.ofFin vb), (BitVec.ofFin va), (up5 md)⟩))
  | .vcmple esz mk md va vb => some (.w32 (VF.pack ⟨34#6, 3#5, esz, (BitVec.ofFin mk), (BitVec.ofFin vb), (BitVec.ofFin va), (up5 md)⟩))
  | .vcmpltu esz mk md va vb => some (.w32 (VF.pack ⟨34#6, 4#5, esz, (BitVec.ofFin mk), (BitVec.ofFin vb), (BitVec.ofFin va), (up5 md)⟩))
  | .vcmpleu esz mk md va vb => some (.w32 (VF.pack ⟨34#6, 5#5, esz, (BitVec.ofFin mk), (BitVec.ofFin vb), (BitVec.ofFin va), (up5 md)⟩))
  | .vfcmpeq esz mk md va vb => some (.w32 (VF.pack ⟨34#6, 8#5, esz, (BitVec.ofFin mk), (BitVec.ofFin vb), (BitVec.ofFin va), (up5 md)⟩))
  | .vfcmplt esz mk md va vb => some (.w32 (VF.pack ⟨34#6, 9#5, esz, (BitVec.ofFin mk), (BitVec.ofFin vb), (BitVec.ofFin va), (up5 md)⟩))
  | .vfcmple esz mk md va vb => some (.w32 (VF.pack ⟨34#6, 10#5, esz, (BitVec.ofFin mk), (BitVec.ofFin vb), (BitVec.ofFin va), (up5 md)⟩))
  | .vfcmpun esz mk md va vb => some (.w32 (VF.pack ⟨34#6, 11#5, esz, (BitVec.ofFin mk), (BitVec.ofFin vb), (BitVec.ofFin va), (up5 md)⟩))
  | .vmand md ma mb => some (.w32 (VF.pack ⟨34#6, 16#5, 0, 0, (up5 mb), (up5 ma), (up5 md)⟩))
  | .vmor md ma mb => some (.w32 (VF.pack ⟨34#6, 17#5, 0, 0, (up5 mb), (up5 ma), (up5 md)⟩))
  | .vmxor md ma mb => some (.w32 (VF.pack ⟨34#6, 18#5, 0, 0, (up5 mb), (up5 ma), (up5 md)⟩))
  | .vmnot md ma => some (.w32 (VF.pack ⟨34#6, 19#5, 0, 0, 0, (up5 ma), (up5 md)⟩))
  | .vcvt src dst cv mk vd va => some (.w32 (VF.pack ⟨35#6, src, cv, (BitVec.ofFin mk), dst, (BitVec.ofFin va), (BitVec.ofFin vd)⟩))
  | .vrsum esz mk vd va => some (.w32 (VF.pack ⟨36#6, 0#5, esz, (BitVec.ofFin mk), 0, (BitVec.ofFin va), (BitVec.ofFin vd)⟩))
  | .vrmax esz mk vd va => some (.w32 (VF.pack ⟨36#6, 1#5, esz, (BitVec.ofFin mk), 0, (BitVec.ofFin va), (BitVec.ofFin vd)⟩))
  | .vrmin esz mk vd va => some (.w32 (VF.pack ⟨36#6, 2#5, esz, (BitVec.ofFin mk), 0, (BitVec.ofFin va), (BitVec.ofFin vd)⟩))
  | .vrmaxu esz mk vd va => some (.w32 (VF.pack ⟨36#6, 3#5, esz, (BitVec.ofFin mk), 0, (BitVec.ofFin va), (BitVec.ofFin vd)⟩))
  | .vrminu esz mk vd va => some (.w32 (VF.pack ⟨36#6, 4#5, esz, (BitVec.ofFin mk), 0, (BitVec.ofFin va), (BitVec.ofFin vd)⟩))
  | .vrand esz mk vd va => some (.w32 (VF.pack ⟨36#6, 5#5, esz, (BitVec.ofFin mk), 0, (BitVec.ofFin va), (BitVec.ofFin vd)⟩))
  | .vror esz mk vd va => some (.w32 (VF.pack ⟨36#6, 6#5, esz, (BitVec.ofFin mk), 0, (BitVec.ofFin va), (BitVec.ofFin vd)⟩))
  | .vrxor esz mk vd va => some (.w32 (VF.pack ⟨36#6, 7#5, esz, (BitVec.ofFin mk), 0, (BitVec.ofFin va), (BitVec.ofFin vd)⟩))
  | .vfrsum esz mk vd va => some (.w32 (VF.pack ⟨36#6, 8#5, esz, (BitVec.ofFin mk), 0, (BitVec.ofFin va), (BitVec.ofFin vd)⟩))
  | .vfrmax esz mk vd va => some (.w32 (VF.pack ⟨36#6, 9#5, esz, (BitVec.ofFin mk), 0, (BitVec.ofFin va), (BitVec.ofFin vd)⟩))
  | .vfrmin esz mk vd va => some (.w32 (VF.pack ⟨36#6, 10#5, esz, (BitVec.ofFin mk), 0, (BitVec.ofFin va), (BitVec.ofFin vd)⟩))
  | .vfrprod esz mk vd va => some (.w32 (VF.pack ⟨36#6, 11#5, esz, (BitVec.ofFin mk), 0, (BitVec.ofFin va), (BitVec.ofFin vd)⟩))
  | .vscan esz mk vd va => some (.w32 (VF.pack ⟨36#6, 16#5, esz, (BitVec.ofFin mk), 0, (BitVec.ofFin va), (BitVec.ofFin vd)⟩))
  | .vfscan esz mk vd va => some (.w32 (VF.pack ⟨36#6, 17#5, esz, (BitVec.ofFin mk), 0, (BitVec.ofFin va), (BitVec.ofFin vd)⟩))
  | .vperm esz mk vd va vb => some (.w32 (VF.pack ⟨37#6, 0#5, esz, (BitVec.ofFin mk), (BitVec.ofFin vb), (BitVec.ofFin va), (BitVec.ofFin vd)⟩))
  | .vrotl esz mk vd va b => some (.w32 (VF.pack ⟨37#6, 1#5, esz, (BitVec.ofFin mk), (BitVec.ofFin b), (BitVec.ofFin va), (BitVec.ofFin vd)⟩))
  | .vslideup esz mk vd va b => some (.w32 (VF.pack ⟨37#6, 2#5, esz, (BitVec.ofFin mk), (BitVec.ofFin b), (BitVec.ofFin va), (BitVec.ofFin vd)⟩))
  | .vslidedn esz mk vd va b => some (.w32 (VF.pack ⟨37#6, 3#5, esz, (BitVec.ofFin mk), (BitVec.ofFin b), (BitVec.ofFin va), (BitVec.ofFin vd)⟩))
  | .vziplo esz mk vd va vb => some (.w32 (VF.pack ⟨37#6, 4#5, esz, (BitVec.ofFin mk), (BitVec.ofFin vb), (BitVec.ofFin va), (BitVec.ofFin vd)⟩))
  | .vziphi esz mk vd va vb => some (.w32 (VF.pack ⟨37#6, 5#5, esz, (BitVec.ofFin mk), (BitVec.ofFin vb), (BitVec.ofFin va), (BitVec.ofFin vd)⟩))
  | .vunzipe esz mk vd va vb => some (.w32 (VF.pack ⟨37#6, 6#5, esz, (BitVec.ofFin mk), (BitVec.ofFin vb), (BitVec.ofFin va), (BitVec.ofFin vd)⟩))
  | .vunzipo esz mk vd va vb => some (.w32 (VF.pack ⟨37#6, 7#5, esz, (BitVec.ofFin mk), (BitVec.ofFin vb), (BitVec.ofFin va), (BitVec.ofFin vd)⟩))
  | .vcompress esz mk vd va => some (.w32 (VF.pack ⟨37#6, 8#5, esz, (BitVec.ofFin mk), 0, (BitVec.ofFin va), (BitVec.ofFin vd)⟩))
  | .vexpand esz mk vd va => some (.w32 (VF.pack ⟨37#6, 9#5, esz, (BitVec.ofFin mk), 0, (BitVec.ofFin va), (BitVec.ofFin vd)⟩))
  | .vld esz mk vd a b => some (.w32 (VF.pack ⟨38#6, 0#5, esz, (BitVec.ofFin mk), (BitVec.ofFin b), (BitVec.ofFin a), (BitVec.ofFin vd)⟩))
  | .vlds esz mk vd a b => some (.w32 (VF.pack ⟨38#6, 1#5, esz, (BitVec.ofFin mk), (BitVec.ofFin b), (BitVec.ofFin a), (BitVec.ofFin vd)⟩))
  | .vldsp esz mk vd a b => some (.w32 (VF.pack ⟨38#6, 2#5, esz, (BitVec.ofFin mk), (BitVec.ofFin b), (BitVec.ofFin a), (BitVec.ofFin vd)⟩))
  | .vldsps esz mk vd a b => some (.w32 (VF.pack ⟨38#6, 3#5, esz, (BitVec.ofFin mk), (BitVec.ofFin b), (BitVec.ofFin a), (BitVec.ofFin vd)⟩))
  | .vst esz mk vd a b => some (.w32 (VF.pack ⟨39#6, 0#5, esz, (BitVec.ofFin mk), (BitVec.ofFin b), (BitVec.ofFin a), (BitVec.ofFin vd)⟩))
  | .vsts esz mk vd a b => some (.w32 (VF.pack ⟨39#6, 1#5, esz, (BitVec.ofFin mk), (BitVec.ofFin b), (BitVec.ofFin a), (BitVec.ofFin vd)⟩))
  | .vstsp esz mk vd a b => some (.w32 (VF.pack ⟨39#6, 2#5, esz, (BitVec.ofFin mk), (BitVec.ofFin b), (BitVec.ofFin a), (BitVec.ofFin vd)⟩))
  | .vstsps esz mk vd a b => some (.w32 (VF.pack ⟨39#6, 3#5, esz, (BitVec.ofFin mk), (BitVec.ofFin b), (BitVec.ofFin a), (BitVec.ofFin vd)⟩))
  | .vgath esz mk vd a vb => some (.w32 (VF.pack ⟨40#6, 0#5, esz, (BitVec.ofFin mk), (BitVec.ofFin vb), (BitVec.ofFin a), (BitVec.ofFin vd)⟩))
  | .vscat esz mk vd a vb => some (.w32 (VF.pack ⟨40#6, 1#5, esz, (BitVec.ofFin mk), (BitVec.ofFin vb), (BitVec.ofFin a), (BitVec.ofFin vd)⟩))
  | .vgathsp esz mk vd a vb => some (.w32 (VF.pack ⟨40#6, 2#5, esz, (BitVec.ofFin mk), (BitVec.ofFin vb), (BitVec.ofFin a), (BitVec.ofFin vd)⟩))
  | .vscatsp esz mk vd a vb => some (.w32 (VF.pack ⟨40#6, 3#5, esz, (BitVec.ofFin mk), (BitVec.ofFin vb), (BitVec.ofFin a), (BitVec.ofFin vd)⟩))
  | .vldc esz mk vd c b => some (.w32 (VF.pack ⟨41#6, 0#5, esz, (BitVec.ofFin mk), (BitVec.ofFin b), (up5 c), (BitVec.ofFin vd)⟩))
  | .vstc esz mk vd c b => some (.w32 (VF.pack ⟨41#6, 1#5, esz, (BitVec.ofFin mk), (BitVec.ofFin b), (up5 c), (BitVec.ofFin vd)⟩))
  | .vfma esz mk vd va vb => some (.w32 (VF.pack ⟨42#6, 0#5, esz, (BitVec.ofFin mk), (BitVec.ofFin vb), (BitVec.ofFin va), (BitVec.ofFin vd)⟩))
  | .vfms esz mk vd va vb => some (.w32 (VF.pack ⟨42#6, 1#5, esz, (BitVec.ofFin mk), (BitVec.ofFin vb), (BitVec.ofFin va), (BitVec.ofFin vd)⟩))
  | .vfnma esz mk vd va vb => some (.w32 (VF.pack ⟨42#6, 2#5, esz, (BitVec.ofFin mk), (BitVec.ofFin vb), (BitVec.ofFin va), (BitVec.ofFin vd)⟩))
  | .vfnms esz mk vd va vb => some (.w32 (VF.pack ⟨42#6, 3#5, esz, (BitVec.ofFin mk), (BitVec.ofFin vb), (BitVec.ofFin va), (BitVec.ofFin vd)⟩))
  | .vmac esz mk vd va vb => some (.w32 (VF.pack ⟨42#6, 4#5, esz, (BitVec.ofFin mk), (BitVec.ofFin vb), (BitVec.ofFin va), (BitVec.ofFin vd)⟩))
  | .vexp2 esz mk vd va => some (.w32 (VF.pack ⟨43#6, 0#5, esz, (BitVec.ofFin mk), 0, (BitVec.ofFin va), (BitVec.ofFin vd)⟩))
  | .vlog2 esz mk vd va => some (.w32 (VF.pack ⟨43#6, 1#5, esz, (BitVec.ofFin mk), 0, (BitVec.ofFin va), (BitVec.ofFin vd)⟩))
  | .vrcp esz mk vd va => some (.w32 (VF.pack ⟨43#6, 2#5, esz, (BitVec.ofFin mk), 0, (BitVec.ofFin va), (BitVec.ofFin vd)⟩))
  | .vrsqrt esz mk vd va => some (.w32 (VF.pack ⟨43#6, 3#5, esz, (BitVec.ofFin mk), 0, (BitVec.ofFin va), (BitVec.ofFin vd)⟩))
  | .vsin esz mk vd va => some (.w32 (VF.pack ⟨43#6, 4#5, esz, (BitVec.ofFin mk), 0, (BitVec.ofFin va), (BitVec.ofFin vd)⟩))
  | .vtanh esz mk vd va => some (.w32 (VF.pack ⟨43#6, 5#5, esz, (BitVec.ofFin mk), 0, (BitVec.ofFin va), (BitVec.ofFin vd)⟩))
  | .vsigm esz mk vd va => some (.w32 (VF.pack ⟨43#6, 6#5, esz, (BitVec.ofFin mk), 0, (BitVec.ofFin va), (BitVec.ofFin vd)⟩))
  | .vext esz mk d va b => some (.w32 (VF.pack ⟨44#6, 0#5, esz, (BitVec.ofFin mk), (BitVec.ofFin b), (BitVec.ofFin va), (BitVec.ofFin d)⟩))
  | .vins esz mk vd a b => some (.w32 (VF.pack ⟨44#6, 1#5, esz, (BitVec.ofFin mk), (BitVec.ofFin b), (BitVec.ofFin a), (BitVec.ofFin vd)⟩))
  | .vsplat esz mk vd va b => some (.w32 (VF.pack ⟨44#6, 2#5, esz, (BitVec.ofFin mk), (BitVec.ofFin b), (BitVec.ofFin va), (BitVec.ofFin vd)⟩))
  | .vmtos d ma => some (.w32 (VF.pack ⟨44#6, 3#5, 0, 0, 0, (up5 ma), (BitVec.ofFin d)⟩))
  | .vmtosh d ma => some (.w32 (VF.pack ⟨44#6, 4#5, 0, 0, 0, (up5 ma), (BitVec.ofFin d)⟩))
  | .vstom md a b => some (.w32 (VF.pack ⟨44#6, 5#5, 0, 0, (BitVec.ofFin b), (BitVec.ofFin a), (up5 md)⟩))
  | .mpop d ma => some (.w32 (VF.pack ⟨44#6, 6#5, 0, 0, 0, (up5 ma), (BitVec.ofFin d)⟩))
  | .hmov hd ha => some (.w32 (EF.pack ⟨48#6, 0#5, 0, 0, 0, (BitVec.ofFin ha), (BitVec.ofFin hd)⟩))
  | .hld hd x => some (.w32 (EF.pack ⟨48#6, 1#5, (BitVec.ofFin x), 0, 0, 0, (BitVec.ofFin hd)⟩))
  | .hst hd x => some (.w32 (EF.pack ⟨48#6, 2#5, (BitVec.ofFin x), 0, 0, 0, (BitVec.ofFin hd)⟩))
  | .hsetb hd x => some (.w32 (EF.pack ⟨48#6, 3#5, (BitVec.ofFin x), 0, 0, 0, (BitVec.ofFin hd)⟩))
  | .hsetd hd x => some (.w32 (EF.pack ⟨48#6, 4#5, (BitVec.ofFin x), 0, 0, 0, (BitVec.ofFin hd)⟩))
  | .hsets hd x => some (.w32 (EF.pack ⟨48#6, 5#5, (BitVec.ofFin x), 0, 0, 0, (BitVec.ofFin hd)⟩))
  | .hsetf hd x => some (.w32 (EF.pack ⟨48#6, 6#5, (BitVec.ofFin x), 0, 0, 0, (BitVec.ofFin hd)⟩))
  | .hcur hd x => some (.w32 (EF.pack ⟨48#6, 7#5, (BitVec.ofFin x), 0, 0, 0, (BitVec.ofFin hd)⟩))
  | .hnext hd => some (.w32 (EF.pack ⟨48#6, 8#5, 0, 0, 0, 0, (BitVec.ofFin hd)⟩))
  | .hget ha f x => some (.w32 (EF.pack ⟨48#6, 9#5, (BitVec.ofFin x), f, 0, (BitVec.ofFin ha), 0⟩))
  | .htaddr ha x => some (.w32 (EF.pack ⟨48#6, 10#5, (BitVec.ofFin x), 0, 0, (BitVec.ofFin ha), 0⟩))
  | .mxmul hd ha hb acc x => some (.w32 (EF.pack ⟨52#6, 0#5, (BitVec.ofFin x), (BitVec.ofFin acc), (BitVec.ofFin hb), (BitVec.ofFin ha), (BitVec.ofFin hd)⟩))
  | .mxgmul hd ha hb acc x => some (.w32 (EF.pack ⟨52#6, 1#5, (BitVec.ofFin x), (BitVec.ofFin acc), (BitVec.ofFin hb), (BitVec.ofFin ha), (BitVec.ofFin hd)⟩))
  | .mxrank hd ha hb acc x => some (.w32 (EF.pack ⟨52#6, 2#5, (BitVec.ofFin x), (BitVec.ofFin acc), (BitVec.ofFin hb), (BitVec.ofFin ha), (BitVec.ofFin hd)⟩))
  | .mxload hd acc x => some (.w32 (EF.pack ⟨52#6, 3#5, (BitVec.ofFin x), (BitVec.ofFin acc), 0, 0, (BitVec.ofFin hd)⟩))
  | .mxstore hd acc x => some (.w32 (EF.pack ⟨52#6, 4#5, (BitVec.ofFin x), (BitVec.ofFin acc), 0, 0, (BitVec.ofFin hd)⟩))
  | .mxzero acc x => some (.w32 (EF.pack ⟨52#6, 5#5, (BitVec.ofFin x), (BitVec.ofFin acc), 0, 0, 0⟩))
  | .mxwait x => some (.w32 (EF.pack ⟨52#6, 6#5, (BitVec.ofFin x), 0, 0, 0, 0⟩))
  | .mxpoll pd x => some (.w32 (EF.pack ⟨52#6, 7#5, (BitVec.ofFin x), 0, 0, 0, (up4 pd)⟩))
  | .mxwgt x => some (.w32 (EF.pack ⟨52#6, 8#5, (BitVec.ofFin x), 0, 0, 0, 0⟩))
  | .cpy hd ha x => some (.w32 (EF.pack ⟨53#6, 0#5, (BitVec.ofFin x), 0, 0, (BitVec.ofFin ha), (BitVec.ofFin hd)⟩))
  | .cpyg hd ha hb x => some (.w32 (EF.pack ⟨53#6, 1#5, (BitVec.ofFin x), 0, (BitVec.ofFin hb), (BitVec.ofFin ha), (BitVec.ofFin hd)⟩))
  | .cpyf hd x => some (.w32 (EF.pack ⟨53#6, 2#5, (BitVec.ofFin x), 0, 0, 0, (BitVec.ofFin hd)⟩))
  | .cpywFill c ha x => some (.w32 (EF.pack ⟨53#6, 3#5, BitVec.ofFin x, 0, 0, BitVec.ofFin ha, up4 c⟩))
  | .cpywDrain hd c x => some (.w32 (EF.pack ⟨53#6, 3#5, BitVec.ofFin x, 0, 1, up4 c, BitVec.ofFin hd⟩))
  | .cpyp pd x => some (.w32 (EF.pack ⟨53#6, 4#5, (BitVec.ofFin x), 0, 0, 0, (up4 pd)⟩))
  | .rksort hd ha x => some (.w32 (EF.pack ⟨54#6, 0#5, (BitVec.ofFin x), 0, 0, (BitVec.ofFin ha), (BitVec.ofFin hd)⟩))
  | .rktopk hd ha x => some (.w32 (EF.pack ⟨54#6, 1#5, (BitVec.ofFin x), 0, 0, (BitVec.ofFin ha), (BitVec.ofFin hd)⟩))
  | .rktab ha x => some (.w32 (EF.pack ⟨54#6, 2#5, (BitVec.ofFin x), 0, 0, (BitVec.ofFin ha), 0⟩))
  | .rkval hd ha x => some (.w32 (EF.pack ⟨54#6, 3#5, (BitVec.ofFin x), 0, 0, (BitVec.ofFin ha), (BitVec.ofFin hd)⟩))
  | .rkwait x => some (.w32 (EF.pack ⟨54#6, 4#5, (BitVec.ofFin x), 0, 0, 0, 0⟩))
  | .colred hd ha acc x => some (.w32 (EF.pack ⟨55#6, 0#5, (BitVec.ofFin x), acc, 0, (BitVec.ofFin ha), (BitVec.ofFin hd)⟩))
  | .colbc hd ha x => some (.w32 (EF.pack ⟨55#6, 1#5, (BitVec.ofFin x), 0, 0, (BitVec.ofFin ha), (BitVec.ofFin hd)⟩))
  | .colwait x => some (.w32 (EF.pack ⟨55#6, 2#5, (BitVec.ofFin x), 0, 0, 0, 0⟩))
  | .fence kind scope => some (.w32 (SF.pack ⟨56#6, 0#3, (kind ++ scope ++ 0#8), 0, 0⟩))
  | .xfence scope paths => some (.w32 (SF.pack ⟨56#6, 1#3, (0#2 ++ scope ++ paths), 0, 0⟩))
  | .ifence => some (.w32 (SF.pack ⟨56#6, 2#3, 0, 0, 0⟩))
  | .quant => some (.w32 (SF.pack ⟨56#6, 3#3, 0, 0, 0⟩))
  | .bar => some (.w32 (RF.pack ⟨57#6, 0#6, 0, 0, 0, 0, 0⟩))
  | .bararv d => some (.w32 (RF.pack ⟨57#6, 1#6, 0, 0, 0, 0, (BitVec.ofFin d)⟩))
  | .barwt a => some (.w32 (RF.pack ⟨57#6, 2#6, 0, 0, 0, (BitVec.ofFin a), 0⟩))
  | .stag a => some (.w32 (RF.pack ⟨57#6, 3#6, 0, 0, 0, (BitVec.ofFin a), 0⟩))
  | .domq d a => some (.w32 (RF.pack ⟨57#6, 4#6, 0, 0, 0, (BitVec.ofFin a), (BitVec.ofFin d)⟩))
  | .sleep a => some (.w32 (RF.pack ⟨57#6, 5#6, 0, 0, 0, (BitVec.ofFin a), 0⟩))
  | .wake a => some (.w32 (RF.pack ⟨57#6, 6#6, 0, 0, 0, (BitVec.ofFin a), 0⟩))
  | .cbwaitf c n => some (.w32 (IF.pack ⟨58#6, (0#3 ++ 0#4 ++ n), 0, up5 c⟩))
  | .cbwaite c n => some (.w32 (IF.pack ⟨58#6, (1#3 ++ 0#4 ++ n), 0, up5 c⟩))
  | .cbpop c n => some (.w32 (IF.pack ⟨58#6, (2#3 ++ 0#4 ++ n), 0, up5 c⟩))
  | .cbpush c n => some (.w32 (IF.pack ⟨58#6, (3#3 ++ 0#4 ++ n), 0, up5 c⟩))
  | .vrtake slots => some (.w32 (SF.pack ⟨59#6, 0#3, (0#5 ++ slots), 0, 0⟩))
  | .vrtaket pd a slots => some (.w32 (SF.pack ⟨59#6, 1#3, (0#5 ++ slots), BitVec.ofFin a, up5 pd⟩))
  | .vrgive slots => some (.w32 (SF.pack ⟨59#6, 2#3, (0#5 ++ slots), 0, 0⟩))
  | .vrquery d => some (.w32 (SF.pack ⟨59#6, 3#3, 0, 0, (BitVec.ofFin d)⟩))
  | .txh hd slot => some (.w32 (SF.pack ⟨60#6, 0#3, (0#8 ++ slot), 0, (0#1 ++ (BitVec.ofFin hd : BitVec 4))⟩))
  | .txend => some (.w32 (SF.pack ⟨60#6, 1#3, 0, 0, 0⟩))
  | .txinfo d item => some (.w32 (SF.pack ⟨60#6, 2#3, (0#8 ++ item), 0, BitVec.ofFin d⟩))
  | .txtouch a slot w => some (.w32 (SF.pack ⟨60#6, 3#3, (0#7 ++ ofBit w ++ slot), BitVec.ofFin a, 0⟩))
  | .txcheck pd a slot w => some (.w32 (SF.pack ⟨60#6, 4#3, (0#7 ++ ofBit w ++ slot), BitVec.ofFin a, up5 pd⟩))
  | .srr d idx => some (.w32 (SF.pack ⟨61#6, 0#3, idx, 0, (BitVec.ofFin d)⟩))
  | .srw idx a => some (.w32 (SF.pack ⟨61#6, 1#3, idx, (BitVec.ofFin a), 0⟩))
  | .rng d => some (.w32 (SF.pack ⟨61#6, 2#3, 0, 0, (BitVec.ofFin d)⟩))
  | .rngres d a => some (.w32 (SF.pack ⟨61#6, 3#3, 0, (BitVec.ofFin a), (BitVec.ofFin d)⟩))
  | .cyc d => some (.w32 (SF.pack ⟨61#6, 4#3, 0, 0, (BitVec.ofFin d)⟩))
  | .ecall svc => some (.w32 (SF.pack ⟨61#6, 5#3, svc, 0, 0⟩))
  | .bkpt tag => some (.w32 (SF.pack ⟨61#6, 6#3, tag, 0, 0⟩))
  | .lrpatch d a word => some (.w32 (SF.pack ⟨62#6, 0#3, word, (BitVec.ofFin a), (BitVec.ofFin d)⟩))
  | .lrarm d a => some (.w32 (SF.pack ⟨62#6, 1#3, 0, (BitVec.ofFin a), (BitVec.ofFin d)⟩))
  | .lrwait d a => some (.w32 (SF.pack ⟨62#6, 2#3, 0, (BitVec.ofFin a), (BitVec.ofFin d)⟩))
  | .lrstat d a => some (.w32 (SF.pack ⟨62#6, 3#3, 0, (BitVec.ofFin a), (BitVec.ofFin d)⟩))
  | _ => none

/-- Length in bytes of an instruction of a thread; the register commands without a row of bits are 32-bit SRR or SRW. -/
def Instr.len (i : Instr) : Nat :=
  match encode i with
  | some e => e.len
  | none => 4

/-- The decoder on a word numbered as spec/opcode_table.json numbers bits: bit 0 is the least significant bit of the first
halfword; bits above `nbits` are zero. -/
def decodeTableWord (nbits w : Nat) : Option Instr :=
  let v := BitVec.ofNat 32 (w % 2 ^ nbits)
  match decodeHalves [v.extractLsb' 0 16, v.extractLsb' 16 16] with
  | .ok i => some i
  | .error _ => none

end

end Sys2Proof
end

