-- ==== Sys2Proof/Config.lean ====
section
/-! DEFINITION. The free values: what the spec leaves open, as constants without a body, so that no proof can rest on a
choice. Those that depend on a counter are applied to State.fresh, which every step advances. -/

namespace Sys2Proof.Config

/-- Core-clock cycles that pass in a step (R128; timing is not modelled, log entry 7). -/
opaque cycles : Nat → Nat
/-- Whether an event that is due happens before the next instruction of a ready thread (log entry 6). -/
opaque agentFirst : Nat → Bool
/-- What a free yes or no is about, so that no two of them are tied: other packages have brought what a condition waits for (log
entries 20 and 21), a package is in a gang (20), a read finds an error and corrects it (22), a fill's answer comes (54), a failed job
has performed a write (32), a line's write-back, a thread's message or a collective's was in flight on a link that fails (25), and
firmware answers KILL (13). -/
inductive Choice where
  | farBrings | farOperands | gangHas | correctedError | fillSent | jobWrote | lineLost | threadLost | collectiveLost | answerKill
  deriving DecidableEq, Repr
/-- A free yes or no, by what it is about, the step, and the place among those of one step. -/
opaque chosen : Choice → Nat → Nat → Bool
/-- A choice the spec leaves free among several that it allows: which core issues next, which L1 line is evicted (log
entries 5 and 7). -/
opaque pick : Nat → Nat
/-- A word the spec leaves open (log entry 7). -/
opaque word : Nat → BitVec 64
/-- The page-table entry the fault processor writes for a page it makes resident (R262; log entry 13). -/
opaque residentPte : BitVec 16 → Nat → Nat → BitVec 64
/-- A byte of a page that the fault processor makes resident, by the step and the offset (R262, R452; log entry 13). -/
opaque pageByte : Nat → Nat → BitVec 8

/-- Whether a failed job has written an output granule, by the step and the granule (R319, R332, R341, R439). -/
opaque granuleWritten : Nat → Nat → Bool
/-- Where the n-th section of a dump lies (R389; log entry 24). -/
opaque dumpOffset : Nat → Nat
/-- A byte of a firmware image's body, by slot (B is true) and place (R455; log entry 63). -/
opaque imageByte : Bool → Nat → BitVec 8
/-- The length in bytes of a slot's image body (R455; log entry 63). -/
opaque imageLength : Bool → Nat
/-- The numbers of a slot's image by place: 0 digest, 1 modulus of the key, 2 signature (R455; log entry 63). -/
opaque imageNumber : Bool → Nat → BitVec 4096
/-- Security version of a slot's image, and whether it requests a rise (R455; log entry 63). -/
opaque imageVersion : Bool → BitVec 32
opaque imageRaises : Bool → Bool
/-- Fuses: the hash of the signing key, and the two primes of the device key (R455, R456; log entry 63). -/
opaque keyHash : BitVec 512
opaque devicePrime : Bool → BitVec 2048
/-- Whether memory (0) or the links (1) fail to train in a boot, by the step (R461; log entry 63). -/
opaque trainingFails : Nat → Nat → Bool
/-- A byte of the device key's certificate, and its length (R456; log entry 63). -/
opaque certByte : Nat → BitVec 8
opaque certLength : Nat

/-- One less than the present dies of another package of the pod, modulo 9 (R445; log entry 21). -/
opaque podDies : Nat → Nat
/-- A registration index is free in every other package of the pod, by the step and the index (R443; log entry 21). -/
opaque podIndexFree : Nat → Nat → Bool
/-- A registration index is busy in another package of the pod, by the step and the index (R443; log entry 21). -/
opaque podArrayBusy : Nat → Nat → Bool

end Sys2Proof.Config
end

