-- ==== Sys2Proof/Machine/State.lean ====
section
/-! DEFINITION. The machine's state as plain data: threads, cores, clusters, dies and the package, the launch table, the
transaction and front-end state, and the state after reset. Keyed collections are lists of (key, value) pairs in rising key
order; a key that is not listed stands for the default value named beside the collection. -/

namespace Sys2Proof.Machine

/-- A sparse collection keyed by a number, in rising key order. -/
abbrev Assoc (α : Type) := List (Nat × α)

/-- Why a thread stops: the cause names of R371, in code order. -/
inductive Cause where
  | ILLEGAL | PRIV | UNIT_ABSENT | FETCH | MISALIGNED_PC | MISALIGNED_DATA | SCRATCH_RANGE | KWIN_WRITE | BAD_FORMAT
  | VSLOT_EMPTY | VSLOT_FULL | VR_EXCEED | VR_RESERVE | QUEUE_OVERFLOW | QUEUE_UNDERFLOW | HANDLE_EMPTY | HANDLE_CURSOR
  | CB_INVALID | CB_RANGE | CB_UNDERFLOW | CB_OVERFLOW | CB_STALL | CB_BUSY | BAR_SEQ | BAD_STEP | BAD_WEIGHT | LR_POOL
  | LR_WORD | RNG_RANGE | RNG_OVERLAP | RNG_FULL | ACC_FULL | ACC_BUSY | FF_BUSY | TX_BUSY | TA_PINNED | COL_LEVEL
  | MX_BANK | MX_FORMAT | MX_SPACE | MX_SHAPE | MX_INDEX | RK_FORMAT | RK_SHAPE | BTU_FORMAT | BTU_SHAPE
  | MX_JOB | RK_JOB | BT_JOB | COL_JOB
  | TX_STORE | TX_SET | TX_SLOT | TX_ITEM | TX_NOTILE | TX_RDONLY | TX_STAGE | TX_ONLY | TXN_WAIT | TX_LONG | TX_UNSTABLE
  | CLEAVE_DISTANCE | CLEAVE_INDEX | CLEAVE_STUB
  | BAD_ASID | BAD_PTE | PERM | PA_RANGE | PAGE_ABSENT
  | SERVICE | BREAK
  deriving DecidableEq, Repr

/-- Reasons the MODEL stops with a fault: none. Every instruction and event of the table has an effect that the spec gives, and
the type has no constructor. -/
inductive Fault where
  deriving DecidableEq, Repr

/-- Reasons the MODEL refuses a step. -/
inductive Refusal where
  /-- No meaning in this model yet: raised only by Dispatch's own arms. Safe: the model stops. -/
  | notModelled (mnemonic : String)
  deriving DecidableEq, Repr

/-- A tensor handle h0–h15 (R15); its reserved bits are zero by construction. -/
structure TensorHandle where
  base : BitVec 55
  space : Bool
  fmt : BitVec 5
  rows : BitVec 16
  cols : BitVec 16
  stride : BitVec 32
  ltr : BitVec 4
  ltc : BitVec 4
  cur : BitVec 32
  spoff : BitVec 40
  tareg : BitVec 10
  deriving DecidableEq, Repr

/-- A circular-buffer handle c0–c7 (R17). -/
structure CbHandle where
  base : BitVec 19
  slotsz : BitVec 16
  count : BitVec 8
  head : BitVec 8
  tail : BitVec 8
  fill : BitVec 8
  deriving DecidableEq, Repr

/-- One block of four vector registers (R11). -/
abbrev Block := Vector VReg 4

/-- The engines that run jobs for a thread (R462 gives this order). -/
inductive Engine where
  | mxe | rsu | btu | cle
  deriving DecidableEq, Repr

/-- One aligned 16-byte granule of the D2 commit buffer (R229). -/
structure D2Entry where
  /-- Granule address: virtual address / 16. -/
  gran : Nat
  /-- The token of the grant the store took when it entered the buffer: physical address / 16; none once a purge has taken it
  (R206). -/
  pgran : Option Nat
  /-- The page is mapped with TBL (R255). -/
  tbl : Bool
  /-- Bytes present. -/
  mask : BitVec 16
  data : BitVec 128
  deriving DecidableEq, Repr

/-- A tile key (R269): array index, tile row, tile column. -/
structure TileKey where
  ta : Nat
  tr : Nat
  tc : Nat
  deriving DecidableEq, Repr

/-- One set slot of a transaction (R271, R273): its key, mode and staging copy. -/
structure SetSlot where
  key : TileKey
  write : Bool
  /-- Scratch offset of the slot's staging copy. -/
  off : Nat
  deriving DecidableEq, Repr

/-- The transaction binding of a thread (R8, R295). -/
structure TxnBinding where
  rn : BitVec 48
  /-- Transaction index within the launch. -/
  idx : Nat
  /-- A reconnaissance pass (R289). -/
  recon : Bool
  restarts : Nat
  slots : Vector (Option SetSlot) 16
  /-- Staging base offset and need in bytes (R274, R295 item 5). -/
  stgBase : Nat
  stgNeed : Nat
  /-- Instructions retired in this run (R285). -/
  retired : Nat
  /-- A reconnaissance launch, as against a template launch (R271). -/
  reconLaunch : Bool
  deriving DecidableEq, Repr

/-- The operation of an engine job with its captured operands (R161). -/
inductive JobOp where
  /-- MXMUL: A, B, optional fused output. -/
  | mxmul (a b : TensorHandle) (out : Option TensorHandle)
  /-- MXGMUL with its captured row indices. -/
  | mxgmul (a b : TensorHandle) (idx : List Nat) (out : Option TensorHandle)
  /-- MXRANK: bead string, W; the header and indices once read. -/
  | mxrank (a w : TensorHandle) (out : Option TensorHandle)
  | mxload (h : TensorHandle)
  | mxstore (h : TensorHandle)
  | mxzero
  | rksort (o k : TensorHandle) (cfg : Word)
  | rktopk (o k : TensorHandle) (cfg : Word)
  | rktab (t : TensorHandle)
  | rkval (o b : TensorHandle)
  | cpy (d a : TensorHandle) (planes : Nat)
  | cpyg (d a ix : TensorHandle)
  | cpyf (d : TensorHandle) (pat : Word)
  | cpywFill (c : CReg) (a : TensorHandle)
  | cpywDrain (d : TensorHandle) (c : CReg)
  | colred (d a : TensorHandle) (acc : BitVec 3)
  | colbc (d a : TensorHandle)
  deriving DecidableEq, Repr

/-- An outstanding engine job: queued or running (R306, R321, R334, R344). -/
structure Job where
  id : BitVec 16
  owner : Tid
  asid : BitVec 16
  /-- Submitted at supervisor level. -/
  sup : Bool
  fpm : BitVec 6
  op : JobOp
  /-- The cluster whose engines run it (R401). -/
  cl : Nat
  /-- Accumulator bank of an MXE job. -/
  bank : Option Bank
  /-- Steps done (MXE), passes done (RSU), or 1 once a BTU job has begun. -/
  prog : Nat
  /-- Flags raised so far. -/
  flags : BitVec 5
  /-- Cause of failure, once failed. -/
  fail : Option Nat
  /-- The indices of MXRANK once its header is read. -/
  idx : List Nat
  /-- The attenuation table of MXRANK as its first step finds it (R315). -/
  tab : List (BitVec 32)
  /-- For a collective: the launch's count on this die (R342). -/
  seqNo : Nat
  /-- Submissions of its engine that its core had accepted before it: its id without the wrap (R306, R318). -/
  no : Nat
  deriving DecidableEq, Repr

/-- What a waiting thread waits for. The wait completes by the event row named at each. -/
inductive Wait where
  /-- BAR waiting for a generation: BARRIER_LEAVE. -/
  | bar (gen : Nat)
  /-- BARWT waiting for a generation: BARRIER_LEAVE. -/
  | barwt (gen : Nat)
  /-- VRTAKE in the pool FIFO: VR_CLAIM_GRANT. -/
  | vrtake (slots : BitVec 7)
  /-- VRTAKET in the pool FIFO: VR_CLAIM_GRANT or VRTAKET_TIMEOUT. -/
  | vrtaket (pd : PReg) (slots : BitVec 7)
  /-- SLEEP: WAKE, a fault packet of the supervisor, or SLEEP_TIMEOUT. -/
  | sleep
  /-- LDFE on an empty granule: LDFE_WAIT_END. -/
  | ldfe (data : SReg) (addr : Nat) (size : BitVec 2) (clr mark : Bool)
  /-- CBWAITF (full) or CBWAITE: CBWAIT_END. -/
  | cb (full : Bool) (c : CReg) (n : BitVec 8)
  /-- MXWAIT, RKWAIT or COLWAIT: JOB_WAIT_END. -/
  | job (eng : Engine) (id : BitVec 16)
  /-- LRWAIT: LRWAIT_END. -/
  | lrwait (d : SReg) (lid : Word)
  /-- QUANT: QUANT_WAIT_END. -/
  | quant
  /-- A D2 thread waiting for the round of its ended quantum before it goes on (R230). -/
  | round
  /-- An accepted job waiting for a queue entry; its id goes to register x (R306): ENGINE_QUEUE_ENTRY_FREE. -/
  | queue (eng : Engine) (x : SReg) (job : Job)
  /-- A package-scope acquire waiting for the counts asked for: PACKAGE_ACQUIRE_END. -/
  | acquire
  /-- An access or submission that waits for the full bits of staging granules (R283). -/
  | staging
  /-- TXTOUCH waiting for staging space (R289). -/
  | touch
  /-- SRW CBn or CBFn waiting for BTU jobs on the buffer (R153). -/
  | cbWrite
  /-- SRW MXFREE waiting for the jobs of the named banks: BANK_RELEASE. -/
  | mxfree (banks : BitVec 8)
  /-- HALT waiting for accesses and jobs (R30): SLICE_COMPLETE. -/
  | halt
  /-- TXEND waiting for jobs, then for the commit (R287). -/
  | txend
  /-- A resumer whose claim stands in the pool FIFO (R181): VR_CLAIM_GRANT. -/
  | resumer
  /-- A pre-emption has taken effect and drains (R384): KIND, cleavage index, LIVE, and WAIT and WARG of the header (R378). -/
  | drain (kind cidx : Nat) (live : Word) (wait warg : Nat)
  /-- Terminated, its jobs still running (R379): DCTL_TERMINATE_SLICE frees the slot. -/
  | terminated
  /-- A page fault waiting in place or for its frame (R262). -/
  | pageFault (va : Word) (kind : BitVec 2)
  /-- The thread has used a poisoned value; containment or a fatal error follows (R392): UE_CONSUMPTION. -/
  | poison
  /-- The whole launch is being terminated (R379): DCTL_TERMINATE_LAUNCH. -/
  | condemned
  deriving DecidableEq, Repr

/-- Why and how a thread was frozen (R369, R373). -/
structure Freeze where
  cause : Cause
  va : Word
  info : Word
  /-- Access kind 0 read, 1 write, 2 fetch (R378). -/
  kind : BitVec 2
  deriving DecidableEq, Repr

/-- The condition of a hardware thread slot. -/
inductive Status where
  /-- No thread is bound to the slot. -/
  | free
  /-- Bound and ready for issue. -/
  | ready
  /-- Bound and not ready (R175). -/
  | waiting (w : Wait)
  /-- Stopped by a fault (R369). -/
  | frozen (f : Freeze)
  /-- A RESUME has been written and has not taken effect (R377): DCTL_RESUME. -/
  | resuming (f : Freeze)
  /-- Reserved by a sequencer for a transaction that has not been bound (R276). -/
  | reserved
  /-- The second copy of a paired thread (R408): the slot is held, and runs what the leader runs. -/
  | shadow (leader : Tid)
  deriving DecidableEq, Repr

/-- The registers and parameters fixed when a thread is bound (R23, R28, R164). -/
structure Binding where
  /-- SEQ of the launch. -/
  lid : Nat
  /-- LID register (R164). -/
  lidReg : Word
  /-- Slice index, or transaction index. -/
  unit : Nat
  asid : BitVec 16
  /-- Supervisor level (R24). -/
  sup : Bool
  /-- THID.TXN. -/
  txn : Bool
  clvmax : Nat
  level : Nat
  det : Nat
  paired : Bool
  restart : Bool
  nslice : Nat
  /-- DGRP as armed, 0 replaced by NSLICE (R190). -/
  dgrp : Nat
  gsize : Nat
  seed : Word
  rsig : BitVec 128
  /-- RESERVE (R180). -/
  reserve : Nat
  poolVa : Word
  poolN : Nat
  capev : Bool
  captgt : Word
  qlen : Nat
  txmax : Nat
  deriving DecidableEq, Repr

/-- The rebuilding state of a resumed thread (R388). -/
structure Rebuild where
  cidx : Nat
  cont : Word
  deriving DecidableEq, Repr

/-- The architectural state of one thread (R8) with its scheduling condition. -/
structure Thread where
  pc : Word
  s : Vector Word 32
  p : Vector Bool 8
  m : Vector Mask 8
  slots : Vector (Option Block) 7
  ldq : List VReg
  sdq : List VReg
  h : Vector TensorHandle 16
  c : Vector CbHandle 8
  fpm : BitVec 6
  fpf : BitVec 5
  clvcnt : Nat
  rkcfg : Word
  mxerr : Word
  rkerr : Word
  bterr : Word
  colerr : Word
  joberr : BitVec 24
  wake : Bool
  /-- Barrier operations made (R176). -/
  barCount : Nat
  /-- Outstanding arrival and its generation (R188). -/
  barOut : Option Nat
  /-- The generation at which the arrival of the BAR at PC stands (R188, R385). -/
  barStand : Option Nat
  evm : BitVec 16
  d2buf : List D2Entry
  /-- Quantum ends reached since binding (R229). -/
  quanta : Nat
  /-- Instructions retired in the current quantum. -/
  qretired : Nat
  /-- The quantum of the instruction at PC has already ended (R229: a re-execution ends no further quantum). -/
  qended : Bool
  region : Option Nat
  txn : Option TxnBinding
  bind : Binding
  tarst : BitVec 14
  rebuild : Option Rebuild
  /-- A pre-emption request is pending (R383). -/
  preempt : Bool
  /-- Held by YIELD (R122). -/
  held : Bool
  status : Status
  deriving DecidableEq, Repr

/-- A sparse byte memory: addresses strictly rising, no entry equal to what an unlisted address reads as. -/
abbrev Memory := List Host.Cell

/-- A line of a core's L1 (R202). -/
structure L1Line where
  /-- The tag's address space; none for a global line (R207). -/
  asid : Option (BitVec 16)
  /-- VA[54:8]. -/
  vline : Nat
  rd : Bool
  wr : Bool
  /-- The grant's token: the physical line address / 256. -/
  pline : Nat
  /-- Valid bits of the two sectors. -/
  valid : BitVec 2
  /-- Dirty bit per byte. -/
  dirty : BitVec 256
  data : BitVec 2048
  /-- Poison mark per byte (R392). -/
  poison : BitVec 256
  /-- The slices and transactions (launch, index) whose stores stand dirty in the line: the write-back belongs to them (R214). -/
  writers : List (Nat × Nat)
  deriving DecidableEq, Repr

/-- A claim in a core's vector-pool FIFO (R181). -/
structure VrClaim where
  tnum : Nat
  blocks : Nat
  resumer : Bool
  deriving DecidableEq, Repr

/-- A halfword held in a core's instruction cache. -/
structure ICell where
  /-- The tag's address space; none for a line of a global page (R207). -/
  asid : Option (BitVec 16)
  va : Nat
  half : BitVec 16
  deriving DecidableEq, Repr

/-- A completed job whose completion its submitter has not observed (R318). -/
structure DoneJob where
  eng : Engine
  id : BitVec 16
  owner : Tid
  flags : BitVec 5
  fail : Option Nat
  /-- f5 of the instruction. -/
  fn : BitVec 4
  bank : Option Bank
  /-- Its id without the wrap, as in Job. -/
  no : Nat
  deriving DecidableEq, Repr

/-- The state of one core outside its threads. -/
structure Core where
  scratch : Memory
  /-- Poisoned 8-byte scratch words by number, with the bytes not yet written since (R390, R392). -/
  poison : Assoc (BitVec 8)
  /-- Indices of the granules whose full-empty bit is set (R19), rising. -/
  fe : List Nat
  /-- SPLIT.CUR and SPLIT.NEXT (R200). -/
  l1q : BitVec 3
  l1next : BitVec 3
  l1 : List L1Line
  icache : List ICell
  fifo : List VrClaim
  /-- Free blocks of the shared part (R180). -/
  freeBlocks : Nat
  /-- RESERVE of the resident launch. -/
  reserve : Nat
  /-- SEQ of the resident launch (R21). -/
  resident : Option Nat
  mxq : List Job
  rsq : List Job
  btq : List Job
  clq : List Job
  /-- Submissions accepted by each engine; the next job's id is the low 16 bits (R306). -/
  mxNext : Nat
  rsNext : Nat
  btNext : Nat
  clNext : Nat
  done : List DoneJob
  /-- Attenuation table T (R315, R328). -/
  atten : List (BitVec 32)
  /-- Reconstruction table T′ and FILL (R328). -/
  recon : List (BitVec 32)
  reconFill : BitVec 32
  /-- CYC (R128). -/
  cyc : Word
  /-- Round-robin pointers of the access half and of the execute half (R26, R175). -/
  rr : Nat
  rrx : Nat
  /-- Barrier groups (launch, group) whose release is on its way to this core, in the order in which their delays end (R179). -/
  leaving : List (Nat × Nat)
  /-- Staging areas in use: thread number, base, need (R274). -/
  staging : List (Nat × Nat × Nat)
  deriving DecidableEq, Repr

/-- One accumulator bank (R303, R304). -/
structure BankState where
  owner : Option Tid
  inuse : Bool
  dirty : Bool
  poison : Bool
  /-- The identity that unlisted entries hold once in use. -/
  ident : BitVec 32
  /-- Entries 64·row + column that differ from the identity. -/
  cells : Assoc (BitVec 32)
  /-- A release waits for the owner's jobs (R303). -/
  releasing : Bool
  deriving DecidableEq, Repr

/-- The state of one cluster's engines. -/
structure Cluster where
  banks : Vector BankState 8
  /-- MXWGT (R307). -/
  wgt : Vector (BitVec 4) 8
  /-- Arbiter pointer, and the steps left of the turn it has given; 0 when it has given none. -/
  ptr : Nat
  left : Nat
  /-- The RSU's round-robin position (R321). -/
  rsPtr : Nat
  deriving DecidableEq, Repr

/-- A fault packet waiting to be written (R374): the words of R373 that are fixed at the freeze. -/
structure HeldPacket where
  tid : Tid
  code : Cause
  sup : Bool
  txn : Bool
  pc : Word
  va : Word
  info : Word
  lid : Word
  unit : Word
  deriving DecidableEq, Repr

/-- An update of a home die (R428): source die, vector, and the bytes written with their physical addresses. -/
structure Update where
  src : Nat
  v : List Nat
  cells : List Host.Cell
  /-- Addresses of the bytes among them that are poisoned (R392). -/
  bad : List Nat
  deriving DecidableEq, Repr

/-- A read replica of a line (R210). -/
structure Replica where
  /-- Index within the die of the slice that holds it: that of its home (R210). -/
  slice : Nat
  asid : Option (BitVec 16)
  vline : Nat
  pline : Nat
  data : BitVec 2048
  /-- The permissions copied from the home: R, U. -/
  user : Bool
  /-- Poisoned half-sectors of the line by number, and the line itself, each with the bytes not yet written since (R392). -/
  half : Assoc (BitVec 64)
  whole : Assoc (BitVec 256)
  deriving DecidableEq, Repr

/-- The state of one die outside its cores. -/
structure Die where
  /-- BSTEP.STEP (R192). -/
  bstep : BitVec 4
  accspill : Word
  ffrgn : Word
  /-- TXSTG.SIZE (R274). -/
  txstg : BitVec 7
  supv : Word
  fring : Word
  prod : BitVec 32
  cons : BitVec 32
  /-- Packets held because the ring is full or not yet written, in freeze order (R374). -/
  held : List HeldPacket
  /-- Packets delivered to the firmware complex (R375), oldest first. -/
  firmware : List HeldPacket
  patrol : Word
  crect : Vector Word 16
  vclk : Vector (BitVec 48) 9
  /-- Updates received and not yet applied (R429). -/
  updates : List Update
  replicas : List Replica
  /-- Replica fills read at a home and not yet installed, with the home's clock at the read (R430). -/
  fills : List (Replica × List Nat)
  /-- Frames held in the frame region: first 8 KiB unit, units (R264). -/
  frames : List (Nat × Nat)
  /-- Next unused RN batch's round in the package space and the pod space (R434, R445). -/
  batch : Nat
  podBatch : Nat
  /-- Latest horizon announced, package and pod space (R277). -/
  horizon : Nat
  podHorizon : Nat
  /-- Compute clock and L2-and-mesh clock in MHz, and whether the compute island is gated (R458). -/
  clock : Nat
  meshClock : Nat
  gated : Bool
  deriving DecidableEq, Repr

/-- A fixed-point wide accumulator (R51). -/
structure WideAcc where
  val : BitVec 320
  xc : BitVec 8
  xsat : Bool
  pinf : Bool
  ninf : Bool
  nan : Bool
  any : Bool
  nnz : Bool
  deriving DecidableEq, Repr

/-- A wide accumulator's entry (R240): key, value, and its place in the die's spill region, if it is spilled (R245). -/
structure AccEntry where
  asid : Option (BitVec 16)
  va : Nat
  /-- The physical line of a word on a TBL page, whose home it gives (R255). -/
  tbl : Option Nat
  acc : WideAcc
  spilled : Option Nat
  deriving DecidableEq, Repr

/-- The permission record of an L2 line (R205). -/
structure L2Rec where
  asid : Option (BitVec 16)
  vline : Nat
  pline : Nat
  r : Bool
  w : Bool
  x : Bool
  u : Bool
  /-- The page is mapped with TBL (R255). -/
  tbl : Bool
  deriving DecidableEq, Repr

/-- A memory-side TLB entry (R257): one cached leaf. -/
structure TlbEntry where
  /-- The slice beside whose channel the TLB stands (R208). -/
  slice : Nat
  asid : Option (BitVec 16)
  large : Bool
  /-- VA[54:16], or VA[54:29] for a large page. -/
  vpage : Nat
  pte : Word
  deriving DecidableEq, Repr

/-- An entry of the counter-reservation table (R126). -/
structure RngRes where
  asid : BitVec 16
  seed : Word
  base : Nat
  count : Nat
  deriving DecidableEq, Repr

/-- A registered tile array (R266, R267). -/
structure TileArray where
  base : Nat
  asid : BitVec 16
  fmt : BitVec 5
  ltr : Nat
  ltc : Nat
  rows : Nat
  cols : Nat
  pod : Bool
  wr : Bool
  /-- The pages of it, VA[54:16], that were mapped global at registration (R207, R209). -/
  glob : List Nat
  /-- Owning package (R443). -/
  owner : Nat
  deriving DecidableEq, Repr

/-- A loaded code object (R81–R84): its digest, text sections (VA, bytes) and cleavage entries (LIVE, STUB). -/
structure Image where
  asid : BitVec 16
  digest : BitVec 512
  texts : List (Nat × Nat)
  cleave : List (Word × BitVec 32)
  deriving DecidableEq, Repr

/-- A template slot of a launch record (R271). -/
structure TxSlot where
  mode : BitVec 8
  rsv1 : BitVec 8
  ta : BitVec 16
  row0 : BitVec 16
  col0 : BitVec 16
  drow : BitVec 16
  dcol : BitVec 16
  rsv2 : BitVec 32
  deriving DecidableEq, Repr

/-- A launch record as copied at arming (R165), its fields as the words of memory give them. -/
structure LaunchRec where
  ctl : BitVec 32
  nslice : Nat
  dgrp : Nat
  clvmax : Nat
  txmax : Nat
  qlen : Nat
  entry : Word
  stkbase : Word
  stksz : Nat
  ntx : Nat
  seed : Word
  captgt : Word
  poolVa : Word
  poolN : Nat
  trlen : Nat
  trva : Word
  preds : List Word
  gang : Word
  digest : BitVec 512
  stkn : Nat
  txset : List TxSlot
  /-- Words 0–255 of the constant block. -/
  const : List (BitVec 32)
  /-- The reserved bytes are all zero. -/
  rsvZero : Bool
  deriving DecidableEq, Repr

/-- The states of a launch (R168). -/
inductive LState where
  | waiting | ready | running | complete | partialEnd | failed | refused | expired
  deriving DecidableEq, Repr

/-- A launch record whose every byte is zero. -/
def LaunchRec.blank : LaunchRec where
  ctl := 0
  nslice := 0
  dgrp := 0
  clvmax := 0
  txmax := 0
  qlen := 0
  entry := 0
  stkbase := 0
  stksz := 0
  ntx := 0
  seed := 0
  captgt := 0
  poolVa := 0
  poolN := 0
  trlen := 0
  trva := 0
  preds := [0, 0, 0, 0]
  gang := 0
  digest := 0
  stkn := 0
  txset := []
  const := []
  rsvZero := true

/-- A saved thread: pre-empted (context frame) or with a fault frame (R262, R384). -/
structure Saved where
  thread : Thread
  /-- First unit of the frame in its die's region, its size in 8 KiB units, and the die. -/
  frameAt : Nat
  units : Nat
  die : Nat
  /-- KIND of R378: 0 fault frame, 1 CLEAVE point, 2 implicit point. -/
  kind : Nat
  live : Word
  cidx : Nat
  cont : Word
  /-- Owned banks: number and contents. -/
  banks : List (Bank × BankState)
  /-- The core it left, package-wide. -/
  core : Nat
  /-- The page a fault frame waits for: ASID and VA[54:16] (R262). -/
  page : Option (BitVec 16 × Nat)
  /-- It was pre-empted for a lease of its core (R400). -/
  leased : Bool
  deriving DecidableEq, Repr

/-- Where a slice or transaction of a launch stands. -/
inductive UnitState where
  | bound (t : Tid)
  | ended
  | failed (reason : Nat)
  | saved (f : Saved)
  deriving DecidableEq, Repr

/-- A barrier group (R176, R177): arrivals at a generation with captured flags, and released generations with M. -/
structure Group where
  /-- (generation, slice, captured FPF). -/
  arrivals : List (Nat × Nat × BitVec 5)
  /-- (generation, M). -/
  released : List (Nat × BitVec 5)
  /-- Rounds committed (R230). -/
  rounds : Nat
  deriving DecidableEq, Repr

/-- A transaction's lifecycle state (R291). -/
inductive TxState where
  | numbered | recon | reserved | requested | bound | committing | ended
  deriving DecidableEq, Repr

/-- The bytes of a tile on their way, and the 16-byte granules of them that carry a poison mark (R392). -/
structure TileData where
  bytes : List Byte
  bad : List Nat
  deriving DecidableEq, Repr

/-- One request on a tile key (R279). -/
structure KeyReq where
  key : TileKey
  write : Bool
  granted : Bool
  /-- Received by its LKM (LKM_REQUEST). -/
  queued : Bool
  /-- The pushed tile, once the grant fixes its source (R281). -/
  push : TileData
  /-- Granules pushed into staging so far. -/
  pushed : List Nat
  /-- Source: true when forwarded from a commit. -/
  forwarded : Bool
  /-- The commit's copy has been read (R413). -/
  copy : Option TileData
  /-- The clock of the transaction's die when the copy left it (R428). -/
  clk : Vector (BitVec 48) 9
  /-- The copy has been written to the tile at its home (R287). -/
  committed : Bool
  released : Bool
  deriving DecidableEq, Repr

/-- What a gang member's ACK says of it (R449): the package, what must agree, the available clusters of each of its dies in die order, and
the range of groups that its trace names, if it is one. -/
structure GangAck where
  pkg : Nat
  rsig : BitVec 128
  nslice : Nat
  dgrp : Nat
  clusters : List Nat
  range : Option (Nat × Nat)
  deriving DecidableEq, Repr

/-- A message between two packages of a pod (R443 to R449, R452). Requests, commits and releases go to the package that owns the key's
array, and its answers come back. -/
inductive PodMsg where
  /-- An entry that a registration makes in every table under an index, or that a deregistration takes out (R443). -/
  | array (ix : Nat) (a : Option TileArray)
  /-- The request of a package's transaction on a key (R276, R444). -/
  | request (pkg rn : Nat) (key : TileKey) (write : Bool)
  /-- The grant of a request, with the push and whether a commit was forwarded (R280, R281). -/
  | grant (rn : Nat) (key : TileKey) (push : TileData) (forwarded : Bool)
  /-- The copy that a commit writes to a tile (R287). -/
  | commit (pkg rn : Nat) (key : TileKey) (copy : TileData)
  /-- The release of a grant, a write's with the copy that it forwards (R281). -/
  | release (pkg rn : Nat) (key : TileKey) (copy : Option TileData)
  /-- ASSIGN b to every sequencer of a package (R446). -/
  | assign (rn : Nat)
  /-- A horizon that a sequencer of a package announces to a slice's lock manager (R447): the sequencer's rank on its package, by
  ascending die id (R445). -/
  | horizon (slice pkg rank h : Nat)
  /-- ACK, START with what every ACK said, and ABORT with its reason, of the gang of an id (R449). -/
  | ack (gid : Nat) (a : GangAck)
  | start (gid : Nat) (acks : List GangAck)
  | abort (gid reason : Nat)
  /-- The owner's answer to a page-fault record (R452): RESOLVED with the contents and R, W, X, U, G of the leaf, or KILL. -/
  | page (asid : BitVec 16) (vpage : Nat) (answer : Option (List Byte × BitVec 5))
  deriving DecidableEq, Repr

/-- A request that another package's transaction has on a key of an array owned here (R444). -/
structure PodReq where
  pkg : Nat
  rn : Nat
  key : TileKey
  write : Bool
  granted : Bool
  deriving DecidableEq, Repr

/-- One transaction of a transaction launch. -/
structure Txn where
  idx : Nat
  rn : Nat
  seqDie : Nat
  state : TxState
  restarts : Nat
  slots : Vector (Option SetSlot) 16
  reqs : List KeyReq
  landing : Option Tid
  stgBase : Nat
  stgNeed : Nat
  region : Option Nat
  /-- The reconnaissance pass has ended (R289). -/
  passed : Bool
  deriving DecidableEq, Repr

/-- A launch of the package (R167–R169). -/
structure Launch where
  record : LaunchRec
  asid : BitVec 16
  state : LState
  reason : Nat
  /-- It has been ended with a reason, and becomes FAILED once its jobs and its commits under way are over (R220, R288, R379). -/
  killed : Option Nat
  counter : Nat
  succs : List Nat
  /-- Aged level (R170) and the launch-id count at which it last rose. -/
  aged : Nat
  agedAt : Nat
  /-- The launch-id count from which it has been unable to bind (R171). -/
  starvedAt : Nat
  /-- The LID count at which it reached a final state. -/
  endedAt : Nat
  /-- Unbound barrier groups per die: (die, first, past last) (R172). -/
  ranges : List (Nat × Nat × Nat)
  units : Assoc UnitState
  groups : Assoc Group
  txns : Assoc Txn
  /-- Capacity words (R406). -/
  capSeq : BitVec 16
  capAck : BitVec 16
  capOvf : Bool
  capQ : List Word
  rsig : BitVec 128
  firstRn : Nat
  lastRn : Nat
  /-- Stack regions in use (R166). -/
  regions : List Nat
  /-- Collectives submitted, per die (R342). -/
  collectives : Assoc Nat
  /-- Collectives that failed whole, each with its cause: 1 CLEUE (R392), 3 LINK (R439, R450). -/
  lostCols : Assoc Nat
  /-- Re-runs made per slice (R416). -/
  reruns : Assoc Nat
  /-- Dispatch trace entries recorded or to be replayed (R184). -/
  trace : List Word
  /-- Gang protocol: 0 none, 1 ACK sent, 2 START received, 3 lost (R449, R450). -/
  gang : Nat
  /-- What START said of every member of the gang, in the order of package ids (R449). -/
  started : List GangAck
  /-- Dies and available clusters of the gang's packages with a lower id than this one, and with a higher (R445, R449). -/
  gangLo : Nat × Nat
  gangHi : Nat × Nat
  /-- The slices this package binds: first, past last (R449); all of them, but for a gang. -/
  share : Nat × Nat
  /-- The queue whose packet armed it, INT + 2 for a member of a BUNDLE, and the signal VA (R354). -/
  signal : Option (Nat × Nat × Word)
  /-- The members of the BUNDLE that armed it, which become READY together (R354). -/
  bundle : List Nat
  deriving DecidableEq, Repr

/-- A launch of a blank record. -/
def Launch.blank : Launch where
  record := LaunchRec.blank
  asid := 0
  state := .running
  reason := 0
  killed := none
  counter := 0
  succs := []
  aged := 0
  agedAt := 0
  starvedAt := 0
  endedAt := 0
  ranges := []
  units := []
  groups := []
  txns := []
  capSeq := 0
  capAck := 0
  capOvf := false
  capQ := []
  rsig := 0
  firstRn := 0
  lastRn := 0
  regions := []
  collectives := []
  lostCols := []
  reruns := []
  trace := []
  gang := 0
  started := []
  gangLo := (0, 0)
  gangHi := (0, 0)
  share := (0, 0)
  signal := none
  bundle := []

/-- Lease condition of a unit (R398). -/
inductive LeaseState where
  | inService | draining | testing | retired
  deriving DecidableEq, Repr

/-- A unit's status and suspicion score (R395, R396). -/
structure UnitStatus where
  uid : UnitId
  score : Nat
  lease : LeaseState
  marg : Bool
  passed : Nat
  /-- Leased by a containment (R412, R417). -/
  contained : Bool
  /-- A memory channel that failed its test, to be retired at the next package reset (R402). -/
  failed : Bool
  /-- An early lease is due: the score has reached 256, or 1,024, since the last lease (R395). -/
  early : Bool
  /-- The score has reached 1,024: the unit is retired once it has drained (R395). -/
  due : Bool
  deriving DecidableEq, Repr

/-- A page-fault record (R262). -/
structure PageFault where
  asid : BitVec 16
  vpage : Nat
  threads : List Tid
  /-- Owning package when it is not this one, and its answer once it has come: RESOLVED with the page, or KILL (R452). -/
  owner : Nat
  answer : Option (Option (List Byte × BitVec 5))
  deriving DecidableEq, Repr

/-- One open level of a front-end queue's packet stream (R355, R356). -/
structure FeLevel where
  /-- VA of packet 0 of the level; packets wrap after `wrap`, which is the ring's size at level 0. -/
  base : Nat
  wrap : Nat
  /-- Index of the current packet, and the index past the last one that is outstanding. -/
  pos : Nat
  limit : Nat
  /-- An open LOOP: first body packet, packets, passes left. -/
  loop : Option (Nat × Nat × Nat)
  /-- Granules of 16 bytes fetched and held: packet i is granules 2i and 2i + 1. -/
  held : List (Nat × BitVec 128)
  /-- INT of the packet that opened the level, and of the open LOOP (R354). -/
  int : Bool
  loopInt : Bool
  deriving DecidableEq, Repr

/-- What the front end keeps of a queue beside its QCB in memory (R347 to R352). -/
structure Queue where
  /-- The queue's bit in the pending bitmap (R349). -/
  pending : Bool
  /-- The hardware slot it is mapped on. -/
  slot : Option Nat
  /-- CTL to LOGSZ, the first 8 bytes of the QCB, as read at mapping. -/
  ctl : Word
  /-- Capability windows as read at mapping: base, length, R, W. -/
  win : List (Nat × Nat × Bool × Bool)
  /-- Open levels of the packet stream, innermost first. -/
  levels : List FeLevel
  /-- Launches armed by the queue (R354). -/
  armed : List Nat
  /-- BUNDLEs whose signal is not yet written: the members' launch ids. -/
  bundles : List (List Nat)
  /-- Packets completed in a row while a queue of higher effective priority was PENDING (R352). -/
  run : Nat
  /-- The page the current packet waits for (R359). -/
  fault : Option (BitVec 16 × Nat)
  /-- The fault processor answered KILL: FAULT is due (R359). -/
  killed : Bool
  /-- Place of the operand whose page faulted, and its address (R358). -/
  faultAt : Nat × Word
  /-- The launch-id count at which CREDIT last rose (R351). -/
  agedAt : Nat
  /-- A doorbell asks for a reset (false) or for DISABLED (true), and has not been served (R349, R350). -/
  ask : Option Bool
  /-- The current packet has begun and waits (R350). -/
  busy : Bool
  /-- Granules of the buffer that the current IB names, fetched before the level opens (R356). -/
  ahead : List (Nat × BitVec 128)
  deriving DecidableEq, Repr

/-- The registers of one host port (R359, R457). -/
structure Port where
  present : Bool
  slotport : Word
  dbdrop : BitVec 32
  hapbase : BitVec 16
  nonce : BitVec 512
  busyNonce : BitVec 512
  busy : Bool
  attDone : Bool
  report : List Byte
  /-- MSI-X vectors raised. -/
  msix : List Nat
  deriving DecidableEq, Repr

/-- A firmware image of a flash slot (R455). The image carries the public key it is signed under, as log entry 63 says. -/
structure FwImage where
  /-- Security version. -/
  version : BitVec 32
  body : List Byte
  digest : BitVec 512
  /-- Modulus of the signing key. -/
  key : BitVec 4096
  signature : BitVec 4096
  /-- It requests that the fused minimum version rise to its own. -/
  raises : Bool
  deriving DecidableEq, Repr

/-- The device identity key (R456), as the fuses hold it: its two primes, from which the modulus and the private exponent follow. -/
structure DeviceKey where
  p : BitVec 2048
  q : BitVec 2048
  deriving DecidableEq, Repr

/-- Package-wide registers and tables. -/
structure Package where
  /-- UNITS (R3). -/
  units : Word
  ageq : BitVec 16
  astb : Word
  ustb : Word
  assaycfg : Word
  fslog : Word
  podcfg : Word
  arotb : Word
  /-- Launch ids issued so far (R164). -/
  lastLid : Nat
  launches : Assoc Launch
  images : List Image
  /-- Launch records that firmware is to arm, each with its address space (R24), oldest first. -/
  fwRecords : List (BitVec 16 × List Byte)
  rng : List RngRes
  accs : List AccEntry
  l2 : List L2Rec
  tlb : List TlbEntry
  arrays : Assoc TileArray
  /-- Messages of other packages that have not been taken yet, oldest first, and those sent to other packages, each with its destination
  (R443 to R452). -/
  podIn : List PodMsg
  podOut : List (Nat × PodMsg)
  /-- Requests of other packages' transactions on keys of arrays owned here, which are not released (R444). -/
  podReqs : List PodReq
  /-- ACKs that have reached this package as a leader, by gang id (R449). -/
  gangAcks : List (Nat × GangAck)
  unitTab : List UnitStatus
  pageFaults : List PageFault
  queues : Assoc Queue
  portA : Port
  portB : Port
  qtlen : BitVec 16
  qtbase : BitVec 36
  bootst : Word
  dumpinfo : Word
  retinfo : Word
  /-- Retirement records in flash, oldest first: 64 bytes of body and 512 of signature (R417). -/
  retired : List (List Byte)
  /-- The firmware images of flash slots A and B (R455). -/
  flashA : FwImage
  flashB : FwImage
  /-- Fuses: SHA-512 of the signing key, and the least security version (R455). -/
  keyHash : BitVec 512
  minVersion : BitVec 32
  /-- The device identity key, and its certificate (R456). -/
  devKey : DeviceKey
  cert : List Byte
  /-- Failed-slice records appended (R415): (launch id, NSLICE, failed slices). -/
  fslogRecs : List (Word × Nat × List Nat)
  fslogPos : Nat
  /-- Packages judged silent (R442). -/
  silent : List Nat
  /-- Horizon announcements as received: ((slice, sequencer die), RN) (R435). -/
  hzSeen : List ((Nat × Nat) × Nat)
  /-- ASSIGN messages not yet received: (die, pod, RN) (R434). -/
  assigns : List (Nat × Bool × Nat)
  /-- Clock answers to package acquires in progress: (thread, die, count) (R432). -/
  clockAns : List (Tid × Nat × Nat)
  /-- Fatal error stopped the package (R389). -/
  stopped : Bool
  /-- CAUSE of the dump of that error (R389). -/
  fatalCause : Nat
  /-- The host-interface-and-firmware island is gated (R458). -/
  hostGated : Bool
  /-- HBM PHY groups at the lower rate (R458). -/
  hbmSlow : List Nat
  /-- The voltages that firmware has set, by island, in units the spec does not give (R458). -/
  volts : Assoc Word
  /-- Power removed by a thermal trip (R460). -/
  tripped : Bool
  /-- The last unit leased in the periodic order of each class: 512·die + index + 1, or 0 (R397). -/
  leased : Vector Nat 5
  deriving DecidableEq, Repr

/-- The machine. -/
structure State where
  threads : List (Nat × Thread)
  cores : List (Nat × Core)
  clusters : List (Nat × Cluster)
  dies : List (Nat × Die)
  pkg : Package
  /-- Physical memory: HBM of every die (R213). -/
  mem : Memory
  /-- Poisoned half-sectors of 64 bytes by number, with the bytes not yet written since (R392). -/
  poison : Assoc (BitVec 64)
  /-- Poisoned L2 lines by physical line number, with the bytes not yet written since (R392). -/
  lpoison : Assoc (BitVec 256)
  /-- The thread that issues next. -/
  cur : Tid
  /-- The MODEL's own: events that follow at once from the last step, before anything else. -/
  urgent : List Instr
  /-- The MODEL's own: events of other agents that are due, oldest first. -/
  agenda : List Instr
  /-- The MODEL's own: counter handed to the free values of Config. -/
  fresh : Nat
  deriving DecidableEq, Repr

/-- A handle at binding: zero but TAREG 0x3FF (R15). -/
def TensorHandle.empty : TensorHandle :=
  ⟨0, false, 0, 0, 0, 0, 0, 0, 0, 0, 0x3FF⟩

/-- A circular-buffer handle at binding (R17). -/
def CbHandle.empty : CbHandle := ⟨0, 0, 0, 0, 0, 0⟩

/-- The binding of a slot that no thread occupies: every field zero. -/
def Binding.none : Binding where
  lid := 0
  lidReg := 0
  unit := 0
  asid := 0
  sup := false
  txn := false
  clvmax := 65536
  level := 0
  det := 0
  paired := false
  restart := false
  nslice := 0
  dgrp := 0
  gsize := 0
  seed := 0
  rsig := 0
  reserve := 0
  poolVa := 0
  poolN := 0
  capev := false
  captgt := 0
  qlen := 4096
  txmax := 1048576

/-- A thread slot with nothing bound: the register values of R28 and no launch. -/
def Thread.reset : Thread where
  pc := 0
  s := Vector.replicate 32 0
  p := Vector.replicate 8 false
  m := Vector.replicate 8 (BitVec.allOnes 128)
  slots := Vector.replicate 7 none
  ldq := []
  sdq := []
  h := Vector.replicate 16 TensorHandle.empty
  c := Vector.replicate 8 CbHandle.empty
  fpm := 0
  fpf := 0
  clvcnt := 0
  rkcfg := 0
  mxerr := 0
  rkerr := 0
  bterr := 0
  colerr := 0
  joberr := 0
  wake := false
  barCount := 0
  barOut := none
  barStand := none
  evm := 0
  d2buf := []
  quanta := 0
  qretired := 0
  qended := false
  region := none
  txn := none
  bind := Binding.none
  tarst := 0x3FF0#14
  rebuild := none
  preempt := false
  held := false
  status := .free

/-- A core after reset. -/
def Core.reset : Core where
  scratch := []
  poison := []
  fe := []
  l1q := 1
  l1next := 1
  l1 := []
  icache := []
  fifo := []
  freeBlocks := 48
  reserve := 0
  resident := none
  mxq := []
  rsq := []
  btq := []
  clq := []
  mxNext := 0
  rsNext := 0
  btNext := 0
  clNext := 0
  done := []
  atten := List.replicate 1024 0x3F800000#32
  recon := List.replicate 1024 0x3F800000#32
  reconFill := 0
  cyc := 0
  rr := 0
  rrx := 0
  leaving := []
  staging := []

/-- A bank in the cleared state, owned by nobody (R304). -/
def BankState.cleared : BankState := ⟨none, false, false, false, 0x80000000#32, [], false⟩

/-- A cluster's engines after reset: weights 1, pointer 0 (R307). -/
def Cluster.reset : Cluster where
  banks := Vector.replicate 8 BankState.cleared
  wgt := Vector.replicate 8 1
  ptr := 0
  left := 0
  rsPtr := 0

/-- A die after reset. -/
def Die.reset : Die where
  bstep := 1
  accspill := 0
  ffrgn := 0
  txstg := 16
  supv := 0
  fring := 0
  prod := 0
  cons := 0
  held := []
  firmware := []
  patrol := 0x118#64
  crect := Vector.replicate 16 0
  vclk := Vector.replicate 9 0
  updates := []
  replicas := []
  fills := []
  frames := []
  batch := 0
  podBatch := 0
  horizon := 0
  podHorizon := 0
  clock := 2100
  meshClock := 2100
  gated := true

/-- A host port after reset. -/
def Port.reset (present : Bool) (own : Word) : Port where
  present := present
  slotport := own
  dbdrop := 0
  hapbase := 0
  nonce := 0
  busyNonce := 0
  busy := false
  attDone := false
  report := []
  msix := []

/-- The image a flash slot holds when the part is made: open, but that slot A, which runs, has the
version 0 that BOOTST gives at reset (log entry 63). -/
def FwImage.factory (b : Bool) : FwImage where
  version := Config.imageVersion b
  body := (List.range (Config.imageLength b)).map (Config.imageByte b)
  digest := (Config.imageNumber b 0).setWidth 512
  key := Config.imageNumber b 1
  signature := Config.imageNumber b 2
  raises := Config.imageRaises b

/-- The package after reset: a YL9 with every unit present, still to boot (R461). -/
def Package.reset : Package where
  units := 0x0103FFF0#64
  ageq := 64
  astb := 0
  ustb := 0
  assaycfg := 0x160618#64
  fslog := 0
  podcfg := 0x400#64
  arotb := 0
  lastLid := 0
  launches := []
  images := []
  fwRecords := []
  rng := []
  accs := []
  l2 := []
  tlb := []
  arrays := []
  podIn := []
  podOut := []
  podReqs := []
  gangAcks := []
  unitTab := []
  pageFaults := []
  queues := []
  portA := Port.reset true 0xFFFFFFFF#64
  portB := Port.reset true 0xFFFFFFFF00000000#64
  qtlen := 0
  qtbase := 0
  bootst := 0
  dumpinfo := 0
  retinfo := 0
  retired := []
  flashA := { FwImage.factory false with version := 0 }
  flashB := FwImage.factory true
  keyHash := Config.keyHash
  minVersion := 0
  devKey := ⟨Config.devicePrime false, Config.devicePrime true⟩
  cert := (List.range (Config.certLength % 4093)).map Config.certByte
  fslogRecs := []
  fslogPos := 0
  silent := []
  hzSeen := []
  assigns := []
  clockAns := []
  stopped := false
  fatalCause := 0
  hostGated := false
  hbmSlow := []
  volts := []
  tripped := false
  leased := Vector.replicate 5 0

/-- The machine right after reset: the package has booted to step 6 of R461, no launch is armed, no thread is bound. -/
def State.reset : State where
  threads := []
  cores := []
  clusters := []
  dies := []
  pkg := Package.reset
  mem := []
  poison := []
  lpoison := []
  cur := ⟨0, 0, 0⟩
  urgent := []
  agenda := []
  fresh := 0

end Sys2Proof.Machine
end

