-- ==== Sys2Proof/Machine/Assoc.lean ====
section
/-! DEFINITION. Keyed collections: look a key up, list a value under a key, remove a key. -/

namespace Sys2Proof.Machine

/-- The value listed under a key, if any. -/
def Assoc.find {α : Type} (k : Nat) : Assoc α → Option α
  | [] => none
  | (j, v) :: r => if j = k then some v else Assoc.find k r

/-- List a value under a key; keys stay in rising order. -/
def Assoc.put {α : Type} (k : Nat) (v : α) : Assoc α → Assoc α
  | [] => [(k, v)]
  | (j, w) :: r =>
    if k < j then (k, v) :: (j, w) :: r
    else if j = k then (k, v) :: r
    else (j, w) :: Assoc.put k v r

/-- Remove a key. -/
def Assoc.erase {α : Type} (k : Nat) (l : Assoc α) : Assoc α := l.filter (fun e => e.1 != k)

/-- Apply a function to the value under a key, or to a default when the key is not listed. -/
def Assoc.update {α : Type} (k : Nat) (dflt : α) (f : α → α) (l : Assoc α) : Assoc α :=
  Assoc.put k (f ((Assoc.find k l).getD dflt)) l

end Sys2Proof.Machine
end

