-- ==== Sys2Proof/Machine/Bits.lean ====
section
/-! DEFINITION. Bit fields, byte order and sign extension (R7, R67). -/

namespace Sys2Proof.Machine

/-- Sign-extend to 64 bits. -/
def sext64 {w : Nat} (x : BitVec w) : Word := x.signExtend 64
/-- Zero-extend to 64 bits. -/
def zext64 {w : Nat} (x : BitVec w) : Word := x.setWidth 64

/-- Bits lo to lo + len − 1 of a word, as a number. -/
def field {w : Nat} (x : BitVec w) (lo len : Nat) : Nat := (x.extractLsb' lo len).toNat

/-- One bit of a number. -/
def nbit (x i : Nat) : Bool := x.testBit i

/-- The number whose little-endian bytes are given (R7). -/
def leNat : List Byte → Nat
  | [] => 0
  | b :: r => b.toNat + 256 * leNat r

/-- The n little-endian bytes of a number (R7). -/
def leBytes : Nat → Nat → List Byte
  | 0, _ => []
  | n + 1, x => BitVec.ofNat 8 x :: leBytes n (x / 256)

/-- The sum of the bits of a list at weights 1, 2, 4, … -/
def bitsNat : List Bool → Nat
  | [] => 0
  | b :: r => (if b then 1 else 0) + 2 * bitsNat r

/-- fold of R208: the exclusive-or of the three 16-bit chunks of a 48-bit number. -/
def fold48 (x : Nat) : Nat :=
  (x % 65536) ^^^ (x / 65536 % 65536) ^^^ (x / 4294967296 % 65536)

/-- n rounded up to a multiple of m. -/
def roundUp (n m : Nat) : Nat := if m = 0 then n else (n + m - 1) / m * m

/-- The list of values of `f` on 0 to n − 1. -/
def tabulate {α : Type} (n : Nat) (f : Nat → α) : List α := (List.range n).map f

/-- Number of set bits among the low n. -/
def popcount {w : Nat} (x : BitVec w) : Nat := (List.range w).foldl (fun n i => n + (x.getLsbD i).toNat) 0

/-- A vector built lane by lane: lane i of width w is `f i` (R10). -/
def lanes (w n : Nat) (f : Nat → Nat) : VReg :=
  BitVec.ofNat 1024 ((List.range n).foldr (fun i acc => f i % 2 ^ w + 2 ^ w * acc) 0)

/-- Lane i of width w of a vector, as a number (R10). -/
def lane (w i : Nat) (v : VReg) : Nat := v.toNat / 2 ^ (w * i) % 2 ^ w

end Sys2Proof.Machine
end

