-- ==== Sys2Proof/Machine/Ops.lean ====
section
/-! DEFINITION. The shared operations of every meaning: finding and replacing a thread, core, cluster, die or launch; reading
and writing registers; retiring an instruction; taking a fault (R369 to R375) and resuming from one (R379); entering and
leaving a wait; the end of a D2 quantum (R229). -/

namespace Sys2Proof

/-- The thread slot's key: (die, core, thread) in one number. -/
def Tid.key (t : Tid) : Nat := (t.die * 256 + t.core) * 8 + t.tnum
/-- The thread slot with a key. -/
def Tid.ofKey (k : Nat) : Tid := ⟨k / 2048, k / 8 % 256, k % 8⟩
/-- The package-wide core index: die · 256 + die-local core. -/
def Tid.coreKey (t : Tid) : Nat := t.die * 256 + t.core
/-- The cluster of a die-local core: a 4-wide, 2-tall block, numbered row-major (the worked example of R22). -/
def clusterOf (core : Nat) : Nat := core / 32 * 4 + core % 16 / 4
/-- The package-wide cluster index of a thread slot. -/
def Tid.clusterKey (t : Tid) : Nat := t.die * 32 + clusterOf t.core

end Sys2Proof

namespace Sys2Proof.Machine

/-- Package-wide cluster of a package-wide core. -/
def clusterOfCore (c : Nat) : Nat := c / 256 * 32 + clusterOf (c % 256)

/-! Parts of the state. -/

/-- A thread slot. -/
def State.thread (s : State) (t : Tid) : Thread := (Assoc.find t.key s.threads).getD Thread.reset
/-- Replace a thread slot. -/
def State.setThread (s : State) (t : Tid) (x : Thread) : State := { s with threads := Assoc.put t.key x s.threads }
/-- Change a thread slot. -/
def State.upThread (s : State) (t : Tid) (f : Thread → Thread) : State := s.setThread t (f (s.thread t))
/-- The current thread. -/
def State.me (s : State) : Thread := s.thread s.cur
/-- Replace the current thread. -/
def State.setMe (s : State) (x : Thread) : State := s.setThread s.cur x
/-- Change the current thread. -/
def State.upMe (s : State) (f : Thread → Thread) : State := s.setMe (f s.me)

/-- A core, by its package-wide index. -/
def State.core (s : State) (c : Nat) : Core := (Assoc.find c s.cores).getD Core.reset
/-- Replace a core. -/
def State.setCore (s : State) (c : Nat) (x : Core) : State := { s with cores := Assoc.put c x s.cores }
/-- Change a core. -/
def State.upCore (s : State) (c : Nat) (f : Core → Core) : State := s.setCore c (f (s.core c))
/-- The current thread's core. -/
def State.myCore (s : State) : Core := s.core s.cur.coreKey
/-- Change the current thread's core. -/
def State.upMyCore (s : State) (f : Core → Core) : State := s.upCore s.cur.coreKey f

/-- A cluster's engines. -/
def State.cluster (s : State) (k : Nat) : Cluster := (Assoc.find k s.clusters).getD Cluster.reset
/-- Replace a cluster. -/
def State.setCluster (s : State) (k : Nat) (x : Cluster) : State := { s with clusters := Assoc.put k x s.clusters }
/-- Change a cluster. -/
def State.upCluster (s : State) (k : Nat) (f : Cluster → Cluster) : State := s.setCluster k (f (s.cluster k))

/-- A die. -/
def State.die (s : State) (d : Nat) : Die := (Assoc.find d s.dies).getD Die.reset
/-- Replace a die. -/
def State.setDie (s : State) (d : Nat) (x : Die) : State := { s with dies := Assoc.put d x s.dies }
/-- Change a die. -/
def State.upDie (s : State) (d : Nat) (f : Die → Die) : State := s.setDie d (f (s.die d))
/-- The current thread's die. -/
def State.myDie (s : State) : Die := s.die s.cur.die

/-- A launch, by the SEQ of its id. -/
def State.launch? (s : State) (lid : Nat) : Option Launch := Assoc.find lid s.pkg.launches
/-- Replace a launch. -/
def State.setLaunch (s : State) (lid : Nat) (l : Launch) : State :=
  { s with pkg := { s.pkg with launches := Assoc.put lid l s.pkg.launches } }
/-- Change a launch, if it exists. -/
def State.upLaunch (s : State) (lid : Nat) (f : Launch → Launch) : State :=
  match s.launch? lid with
  | some l => s.setLaunch lid (f l)
  | none => s
/-- Change the package. -/
def State.upPkg (s : State) (f : Package → Package) : State := { s with pkg := f s.pkg }

/-- Put events on the agenda, last. -/
def State.post (s : State) (evs : List Instr) : State := { s with agenda := s.agenda ++ evs }

/-- Put events that follow at once, before anything else happens. -/
def State.urge (s : State) (evs : List Instr) : State := { s with urgent := s.urgent ++ evs }

/-- The present dies, in ascending die id: UNITS bits [12:4] (R3). -/
def State.presentDies (s : State) : List Nat := (List.range 9).filter (fun d => s.pkg.units.getLsbD (4 + d))

/-- Every thread slot with a bound thread, in key order. -/
def State.boundTids (s : State) : List Tid :=
  (s.threads.filter (fun e => e.2.status != .free)).map (fun e => Tid.ofKey e.1)

/-- The slots that hold the second copy of a paired thread (R408). -/
def State.shadowsOf (s : State) (t : Tid) : List Tid :=
  (s.threads.filter (fun e => e.2.status == .shadow t)).map (fun e => Tid.ofKey e.1)

/-! Scratchpads of paired threads (R408): a second copy does in its own scratchpad what its leader does (log entry 45). -/

/-- The second copies of a thread, on cores of their own. -/
def State.copiesOf (s : State) (t : Tid) : List Tid :=
  if (s.thread t).bind.paired then (s.shadowsOf t).filter (fun p => p.coreKey != t.coreKey) else []
/-- Where a scratch address of a thread lies for its second copy, whose staging area may stand elsewhere. -/
def State.copyAddr (s : State) (t p : Tid) (a : Nat) : Nat :=
  match (s.thread t).txn, (s.core p.coreKey).staging.find? (fun u => u.1 == p.tnum) with
  | some b, some u => if b.stgBase ≤ a ∧ a < b.stgBase + b.stgNeed then u.2.1 + (a - b.stgBase) else a
  | _, _ => a
/-- Change the scratchpad of a thread's core, and in the same way those of its second copies; the change is given where the thread's
addresses lie. -/
def State.upScratch (s : State) (t : Tid) (f : (Nat → Nat) → Core → Core) : State :=
  ((s.copiesOf t).foldl (fun s p => s.upCore p.coreKey (f (s.copyAddr t p))) s).upCore t.coreKey (f id)

/-! Registers (R9). -/

/-- Read an s register: s0 reads zero. -/
def Thread.rs (t : Thread) (r : SReg) : Word := if r = 0 then 0 else t.s[r]
/-- Write an s register: a write to s0 is discarded. -/
def Thread.ws (t : Thread) (r : SReg) (v : Word) : Thread := if r = 0 then t else { t with s := t.s.set r v }
/-- Read a p register: p0 reads true. -/
def Thread.rp (t : Thread) (r : PReg) : Bool := if r = 0 then true else t.p[r]
/-- Write a p register: a write to p0 is discarded. -/
def Thread.wp (t : Thread) (r : PReg) (v : Bool) : Thread := if r = 0 then t else { t with p := t.p.set r v }
/-- Read an m register: m0 reads all ones. -/
def Thread.rm (t : Thread) (r : MReg) : Mask := if r = 0 then BitVec.allOnes 128 else t.m[r]
/-- Write an m register: a write to m0 is discarded. -/
def Thread.wm (t : Thread) (r : MReg) (v : Mask) : Thread := if r = 0 then t else { t with m := t.m.set r v }
/-- Read a tensor handle. -/
def Thread.rh (t : Thread) (r : HReg) : TensorHandle := t.h[r]
/-- Write a tensor handle. -/
def Thread.wh (t : Thread) (r : HReg) (v : TensorHandle) : Thread := { t with h := t.h.set r v }
/-- Read a circular-buffer handle. -/
def Thread.rc (t : Thread) (r : CReg) : CbHandle := t.c[r]
/-- Write a circular-buffer handle. -/
def Thread.wc (t : Thread) (r : CReg) (v : CbHandle) : Thread := { t with c := t.c.set r v }
/-- The guard of an R-format instruction (R73). -/
def Thread.guard (t : Thread) (g : Guard) : Bool := t.rp g.pred ^^ g.neg
/-- OR flags into FPF (R43). -/
def Thread.orFlags (t : Thread) (f : BitVec 5) : Thread := { t with fpf := t.fpf ||| f }
/-- The thread runs a kernel slice at D2 (R229). -/
def Thread.d2 (t : Thread) : Bool := t.bind.det == 2 && !t.bind.txn

/-- Slices per barrier group, 0 meaning NSLICE (R163). -/
def LaunchRec.groupSize (r : LaunchRec) : Nat := if r.dgrp = 0 then r.nslice else r.dgrp
/-- The group of a slice. -/
def LaunchRec.groupOf (r : LaunchRec) (slice : Nat) : Nat := if r.groupSize = 0 then 0 else slice / r.groupSize

/-- The round of a D2 thread's last ended quantum has committed (R230). -/
def State.roundDone (s : State) (t : Thread) : Bool :=
  !t.d2 || (match s.launch? t.bind.lid with
    | some l => decide (t.quanta ≤ ((Assoc.find (l.record.groupOf t.bind.unit) l.groups).getD ⟨[], [], 0⟩).rounds)
    | none => true)

/-! Faults (R369 to R375). -/

/-- The number of a cause in R371. -/
def Cause.code : Cause → Nat
  | .ILLEGAL => 0x01 | .PRIV => 0x02 | .UNIT_ABSENT => 0x03 | .FETCH => 0x04 | .MISALIGNED_PC => 0x05
  | .MISALIGNED_DATA => 0x06 | .SCRATCH_RANGE => 0x07 | .KWIN_WRITE => 0x08 | .BAD_FORMAT => 0x09 | .VSLOT_EMPTY => 0x0A
  | .VSLOT_FULL => 0x0B | .VR_EXCEED => 0x0C | .VR_RESERVE => 0x0D | .QUEUE_OVERFLOW => 0x0E | .QUEUE_UNDERFLOW => 0x0F
  | .HANDLE_EMPTY => 0x10 | .HANDLE_CURSOR => 0x11 | .CB_INVALID => 0x12 | .CB_RANGE => 0x13 | .CB_UNDERFLOW => 0x14
  | .CB_OVERFLOW => 0x15 | .CB_STALL => 0x16 | .CB_BUSY => 0x17 | .BAR_SEQ => 0x18 | .BAD_STEP => 0x19 | .BAD_WEIGHT => 0x1A
  | .LR_POOL => 0x1B | .LR_WORD => 0x1C | .RNG_RANGE => 0x1D | .RNG_OVERLAP => 0x1E | .RNG_FULL => 0x1F | .ACC_FULL => 0x20
  | .ACC_BUSY => 0x21 | .FF_BUSY => 0x22 | .TX_BUSY => 0x23 | .TA_PINNED => 0x24 | .COL_LEVEL => 0x25
  | .MX_BANK => 0x28 | .MX_FORMAT => 0x29 | .MX_SPACE => 0x2A | .MX_SHAPE => 0x2B | .MX_INDEX => 0x2C | .RK_FORMAT => 0x2D
  | .RK_SHAPE => 0x2E | .BTU_FORMAT => 0x2F | .BTU_SHAPE => 0x30
  | .MX_JOB => 0x38 | .RK_JOB => 0x39 | .BT_JOB => 0x3A | .COL_JOB => 0x3B
  | .TX_STORE => 0x40 | .TX_SET => 0x41 | .TX_SLOT => 0x42 | .TX_ITEM => 0x43 | .TX_NOTILE => 0x44 | .TX_RDONLY => 0x45
  | .TX_STAGE => 0x46 | .TX_ONLY => 0x47 | .TXN_WAIT => 0x48 | .TX_LONG => 0x49 | .TX_UNSTABLE => 0x4A
  | .CLEAVE_DISTANCE => 0x50 | .CLEAVE_INDEX => 0x51 | .CLEAVE_STUB => 0x52
  | .BAD_ASID => 0x60 | .BAD_PTE => 0x61 | .PERM => 0x62 | .PA_RANGE => 0x63 | .PAGE_ABSENT => 0x64
  | .SERVICE => 0x70 | .BREAK => 0x71

/-- The unit a packet names: the slice index of a kernel thread, the RN of a transaction (R373). -/
def Thread.unitWord (t : Thread) : Word :=
  match t.txn with
  | some b => b.rn.setWidth 64
  | none => BitVec.ofNat 64 t.bind.unit

/-- The packet of a freeze, with the words of R373 that are fixed at the freeze. -/
def Thread.packet (t : Thread) (tid : Tid) (f : Freeze) : HeldPacket :=
  ⟨tid, f.cause, t.bind.sup, t.bind.txn, t.pc, f.va, f.info, t.bind.lidReg, t.unitWord⟩

/-- TAKE A FAULT (R369, R374): the thread stops with its registers as they are, every older instruction complete; its packet
joins those of its die, in freeze order, and its delivery is due. A launch whose thread raises RNG_OVERLAP ends (R126). -/
def State.freeze (s : State) (tid : Tid) (f : Freeze) : State :=
  let t := s.thread tid
  let s := s.setThread tid { t with status := .frozen f }
  let s := s.upDie tid.die (fun d => { d with held := d.held ++ [t.packet tid f] })
  s.post [.faultPacketWrite tid.die]

/-- The freeze of a cause that carries neither address nor information. -/
def Freeze.of (c : Cause) : Freeze := ⟨c, 0, 0, 0⟩

/-- The freeze of a thread that is frozen, or that a RESUME has been written for (R377). -/
def Status.freeze? : Status → Option Freeze
  | .frozen f | .resuming f => some f
  | _ => none

/-- RETURN FROM A FAULT (R379): a frozen thread becomes ready at its PC; waiting for its round at D2 when that has not
committed (R230); with `clr`, CLVCNT becomes 0 and a TX_LONG run
counts again from 0 (R285). A thread frozen by TX_UNSTABLE is not resumed (R290), nor is one that is not frozen. A pending
JOBERR freezes it again at once (R385). -/
def State.resume (s : State) (tid : Tid) (clr : Bool) : State :=
  let t := s.thread tid
  match t.status.freeze? with
  | some f =>
    if f.cause = .TX_UNSTABLE then s
    else
      let t := if clr then { t with clvcnt := 0 } else t
      let t := if f.cause = .TX_LONG then { t with txn := t.txn.map (fun b => { b with retired := 0 }) } else t
      s.setThread tid { t with status := if s.roundDone t then .ready else .waiting .round }
  | none => s

/-! How an instruction ends. -/

/-- The ways an instruction ends without retiring. -/
inductive Stop where
  /-- A precise fault. -/
  | trap (f : Freeze)
  /-- The thread waits; the event named at the wait lets it go on. -/
  | wait (s : State) (w : Wait)
  /-- The page-fault path, on an address and access kind (R262). -/
  | page (va : Word) (kind : BitVec 2)
  /-- The thread has been taken off the instruction: a checked restart, an ending, a freeze of the whole launch. -/
  | leave (s : State)

/-- A precise fault with no address. -/
def trap {α : Type} (c : Cause) : Except Stop α := .error (.trap (Freeze.of c))
/-- A precise fault with information for the packet. -/
def trapInfo {α : Type} (c : Cause) (info : Word) : Except Stop α := .error (.trap ⟨c, 0, info, 0⟩)
/-- A precise fault at a data address. -/
def trapAt {α : Type} (c : Cause) (va : Word) (kind : BitVec 2) : Except Stop α := .error (.trap ⟨c, va, 0, kind⟩)
/-- Fault unless a condition holds. -/
def need (ok : Bool) (c : Cause) : Except Stop Unit := if ok then .ok () else trap c
/-- Fault at a data address unless a condition holds. -/
def needAt (ok : Bool) (c : Cause) (va : Word) (kind : BitVec 2) : Except Stop Unit := if ok then .ok () else trapAt c va kind

/-- The limit that stops an instruction when it would retire: CLEAVE_DISTANCE in a kernel thread, but for a CLEAVE (R382), and
TX_LONG in a transaction (R285). -/
def Thread.retireFault (t : Thread) (cleave : Bool) : Option Cause :=
  if t.bind.txn then
    match t.txn with
    | some b => if t.bind.txmax ≤ b.retired then some .TX_LONG else none
    | none => none
  else if !cleave && decide (t.bind.clvmax ≤ t.clvcnt) then some .CLEAVE_DISTANCE
  else none

/-- Retire: PC moves, CLVCNT, the count of the run (R285) and, at D2, of the quantum (R229) rise by 1. -/
def Thread.retire (t : Thread) (pc : Word) : Thread :=
  { t with pc := pc, clvcnt := t.clvcnt + 1, qended := false,
           qretired := if t.d2 && t.rebuild.isNone then t.qretired + 1 else t.qretired,
           txn := t.txn.map (fun b => { b with retired := b.retired + 1 }) }

/-- Retire an instruction of a thread, which is then ready; the QLEN-th instruction of a D2 quantum makes it wait for the end
of the quantum instead (R229). -/
def State.retire (s : State) (tid : Tid) (pc : Word) : State :=
  let t := (s.thread tid).retire pc
  if t.d2 && decide (t.bind.qlen ≤ t.qretired) then
    (s.setThread tid { t with status := .waiting .round }).post [.d2QuantumExpiry tid]
  else s.setThread tid { t with status := .ready }

/-- End the quantum of a D2 thread: its count rises, and the commit of the round is due (R229, R230). The instructions retired in a
quantum are counted from 0 here, so that a QUANT, BAR or BARARV, which ends a quantum before it retires, counts among those of the next
one, and a CLEAVE, which retires first, among those of the one it ends (DESIGN CHOICE, log entry 82). -/
def State.endQuantum (s : State) (tid : Tid) : State :=
  let t := s.thread tid
  let s := s.setThread tid { t with quanta := t.quanta + 1, qretired := 0, qended := true }
  s.post [.d2RoundCommit t.bind.lid (if t.bind.dgrp = 0 then 0 else t.bind.unit / t.bind.dgrp)]

/-- Before an instruction that ends the quantum before it is performed: a D2 thread whose quantum this instruction has not
ended yet ends it and waits for the round; the instruction is executed after the commit (R229, R230). A rebuild stub ends no
quantum, as a pre-emption never changes a slice's count of quanta (R229; log entry 15). -/
def quantumFirst (s : State) : Except Stop State :=
  if s.me.d2 && !s.me.qended && s.me.rebuild.isNone then .error (.wait (s.endQuantum s.cur) .round) else .ok s

/-- Put a thread into a wait; a pending pre-emption request looks, before anything else happens, whether the wait is a cleavage point
(R383). -/
def State.waitOn (s : State) (tid : Tid) (w : Wait) : State :=
  let s := s.upThread tid (fun t => { t with status := .waiting w })
  if (s.thread tid).preempt then s.urge [.contextFrameWrite tid] else s

/-- Enter the page-fault path (R262): the thread stops precisely, and it is looked at whether it waits in place or in a frame. -/
def State.pageWait (s : State) (tid : Tid) (va : Word) (kind : BitVec 2) : State :=
  (s.upThread tid (fun t => { t with status := .waiting (.pageFault va kind) })).post [.faultFrameWrite tid]

/-- The waits an instruction enters after it has had effects: the limit on retired instructions is tested before them. At every
other wait it is tested when the wait ends (log entry 10). -/
def Wait.early : Wait → Bool
  | .bar _ | .barwt _ | .vrtake _ | .vrtaket .. | .acquire | .queue .. => true
  | _ => false

/-- The end of an instruction of the current thread: its own faults come first, then the limit on retired instructions, then it
retires. -/
def settle (cleave : Bool) (s : State) (r : Except Stop (State × Word)) : Host.Outcome State Fault Refusal :=
  match r with
  | .error (.trap f) => .next (s.freeze s.cur f)
  | .error (.page va k) => .next (s.pageWait s.cur va k)
  | .error (.leave s') => .next s'
  | .error (.wait s' w) =>
    match if w.early then s.me.retireFault cleave else none with
    | some c => .next (s.freeze s.cur (Freeze.of c))
    | none => .next (s'.waitOn s.cur w)
  | .ok (s', pc) =>
    match s.me.retireFault cleave with
    | some c => .next (s.freeze s.cur (Freeze.of c))
    | none => .next (s'.retire s.cur pc)

/-- An instruction of `len` bytes that does not transfer control. -/
def seqInstr (len : Nat) (s : State) (r : Except Stop State) : Host.Outcome State Fault Refusal :=
  settle false s (r.map (fun s' => (s', s.me.pc + BitVec.ofNat 64 len)))

/-- A 32-bit instruction that does not transfer control. -/
def seq32 (s : State) (r : Except Stop State) : Host.Outcome State Fault Refusal := seqInstr 4 s r
/-- A 16-bit instruction. -/
def seq16 (s : State) (r : Except Stop State) : Host.Outcome State Fault Refusal := seqInstr 2 s r

/-- A guarded instruction that does not transfer control: with a false guard it retires without effect (R73). -/
def guarded (g : Guard) (s : State) (r : Except Stop State) : Host.Outcome State Fault Refusal :=
  seq32 s (if s.me.guard g then r else .ok s)

/-- A transfer to a target: MISALIGNED_PC, at the target, when it is odd (R29; log entry 56). -/
def transfer (s : State) (target : Word) : Except Stop (State × Word) :=
  if target.getLsbD 0 then trapAt .MISALIGNED_PC target 2 else .ok (s, target)

/-- A supervisor-only instruction (R25). -/
def needSup (s : State) : Except Stop Unit := need s.me.bind.sup .PRIV

/-- A wait entered after effects ends: the thread's registers change as the instruction says and it retires at the next
instruction, 4 bytes on. -/
def State.leaveWait (s : State) (tid : Tid) (f : Thread → Thread) : State :=
  let s := s.upThread tid f
  s.retire tid ((s.thread tid).pc + 4)

/-- A wait ends: unless the limit on retired instructions stops it, the instruction takes effect and retires. -/
def State.endWait (s : State) (tid : Tid) (eff : State → State) : State :=
  match (s.thread tid).retireFault false with
  | some c => s.freeze tid (Freeze.of c)
  | none => (eff s).leaveWait tid id

/-- A wait ends by executing the instruction again. -/
def State.again (s : State) (tid : Tid) : State := s.upThread tid (fun t => { t with status := .ready })

/-- An event that does not occur in this state changes nothing. -/
def noEvent (s : State) : Host.Outcome State Fault Refusal := .next s

end Sys2Proof.Machine
end

