-- ==== Sys2Proof/Machine/Memory.lean ====
section
/-! DEFINITION. Physical memory, the homes of lines (R208, R209), updates between dies (R428), translation at the memory side
(R251 to R258) and line grants (R205, R206). -/

namespace Sys2Proof.Machine

/-! Byte memories. An unlisted address reads as zero: no byte has been written there (log entry 4). -/

/-- What an unlisted address reads as. -/
def Memory.unlisted : Byte := 0

/-- The byte at an address. -/
def Memory.read : Memory → Nat → Byte
  | [], _ => Memory.unlisted
  | (b, v) :: r, a => if b = a then v else Memory.read r a

/-- Write one byte; the canonical form is kept: addresses rise, and an entry equal to the unlisted value is removed. -/
def Memory.write : Memory → Nat → Byte → Memory
  | [], a, v => if v = Memory.unlisted then [] else [(a, v)]
  | (b, w) :: r, a, v =>
    if a < b then (if v = Memory.unlisted then (b, w) :: r else (a, v) :: (b, w) :: r)
    else if b = a then (if v = Memory.unlisted then r else (a, v) :: r)
    else (b, w) :: Memory.write r a v

/-- Every address of a memory is above a bound, rising, and no entry is the unlisted value. -/
def Memory.wfFrom (lo : Nat) : Memory → Bool
  | [] => true
  | (a, v) :: r => decide (lo ≤ a) && v != Memory.unlisted && Memory.wfFrom (a + 1) r

/-- The canonical form. -/
def Memory.wf (m : Memory) : Bool := Memory.wfFrom 0 m

/-- Bytes a, a + 1, … -/
def Memory.bytes (m : Memory) (a n : Nat) : List Byte := tabulate n (fun i => m.read (a + i))
/-- The n-byte little-endian number at an address (R7). -/
def Memory.num (m : Memory) (a n : Nat) : Nat := leNat (m.bytes a n)
/-- Write bytes at a, a + 1, … -/
def Memory.writeBytes (m : Memory) (a : Nat) : List Byte → Memory
  | [] => m
  | b :: r => Memory.writeBytes (m.write a b) (a + 1) r
/-- Write cells in order. -/
def Memory.writeCells (m : Memory) (cs : List Host.Cell) : Memory := cs.foldl (fun m c => m.write c.1 c.2) m
/-- Write n zero bytes. -/
def Memory.zero (m : Memory) (a n : Nat) : Memory := m.filter (fun c => !(decide (a ≤ c.1) && decide (c.1 < a + n)))
/-- The cells of bytes at a, a + 1, … -/
def cellsAt (a : Nat) : List Byte → List Host.Cell
  | [] => []
  | b :: r => (a, b) :: cellsAt (a + 1) r

/-! Homes (R208, R209, R255). -/

/-- S of R208: 32 slices for each present die. -/
def State.slices (s : State) : Nat := 32 * s.presentDies.length

/-- Element bytes of a format: eb of R160, from the widths of R32. -/
def fmtBytes (f : Nat) : Nat :=
  if f ∈ [0x02, 0x03, 0x08, 0x09] then 2
  else if f ∈ [0x04, 0x05, 0x0A] then 4
  else if f ∈ [0x06, 0x07, 0x0B] then 8
  else 1

/-- Tile size of an array (R266). -/
def TileArray.tsz (t : TileArray) : Nat := fmtBytes t.fmt.toNat * 2 ^ (t.ltr + t.ltc)
/-- Tile rows and tile columns (R266). -/
def TileArray.ntr (t : TileArray) : Nat := t.rows / 2 ^ t.ltr
/-- Tile columns. -/
def TileArray.ntc (t : TileArray) : Nat := t.cols / 2 ^ t.ltc
/-- Bytes of the array. -/
def TileArray.size (t : TileArray) : Nat := t.ntr * t.ntc * t.tsz
/-- Address of a tile (R266). -/
def TileArray.tileVa (t : TileArray) (tr tc : Nat) : Nat := t.base + (tr * t.ntc + tc) * t.tsz

/-- An address of a line's tag lies in an array: in the array's own address space, or on a page of it that is mapped global, which
matches every address space (R207, R209). -/
def TileArray.holds (a : TileArray) (tag : Option (BitVec 16)) (va : Nat) : Bool :=
  decide (a.base ≤ va) && decide (va < a.base + a.size) && (tag == some a.asid || a.glob.contains (va / 65536))

/-- The key of an address of the array with an index (R269). -/
def TileArray.keyAt (a : TileArray) (ix va : Nat) : TileKey :=
  let q := (va - a.base) / a.tsz
  ⟨ix, q / a.ntc, q % a.ntc⟩

/-- The key of an address under a line's tag, if it lies in a registered array (R207, R209). -/
def State.tagKey (s : State) (tag : Option (BitVec 16)) (va : Nat) : Option TileKey :=
  (s.pkg.arrays.find? (fun e => e.2.holds tag va)).map (fun e => e.2.keyAt e.1 va)
/-- The key of an address of a thread: only an array registered for the thread's own address space maps it (R269). -/
def State.keyOf (s : State) (asid : BitVec 16) (va : Nat) : Option TileKey :=
  (s.pkg.arrays.find? (fun e => e.2.asid == asid && e.2.holds (some asid) va)).map (fun e => e.2.keyAt e.1 va)

/-- The slice of a tile key (R209). -/
def State.keySlice (s : State) (k : TileKey) : Nat :=
  fold48 (k.ta * 4294967296 + k.tr % 65536 * 65536 + k.tc % 65536) % s.slices

/-- The slice that an address leads to before it is translated: its tile's, or the fold of its address (R208, R209). -/
def State.vhome (s : State) (tag : Option (BitVec 16)) (va : Nat) : Nat :=
  match s.tagKey tag va with
  | some k => s.keySlice k
  | none => fold48 (va / 256 % 2 ^ 47) % s.slices

/-- The home slice of a line: the table home of a TBL page, whatever its address (R255), else its tile's, or the fold of its
address (R208, R209). -/
def State.home (s : State) (tag : Option (BitVec 16)) (va : Nat) (tbl : Bool) (pline : Nat) : Nat :=
  if tbl then fold48 pline % s.slices else s.vhome tag va

/-- The die that holds a slice: the m-th present die holds slices 32m to 32m + 31 (R208). -/
def State.sliceDie (s : State) (slice : Nat) : Nat := s.presentDies.getD (slice / 32) 0

/-- The channel of a stack that holds a physical line (R213). -/
def channelOf (pa : Nat) : Nat := (pa / 256 % 32) ^^^ (pa / 8192 % 32)

/-! Poison (R392). -/

/-- The marks of stores of z bytes after bytes are written: a half-sector or an L2 line stays poisoned until every byte of it has
been written (R392). -/
def poisonWritten {z : Nat} (p : Assoc (BitVec z)) (cells : List Host.Cell) : Assoc (BitVec z) :=
  if p.isEmpty then p
  else cells.foldl (fun p c =>
    match Assoc.find (c.1 / z) p with
    | some m =>
      let m := m &&& ~~~(1#z <<< (c.1 % z))
      if m = 0 then Assoc.erase (c.1 / z) p else Assoc.put (c.1 / z) m p
    | none => p) p
/-- Some mark stands on a store of z bytes that the n bytes at a physical address touch. -/
def poisonHits {z : Nat} (p : Assoc (BitVec z)) (pa n : Nat) : Bool :=
  p.any (fun e => decide (z * e.1 < pa + n) && decide (pa < z * e.1 + z))
/-- Some half-sector or L2 line of the n bytes at a physical address is poisoned. -/
def State.poisonedAt (s : State) (pa n : Nat) : Bool := poisonHits s.poison pa n || poisonHits s.lpoison pa n
/-- No mark stands on physical memory. -/
def State.unmarked (s : State) : Bool := s.poison.isEmpty && s.lpoison.isEmpty
/-- Mark an L2 line. -/
def State.poisonLine (s : State) (pline : Nat) : State := { s with lpoison := Assoc.put pline (BitVec.allOnes 256) s.lpoison }
/-- Mark the half-sectors that n bytes at a physical address touch. -/
def markHalves (p : Assoc (BitVec 64)) (pa n : Nat) : Assoc (BitVec 64) :=
  if n = 0 then p
  else (tabulate ((pa + n - 1) / 64 - pa / 64 + 1) (fun i => pa / 64 + i)).foldl (fun p i => Assoc.put i (BitVec.allOnes 64) p) p
/-- Mark the half-sectors of memory that n bytes at a physical address touch. -/
def State.poisonMark (s : State) (pa n : Nat) : State := { s with poison := markHalves s.poison pa n }
/-- The poisoned bytes of a physical line under marks of half-sectors and of lines (R392). -/
def lineMarks (half : Assoc (BitVec 64)) (whole : Assoc (BitVec 256)) (pline : Nat) : BitVec 256 :=
  if half.isEmpty && whole.isEmpty then 0
  else BitVec.ofNat 256 ((List.range 4).foldl (fun n i =>
    if poisonHits half (pline * 256 + 64 * i) 64 || poisonHits whole (pline * 256) 256 then n + (2 ^ 64 - 1) * 2 ^ (64 * i) else n) 0)
/-- Change bytes of physical memory. -/
def State.memWrite (s : State) (cells : List Host.Cell) : State :=
  { s with mem := s.mem.writeCells cells, poison := poisonWritten s.poison cells, lpoison := poisonWritten s.lpoison cells }

/-! Writes at a home, and the updates they issue (R428). -/

/-- A die drops its replicas and its fills of the lines named: a slice may drop a replica at any time (R210). -/
def Die.dropCopies (d : Die) (hit : Replica → Bool) : Die :=
  { d with replicas := d.replicas.filter (fun r => !hit r), fills := d.fills.filter (fun f => !hit f.1) }

/-- A write performed at a home slice on die h by a message from die `req` that carries a clock: the bytes change, the update is
stamped and sent to every other present die, and the writing die drops its own replica of each line written (R428, R430). The bytes
at the addresses `bad` carry a poison mark (R392). -/
def State.homeWriteWith (s : State) (carried : Vector (BitVec 48) 9) (req h : Nat) (cells : List Host.Cell) (bad : List Nat) : State :=
  let dh := s.die h
  let own := dh.vclk.toList.getD h 0 + 1
  let v := tabulate 9 (fun k => if k = h then own.toNat
    else Nat.max (carried.toList.getD k 0).toNat (dh.vclk.toList.getD k 0).toNat)
  let s := bad.foldl (fun s a => s.poisonMark a 1) (s.memWrite cells)
  let s := s.upDie h (fun d => { d with vclk := d.vclk.setIfInBounds h own })
  let others := s.presentDies.filter (fun d => d != h)
  let s := others.foldl (fun s d => s.upDie d (fun x => { x with updates := x.updates ++ [⟨h, v, cells, bad⟩] })) s
  let s := if req = h then s
    else s.upDie req (fun x => x.dropCopies (fun r => cells.any (fun c => c.1 / 256 == r.pline)))
  s.post (others.map (fun d => .updateApply d h))

/-- A write performed at a home as it leaves its die: it carries the die's clock (R428). -/
def State.homeWrite (s : State) (req h : Nat) (cells : List Host.Cell) : State :=
  s.homeWriteWith (s.die req).vclk req h cells []

/-! Translation (R251 to R258). -/

/-- A reserved bit of a PTE is set: [63:52] in every entry, [10:2] in a table entry, [28:16] in a large leaf (R254). -/
def pteReserved (level : Nat) (p : Word) : Bool :=
  field p 52 12 != 0 || (!p.getLsbD 1 && field p 2 9 != 0) || (p.getLsbD 1 && level == 2 && field p 16 13 != 0)

/-- A PTE that is not well formed at its level: BAD_PTE (R256). -/
def pteBad (level : Nat) (p : Word) : Bool :=
  pteReserved level p || (level == 1 && p.getLsbD 1) || (level == 3 && !p.getLsbD 1)
    || (p.getLsbD 1 && p.getLsbD 3 && !p.getLsbD 2)

/-- A leaf found by a walk: the entry, its address, and whether it maps a large page. -/
structure Leaf where
  pte : Word
  at_ : Nat
  large : Bool
  deriving DecidableEq, Repr

/-- The levels of a walk from a table, by fuel: 3 − level + 1 tables are left (R253, R256). Only the leaf's address is held against
the populated map: an entry beyond it is read as any byte that nothing has written (log entry 57). -/
def walkFrom (m : Memory) (va : Nat) : Nat → Nat → Nat → Except Cause Leaf
  | 0, _, _ => .error .BAD_PTE
  | fuel + 1, level, table =>
    let ix := if level = 1 then va / 2 ^ 42 % 8192 else if level = 2 then va / 2 ^ 29 % 8192 else va / 2 ^ 16 % 8192
    let a := table + 8 * ix
    let p : Word := BitVec.ofNat 64 (m.num a 8)
    if !p.getLsbD 0 then .error .PAGE_ABSENT
    else if pteBad level p then .error .BAD_PTE
    else if p.getLsbD 1 then .ok ⟨p, a, level == 2⟩
    else walkFrom m va fuel (level + 1) (field p 16 36 * 65536)

/-- The root table of an address space (R252). -/
def State.rootTable (s : State) (asid : BitVec 16) : Option Nat :=
  let logn := Nat.min (field s.pkg.astb 0 5) 16
  if 2 ^ logn ≤ asid.toNat then none
  else
    let e : Word := BitVec.ofNat 64 (s.mem.num (field s.pkg.astb 16 36 * 65536 + 8 * asid.toNat) 8)
    if !e.getLsbD 0 || field e 1 15 != 0 || field e 52 12 != 0 then none else some (field e 16 36 * 65536)

/-- A walk from the address-space table (R256, steps 1 and 2). -/
def State.walk (s : State) (asid : BitVec 16) (va : Nat) : Except Cause Leaf :=
  match s.rootTable asid with
  | none => .error .BAD_ASID
  | some t => walkFrom s.mem va 3 1 t

/-- The physical address a leaf gives (R253). -/
def leafPa (pte : Word) (large : Bool) (va : Nat) : Nat :=
  if large then field pte 29 23 * 2 ^ 29 + va % 2 ^ 29 else field pte 16 36 * 65536 + va % 65536

/-- A leaf's permission for an access (R256, step 3). -/
def pteAllows (pte : Word) (kind : AccessKind) (user : Bool) : Bool :=
  (match kind with | .read => pte.getLsbD 2 | .write => pte.getLsbD 3 | .fetch => pte.getLsbD 4)
    && (!user || pte.getLsbD 5)

/-- Memory channels of a die that are retired (R402). -/
def State.lostChannels (s : State) (d : Nat) : Nat :=
  (s.pkg.unitTab.filter (fun x => x.uid.cls == 2 && x.uid.die == d && x.lease == .retired && !x.failed)).length
/-- A physical address in the stack of a present die (R213), below the 2 GiB at its top for each retired channel (R402). -/
def State.paPopulated (s : State) (pa : Nat) : Bool :=
  decide (pa / 2 ^ 36 < 9) && s.presentDies.contains (pa / 2 ^ 36)
    && decide (pa % 2 ^ 36 < 2 ^ 36 - s.lostChannels (pa / 2 ^ 36) * 2 ^ 31)
/-- A physical address in the device range (R213). -/
def paDevice (pa : Nat) : Bool := decide (2 ^ 51 ≤ pa) && decide (pa < 2 ^ 52)
/-- First address of the debug windows (R376). -/
def windowBase : Nat := 2 ^ 51 + 0x1000000000
/-- The thread slot and offset of a debug-window address (R376). -/
def windowOf (pa : Nat) : Option (Tid × Nat) :=
  if windowBase ≤ pa ∧ pa < windowBase + 9 * 2 ^ 24 then
    let o := pa - windowBase
    some (⟨o / 2 ^ 24, o % 2 ^ 24 / 65536, o % 65536 / 8192⟩, o % 8192)
  else none

/-- What a grant carries: the physical line (its token), the global mark and the TBL mark. -/
structure Grant where
  pline : Nat
  global : Bool
  tbl : Bool
  deriving DecidableEq, Repr

/-- The access-space key of a page: none when it is mapped global (R207). -/
def spaceKey (asid : BitVec 16) (global : Bool) : Option (BitVec 16) := if global then none else some asid

/-- An L2 permission record that covers an access (R205). -/
def L2Rec.allows (r : L2Rec) (kind : AccessKind) (user : Bool) : Bool :=
  (match kind with | .read => r.r | .write => r.w | .fetch => r.x) && (!user || r.u)

/-- A tag matches an address space: its own, or the global mark (R207). -/
def tagMatches (tag : Option (BitVec 16)) (asid : BitVec 16) : Bool :=
  match tag with
  | none => true
  | some a => a == asid

/-- The L2 record of a line. -/
def State.l2Find (s : State) (asid : BitVec 16) (vline : Nat) : Option L2Rec :=
  s.pkg.l2.find? (fun r => r.vline == vline && tagMatches r.asid asid)

/-- Record a leaf for a line in the L2, replacing the record it had. Write permission is recorded only from a leaf with D = 1,
so that no write grant is given before D stands in memory (R257). A line of the device range is not held. -/
def State.l2Put (s : State) (asid : BitVec 16) (vline : Nat) (pte : Word) (large : Bool) : State :=
  let key := spaceKey asid (pte.getLsbD 6)
  if paDevice (leafPa pte large (vline * 256)) then s else
  let rec_ : L2Rec := ⟨key, vline, leafPa pte large (vline * 256) / 256, pte.getLsbD 2, pte.getLsbD 3 && pte.getLsbD 8,
    pte.getLsbD 4, pte.getLsbD 5, pte.getLsbD 10⟩
  s.upPkg (fun p => { p with l2 := rec_ :: p.l2.filter (fun r => !(r.vline == vline && r.asid == key)) })

/-- The TLB entry of a page, in the TLB beside the channel of the address's slice (R208, R257). The home of a TBL page's line is known
only when it has been translated (R255), so that its TLB, too, is that of the slice its address folds to (DESIGN CHOICE, log entry
71). -/
def State.tlbFind (s : State) (asid : BitVec 16) (va : Nat) : Option TlbEntry :=
  let slice := s.vhome (some asid) va
  s.pkg.tlb.find? (fun e => e.slice == slice && tagMatches e.asid asid
    && (if e.large then e.vpage == va / 2 ^ 29 else e.vpage == va / 2 ^ 16))

/-- Cache a leaf in the TLB beside the channel of the address's slice, replacing the entry of the same page (R208). -/
def State.tlbPut (s : State) (asid : BitVec 16) (va : Nat) (l : Leaf) : State :=
  let key := spaceKey asid (l.pte.getLsbD 6)
  let page := if l.large then va / 2 ^ 29 else va / 2 ^ 16
  let slice := s.vhome (some asid) va
  let old := s.pkg.tlb.filter (fun e => !(e.slice == slice && e.asid == key && e.large == l.large && e.vpage == page))
  s.upPkg (fun p => { p with tlb := ⟨slice, key, l.large, page, l.pte⟩ :: old })

/-- The walker's update of a leaf: A, and with a write grant D as well, by a write at the table home (R258). -/
def State.setAD (s : State) (l : Leaf) (write : Bool) : State × Leaf :=
  let pte := l.pte ||| (if write then 0x180#64 else 0x80#64)
  if pte = l.pte then (s, l)
  else
    let h := s.sliceDie (fold48 (l.at_ / 256) % s.slices)
    (s.homeWrite h h (cellsAt l.at_ (leBytes 8 pte.toNat)), { l with pte := pte })

/-- The checks of R256 steps 3 and 4 on a leaf. -/
def State.leafCheck (s : State) (pte : Word) (large : Bool) (va : Nat) (kind : AccessKind) (user : Bool) : Option Cause :=
  if !pteAllows pte kind user then some .PERM
  else
    let pa := leafPa pte large va
    if s.paPopulated pa || (paDevice pa && !user) then none else some .PA_RANGE

/-- The package id, PODCFG (R441). -/
def State.pkgId (s : State) : Nat := field s.pkg.podcfg 0 10

/-- An address lies in an array registered for its address space whose tiles this package holds (R269, R443). -/
def State.ownTile (s : State) (asid : BitVec 16) (va : Nat) : Bool :=
  s.pkg.arrays.any (fun e => e.2.owner == s.pkgId && e.2.asid == asid && e.2.holds (some asid) va)

/-- The cause of a refused walk at an address. A line of a registered array never takes the page-fault path in the package that owns it
(R265, R443), so that its absent page is an entry that is not well formed there: BAD_PTE (DESIGN CHOICE, log entry 57). -/
def State.walkCause (s : State) (asid : BitVec 16) (va : Nat) (c : Cause) : Cause :=
  if c = .PAGE_ABSENT ∧ s.ownTile asid va = true then .BAD_PTE else c

/-- A walk that serves a grant: the leaf's checks, A and D, the TLB entry and the L2 record (R256 to R258). This is the
completed walk of the row TABLE_WALK_COMPLETE. A walk that refuses sets no bit (log entry 57). -/
def State.walkGrant (s : State) (asid : BitVec 16) (va : Nat) (kind : AccessKind) (user : Bool) : Except Cause (State × Grant) :=
  match s.walk asid va with
  | .error c => .error (s.walkCause asid va c)
  | .ok l =>
    match s.leafCheck l.pte l.large va kind user with
    | some c => .error c
    | none =>
      let (s, l) := s.setAD l (kind == .write)
      let s := (s.tlbPut asid va l).l2Put asid (va / 256) l.pte l.large
      .ok (s, ⟨leafPa l.pte l.large va / 256, l.pte.getLsbD 6, l.pte.getLsbD 10⟩)

/-- A TLB entry that can serve a grant: permission, and D = 1 for a write grant (R257). -/
def State.tlbServes (s : State) (e : TlbEntry) (va : Nat) (kind : AccessKind) (user : Bool) : Bool :=
  (s.leafCheck e.pte e.large va kind user).isNone && (kind != .write || e.pte.getLsbD 8)

/-- A replica on a die gives a read grant, under the permission it copied from the home (R205, R210). -/
def State.replicaGrant (s : State) (d : Nat) (asid : BitVec 16) (va : Nat) (user : Bool) : Option Grant :=
  if 2 ^ 55 ≤ va then none
  else ((s.die d).replicas.find? (fun r => r.vline == va / 256 && tagMatches r.asid asid && (!user || r.user))).map
    (fun r => ⟨r.pline, r.asid.isNone, false⟩)

/-- A line grant at the home slice (R205, R206, R256): PERM for a wide address, then the L2 record, then the TLB, then a walk.
This is the row LINE_GRANT_REQUEST. -/
def State.grant (s : State) (asid : BitVec 16) (va : Nat) (kind : AccessKind) (user : Bool) : Except Cause (State × Grant) :=
  if 2 ^ 55 ≤ va then .error .PERM
  else
    match (s.l2Find asid (va / 256)).filter (fun r => r.allows kind user) with
    | some r => .ok (s, ⟨r.pline, r.asid.isNone, r.tbl⟩)
    | none =>
      match (s.tlbFind asid va).filter (fun e => s.tlbServes e va kind user) with
      | some e =>
        .ok (s.l2Put asid (va / 256) e.pte e.large, ⟨leafPa e.pte e.large va / 256, e.pte.getLsbD 6, e.pte.getLsbD 10⟩)
      | none => s.walkGrant asid va kind user

/-- The access kind's code in a frame (R378). -/
def kindCode : AccessKind → BitVec 2
  | .read => 0 | .write => 1 | .fetch => 2

/-- A grant at the home slice for an access of the current thread: PAGE_ABSENT takes the page-fault path and every other refusal
freezes (R262), each with the access's own kind. -/
def grantFor (s : State) (va : Nat) (kind access : AccessKind) : Except Stop (State × Grant) :=
  match s.grant s.me.bind.asid va kind (!s.me.bind.sup) with
  | .ok r => .ok r
  | .error c =>
    if c = .PAGE_ABSENT then .error (.page (BitVec.ofNat 64 va) (kindCode access))
    else trapAt c (BitVec.ofNat 64 va) (kindCode access)

/-- A grant of one kind for the current thread's data access at the home slice. -/
def grantHome (s : State) (va : Nat) (kind : AccessKind) : Except Stop (State × Grant) := grantFor s va kind kind

/-- The upgrade of a line held for one kind of access to a grant of both, which the home gives (R205, R210). -/
def grantBoth (s : State) (va : Nat) (access : AccessKind) : Except Stop (State × Grant) := do
  let (s, _) ← grantFor s va .read access
  grantFor s va .write access

/-- A grant for the current thread's data access: a read may be granted by a replica of its die (R205, R210), every other grant
comes from the home. -/
def grantData (s : State) (va : Nat) (kind : AccessKind) : Except Stop (State × Grant) :=
  match if kind = .read then s.replicaGrant s.cur.die s.me.bind.asid va (!s.me.bind.sup) else none with
  | some g => .ok (s, g)
  | none => grantHome s va kind

/-- A grant for an engine's access, under the job's address space and level: the cause when refused (R205). -/
def State.engineGrant (s : State) (asid : BitVec 16) (sup : Bool) (va : Nat) (kind : AccessKind) : Except Cause (State × Grant) :=
  s.grant asid va kind (!sup)

/-! Replica fills (R210, R430). -/

/-- An entry of a die's clock. -/
def Die.count (d : Die) (k : Nat) : Nat := (d.vclk.toList.getD k 0).toNat

/-- The L2 record of a line and the slice of its home, unless the line is never replicated: one of a tile array or of a TBL page, or
one without an L2 record that gives reading. -/
def State.replicaHome (s : State) (tag : Option (BitVec 16)) (vline : Nat) : Option (L2Rec × Nat) :=
  match s.tagKey tag (vline * 256), s.pkg.l2.find? (fun r => r.vline == vline && r.asid == tag) with
  | none, some r => if r.tbl || !r.r then none else some (r, s.home tag (vline * 256) false r.pline)
  | _, _ => none

/-- Poisoned bytes of a physical line (R392). -/
def State.homePoison (s : State) (pline : Nat) : BitVec 256 := lineMarks s.poison s.lpoison pline
/-- Poisoned bytes of a replica (R392). -/
def Replica.marks (r : Replica) : BitVec 256 := lineMarks r.half r.whole r.pline

/-- A fill of a line read at its home now: the line, its permissions and marks, and the home die's clock (R430). -/
def State.fillOf (s : State) (r : L2Rec) (home : Nat) : Replica × List Nat :=
  (⟨home % 32, r.asid, r.vline, r.pline, BitVec.ofNat 2048 (s.mem.num (r.pline * 256) 256), r.u,
      s.poison.filter (fun e => e.1 / 4 == r.pline), s.lpoison.filter (fun e => e.1 == r.pline)⟩,
    tabulate 9 ((s.die (s.sliceDie home)).count))

/-- A replica of a line stands on a die. -/
def Die.hasReplica (d : Die) (tag : Option (BitVec 16)) (vline : Nat) : Bool :=
  d.replicas.any (fun q => q.vline == vline && q.asid == tag)

/-- A read of a line that another die is the home of may bring a fill to the reading die, which waits to be installed (R210, R430);
the spec leaves open whether it does. Where no replica served the read, it was served from the home, and a fill read before it is
dropped, since a later read must not find an older value (R218). -/
def State.startFill (s : State) (d : Nat) (tag : Option (BitVec 16)) (vline : Nat) : State :=
  match s.replicaHome tag vline with
  | none => s
  | some (r, h) =>
    let go := s.sliceDie h != d && !(s.die d).hasReplica tag vline && Config.chosen .fillSent s.fresh vline
    let kept := fun (x : Die) =>
      if x.hasReplica tag vline then x.fills else x.fills.filter (fun f => !(f.1.vline == vline && f.1.asid == tag))
    let s := s.upDie d (fun x => { x with fills := kept x ++ if go then [s.fillOf r h] else [] })
    s.post (if go then [.replicaFillInstall d (tag.getD 0) (BitVec.ofNat 64 (vline * 256))] else [])

/-- Read n bytes at their home slices for an agent that holds no cache, line by line under single-use grants, by fuel (R205). -/
def State.homeBytes (s : State) (asid : BitVec 16) (sup : Bool) : Nat → Nat → Nat → Except Cause (State × List Byte)
  | 0, _, _ => .ok (s, [])
  | f + 1, va, n =>
    if n = 0 then .ok (s, [])
    else do
      let k := Nat.min n (256 - va % 256)
      let (s, g) ← s.engineGrant asid sup va .read
      if paDevice (g.pline * 256) then .error .PA_RANGE
      else do
        let bs := s.mem.bytes (g.pline * 256 + va % 256) k
        let (s, r) ← State.homeBytes s asid sup f (va + k) (n - k)
        .ok (s, bs ++ r)

/-- The offsets of the poisoned bytes among n bytes at a virtual address, at their homes, line by line, by fuel (R392). -/
def State.virtPoison (s : State) (asid : BitVec 16) (sup : Bool) : Nat → Nat → Nat → List Nat
  | 0, _, _ => []
  | f + 1, va, n =>
    if n = 0 || s.unmarked then []
    else
      let k := Nat.min n (256 - va % 256)
      let here := match s.engineGrant asid sup va .read with
        | .ok (_, g) => (List.range k).filter (fun i => s.poisonedAt (g.pline * 256 + va % 256 + i) 1)
        | .error _ => []
      here ++ (State.virtPoison s asid sup f (va + k) (n - k)).map (· + k)

/-- The lines that a write of bytes reaches, each with the die of its home and its cells, under single-use write grants, by fuel
(R205). -/
def State.homeCells (s : State) (asid : BitVec 16) (sup : Bool) : Nat → Nat → List Byte → Except Cause (State × List (Nat × List Host.Cell))
  | 0, _, _ => .ok (s, [])
  | f + 1, va, bs =>
    if bs.isEmpty then .ok (s, [])
    else do
      let k := Nat.min bs.length (256 - va % 256)
      let (s, g) ← s.engineGrant asid sup va .write
      if paDevice (g.pline * 256) then .error .PA_RANGE
      else do
        let w := (s.sliceDie (s.home (some asid) va g.tbl g.pline), cellsAt (g.pline * 256 + va % 256) (bs.take k))
        let (s, r) ← State.homeCells s asid sup f (va + k) (bs.drop k)
        .ok (s, w :: r)

end Sys2Proof.Machine
end

