-- ==== Sys2Proof/Machine/Frame.lean ====
section
/-! DEFINITION. Register images: tensor and circular-buffer handles as bits (R15, R17), the 256-byte header and the 8 KiB
thread image that fault frames, context frames and debug windows share (R263, R378), and accesses to a debug window (R376,
R377, R379). -/

namespace Sys2Proof.Machine

/-- The 256 bits of a tensor handle (R15). -/
def TensorHandle.toBits (h : TensorHandle) : BitVec 256 :=
  0#38 ++ h.tareg ++ h.spoff ++ h.cur ++ h.ltc ++ h.ltr ++ h.stride ++ h.cols ++ h.rows ++ 0#3 ++ h.fmt
    ++ (if h.space then 1#1 else 0#1) ++ h.base

/-- The tensor handle that 256 bits give; reserved bits are ignored (R6, R15). -/
def TensorHandle.ofBits (x : BitVec 256) : TensorHandle where
  base := x.extractLsb' 0 55
  space := x.getLsbD 55
  fmt := x.extractLsb' 56 5
  rows := x.extractLsb' 64 16
  cols := x.extractLsb' 80 16
  stride := x.extractLsb' 96 32
  ltr := x.extractLsb' 128 4
  ltc := x.extractLsb' 132 4
  cur := x.extractLsb' 136 32
  spoff := x.extractLsb' 168 40
  tareg := x.extractLsb' 208 10

/-- The 128 bits of a circular-buffer handle (R17). -/
def CbHandle.toBits (c : CbHandle) : BitVec 128 :=
  0#60 ++ c.fill ++ c.tail ++ c.head ++ c.count ++ c.slotsz ++ 0#1 ++ c.base

/-- The circular-buffer handle that 128 bits give; reserved bits are ignored (R17). -/
def CbHandle.ofBits (x : BitVec 128) : CbHandle where
  base := x.extractLsb' 0 19
  slotsz := x.extractLsb' 20 16
  count := x.extractLsb' 36 8
  head := x.extractLsb' 44 8
  tail := x.extractLsb' 52 8
  fill := x.extractLsb' 60 8

/-- The banks a thread owns, with the cluster whose MXE holds each: (cluster, bank, its state) (R303, R401). -/
def State.ownedBanks (s : State) (tid : Tid) : List (Nat × Nat × BankState) :=
  s.clusters.flatMap (fun e =>
    (List.range 8).filterMap (fun b =>
      let st := e.2.banks.toList.getD b BankState.cleared
      if st.owner = some tid then some (e.1, b, st) else none))

/-- An 8-bit map of the owned banks that satisfy a test. -/
def bankMap (l : List (Nat × Nat × BankState)) (f : BankState → Bool) : Nat :=
  (List.range 8).foldl (fun n b => if l.any (fun e => e.2.1 == b && f e.2.2) then n + 2 ^ b else n) 0

/-- The 7-bit map of the slots that hold a block. -/
def Thread.slotMap (t : Thread) : Nat := bitsNat (t.slots.toList.map Option.isSome)
/-- p1–p7 in bits [7:1] of a byte (R378). -/
def Thread.pByte (t : Thread) : Nat := 2 * bitsNat (t.p.toList.drop 1)

/-- WAIT and WARG of a header: the implicit point a thread waits at (R378). -/
def Thread.waitFields (t : Thread) : Nat × Nat :=
  match t.status with
  | .waiting (.bar g) => (1, g)
  | .waiting (.barwt g) => (2, g)
  | .waiting (.vrtake n) => (3, n.toNat)
  | .waiting (.vrtaket _ n) => (4, n.toNat)
  | .waiting (.ldfe _ a _ _ _) => (5, a)
  | .waiting (.lrwait _ l) => (6, l.toNat)
  | .waiting (.job .cle id) => (7, id.toNat)
  | .waiting (.drain _ _ _ w a) => (w, a)
  | _ => (0, 0)

/-- The faulting address, cause and access kind of a frozen thread, or of one on the page-fault path (R378). -/
def Thread.faultFields (t : Thread) : Nat × Nat :=
  match t.status with
  | .frozen f => (f.va.toNat, f.cause.code + 256 * f.kind.toNat)
  | .waiting (.pageFault va k) => (va.toNat, Cause.PAGE_ABSENT.code + 256 * k.toNat)
  | _ => (0, 0)

/-- The fields of a header that only frames hold (R378). -/
structure FrameOnly where
  kind : Nat
  live : Nat
  cont : Nat
  cidx : Nat
  size : Nat
  deriving DecidableEq, Repr

/-- The fields a debug window shows in their place. -/
def FrameOnly.window : FrameOnly := ⟨3, 0, 0, 0, 0⟩

/-- The 256-byte header of R378. -/
def Thread.header (t : Thread) (banks : List (Nat × Nat × BankState)) (f : FrameOnly) : List Byte :=
  let w := t.waitFields
  let e := t.faultFields
  leBytes 8 t.pc.toNat ++ leBytes 8 t.fpm.toNat ++ leBytes 8 t.fpf.toNat ++ leBytes 8 t.clvcnt ++ leBytes 8 t.rkcfg.toNat
    ++ leBytes 1 t.pByte ++ leBytes 1 t.ldq.length ++ leBytes 1 t.sdq.length ++ leBytes 1 t.slotMap
    ++ leBytes 1 (bankMap banks (fun _ => true)) ++ leBytes 1 (bankMap banks (·.inuse)) ++ leBytes 1 (bankMap banks (·.dirty))
    ++ leBytes 1 f.kind ++ leBytes 8 e.1 ++ leBytes 8 e.2 ++ leBytes 8 f.live ++ leBytes 8 f.cont ++ leBytes 4 f.cidx
    ++ leBytes 4 w.1 ++ leBytes 8 w.2 ++ leBytes 8 t.mxerr.toNat ++ leBytes 8 t.rkerr.toNat ++ leBytes 8 t.bterr.toNat
    ++ leBytes 8 t.colerr.toNat ++ leBytes 8 t.joberr.toNat ++ leBytes 8 f.size ++ leBytes 1 (bankMap banks (·.poison))
    ++ leBytes 111 0

/-- The 512 bytes of a block. -/
def blockBytes (b : Block) : List Byte := b.toList.flatMap (fun v => leBytes 128 v.toNat)

/-- The first 8 KiB of a fault frame (R263); an empty slot's bytes are shown as zero, and queue entries beyond the occupancy
as zero. -/
def Thread.image (t : Thread) (banks : List (Nat × Nat × BankState)) (f : FrameOnly) : List Byte :=
  t.header banks f
    ++ (tabulate 32 (fun i => leBytes 8 (t.rs (Fin.ofNat 32 i)).toNat)).flatten
    ++ (tabulate 8 (fun i => leBytes 16 (t.rm (Fin.ofNat 8 i)).toNat)).flatten
    ++ (t.c.toList.map (fun c => leBytes 16 c.toBits.toNat)).flatten
    ++ (t.h.toList.map (fun h => leBytes 32 h.toBits.toNat)).flatten
    ++ (tabulate 8 (fun i => leBytes 128 (t.ldq.getD i 0).toNat)).flatten
    ++ (tabulate 8 (fun i => leBytes 128 (t.sdq.getD i 0).toNat)).flatten
    ++ (t.slots.toList.map (fun b => match b with | some b => blockBytes b | none => leBytes 512 0)).flatten
    ++ leBytes 1280 0

/-- Replace eight bytes of a number of `n` bytes, from byte `o`. -/
def patch8 (n : Nat) (old : Nat) (o : Nat) (v : Word) : Nat :=
  leNat ((leBytes n old).take o ++ leBytes 8 v.toNat ++ (leBytes n old).drop (o + 8))

/-- Replace an entry of a list. -/
def setAt {α : Type} (l : List α) (i : Nat) (v : α) : List α := l.set i v

/-- What RKCFG holds after a write: CUT above 65,536 is stored as 65,536, bits [31:18] are reserved (R325). -/
def rkcfgStore (v : Word) : Word :=
  let cut : BitVec 17 := if 65536 < field v 0 17 then 65536 else v.extractLsb' 0 17
  v.extractLsb' 32 32 ++ 0#14 ++ v.extractLsb' 17 1 ++ cut

/-- A write of eight bytes to the state bytes of a frozen thread's window (R377). Writes to read-only fields, s0, m0, empty
slots and absent queue entries are ignored. Another instruction at PC has ended no quantum yet (R229). -/
def Thread.windowWrite (t : Thread) (off : Nat) (v : Word) : Thread :=
  if off = 0x00 then { t with pc := v, qended := t.qended && t.pc == v }
  else if off = 0x08 then { t with fpm := v.extractLsb' 0 6 }
  else if off = 0x10 then { t with fpf := v.extractLsb' 0 5 }
  else if off = 0x20 then { t with rkcfg := rkcfgStore v }
  else if off = 0x28 then { t with p := Vector.ofFn (fun i => if i = 0 then false else v.getLsbD i.val) }
  else if 0x100 ≤ off ∧ off < 0x200 then t.ws (Fin.ofNat 32 ((off - 0x100) / 8)) v
  else if 0x200 ≤ off ∧ off < 0x280 then
    let r : MReg := Fin.ofNat 8 ((off - 0x200) / 16)
    t.wm r (BitVec.ofNat 128 (patch8 16 (t.rm r).toNat ((off - 0x200) % 16) v))
  else if 0x280 ≤ off ∧ off < 0x300 then
    let r : CReg := Fin.ofNat 8 ((off - 0x280) / 16)
    t.wc r (CbHandle.ofBits (BitVec.ofNat 128 (patch8 16 (t.rc r).toBits.toNat ((off - 0x280) % 16) v)))
  else if 0x300 ≤ off ∧ off < 0x500 then
    let r : HReg := Fin.ofNat 16 ((off - 0x300) / 32)
    t.wh r (TensorHandle.ofBits (BitVec.ofNat 256 (patch8 32 (t.rh r).toBits.toNat ((off - 0x300) % 32) v)))
  else if 0x500 ≤ off ∧ off < 0x900 then
    let i := (off - 0x500) / 128
    { t with ldq := setAt t.ldq i (BitVec.ofNat 1024 (patch8 128 (t.ldq.getD i 0).toNat ((off - 0x500) % 128) v)) }
  else if 0x900 ≤ off ∧ off < 0xD00 then
    let i := (off - 0x900) / 128
    { t with sdq := setAt t.sdq i (BitVec.ofNat 1024 (patch8 128 (t.sdq.getD i 0).toNat ((off - 0x900) % 128) v)) }
  else if 0xD00 ≤ off ∧ off < 0x1B00 then
    let n := (off - 0xD00) / 512
    let j := (off - 0xD00) % 512 / 128
    match t.slots.toList.getD n none with
    | some b =>
      let old := b.toList.getD j 0
      let new : VReg := BitVec.ofNat 1024 (patch8 128 old.toNat ((off - 0xD00) % 128) v)
      { t with slots := t.slots.setIfInBounds n (some (b.setIfInBounds j new)) }
    | none => t
  else t

/-- DSTAT (R377): STATE and CAUSE. -/
def Thread.dstat (t : Thread) : Word :=
  match t.status with
  | .frozen f => BitVec.ofNat 64 (1 + 256 * f.cause.code)
  | .resuming f => BitVec.ofNat 64 (2 + 256 * f.cause.code)
  | _ => 0

/-- Read eight bytes of a window (R377): a thread that is not frozen shows zero state bytes; DCTL is write-only and reads 0;
other bytes read 0. -/
def State.windowRead (s : State) (t : Tid) (off : Nat) : Word :=
  let th := s.thread t
  if off = 0x1B00 then th.dstat
  else if off < 0x1B00 then
    match th.status with
    | .frozen _ => BitVec.ofNat 64 (leNat (((th.image (s.ownedBanks t) FrameOnly.window).drop off).take 8))
    | _ => 0
  else 0

/-- A write of DCTL (R379). On a frozen thread it acts at once, so that a later write finds the thread not frozen: RESUME leaves it
resuming until it goes on (R377), and does nothing after TX_UNSTABLE (R290); TERMINATE takes it out of its slice, or condemns its
launch. PREEMPT sets a pending request on a running kernel thread; at an implicit point it takes effect at once (R383). -/
def State.dctlWrite (s : State) (t : Tid) (v : Word) : State :=
  let th := s.thread t
  match th.status with
  | .frozen f =>
    if field v 0 2 = 1 then
      if f.cause = .TX_UNSTABLE then s
      else (s.setThread t { th with status := .resuming f }).post [.dctlResume t (v.getLsbD 2)]
    else if field v 0 2 = 2 then
      if v.getLsbD 3 then (s.setThread t { th with status := .waiting .condemned }).urge [.dctlTerminateLaunch t]
      else (s.setThread t { th with status := .waiting .terminated }).post [.dctlTerminateSlice t]
    else s
  | .ready | .waiting _ =>
    if field v 0 2 = 3 ∧ th.bind.txn = false then (s.setThread t { th with preempt := true }).urge [.dctlPreempt t] else s
  | _ => s

/-- Write eight bytes of a window (R377, R379): state bytes of a frozen thread change at once, which is when it is next read. -/
def State.windowWrite (s : State) (t : Tid) (off : Nat) (v : Word) : State :=
  if off < 0x1B00 then
    match (s.thread t).status with
    | .frozen _ => s.upThread t (fun x => x.windowWrite off v)
    | _ => s
  else if off = 0x1B08 then s.dctlWrite t v
  else s

end Sys2Proof.Machine
end

