-- ==== Sys2Proof/Machine/CoreMem.lean ====
section
/-! DEFINITION. The CORE access path: scratchpad and full-empty bits (R18, R19, R22, R199, R211), transaction staging (R274,
R283, R284), the L1 and its lines (R202 to R206), the D2 commit buffer (R229), releases and acquires (R220), and the access
to global memory of a thread's instruction. -/

namespace Sys2Proof.Machine

/-! Scratchpad. -/

/-- Scratchpad bytes of a core (R199). -/
def Core.scratchSize (c : Core) : Nat := 524288 - c.l1q.toNat * 65536

/-- Scratch bytes n at an offset, as a number. -/
def Core.scratchNum (c : Core) (a n : Nat) : Nat := c.scratch.num a n
/-- The poison marks of scratch words after bytes a to a + n − 1 are written: a word stays poisoned until every byte of it has
been written (R392). -/
def wordsWritten (p : Assoc (BitVec 8)) (a n : Nat) : Assoc (BitVec 8) :=
  p.filterMap (fun e =>
    let left := BitVec.ofNat 8 (bitsNat ((List.range 8).map (fun i =>
      e.2.getLsbD i && !(decide (a ≤ 8 * e.1 + i) && decide (8 * e.1 + i < a + n)))))
    if left = 0 then none else some (e.1, left))
/-- Write scratch bytes; full-empty bits keep their values (R19). -/
def Core.scratchWrite (c : Core) (a : Nat) (bs : List Byte) : Core :=
  { c with scratch := c.scratch.writeBytes a bs, poison := wordsWritten c.poison a bs.length }
/-- Some scratch word of the bytes a to a + n − 1 is poisoned. -/
def Core.poisonedAt (c : Core) (a n : Nat) : Bool :=
  c.poison.any (fun e => decide (8 * e.1 < a + n) && decide (a < 8 * e.1 + 8))
/-- Mark the scratch words that bytes a to a + n − 1 touch as poisoned. -/
def Core.poisonMark (c : Core) (a n : Nat) : Core :=
  if n = 0 then c
  else
    let hit := tabulate ((a + n - 1) / 8 - a / 8 + 1) (fun i => a / 8 + i)
    { c with poison := hit.foldl (fun p i => Assoc.put i (BitVec.allOnes 8) p) c.poison }

/-- Insert into a rising list of numbers. -/
def insertNat (x : Nat) : List Nat → List Nat
  | [] => [x]
  | y :: r => if x < y then x :: y :: r else if x = y then y :: r else y :: insertNat x r

/-- The full-empty bit of a granule. -/
def Core.full (c : Core) (g : Nat) : Bool := c.fe.contains g
/-- Set a granule's bit. -/
def Core.setFull (c : Core) (g : Nat) : Core := { c with fe := insertNat g c.fe }
/-- Clear a granule's bit. -/
def Core.clearFull (c : Core) (g : Nat) : Core := { c with fe := c.fe.filter (· != g) }
/-- The granules that the bytes a to a + n − 1 touch. -/
def granulesOf (a n : Nat) : List Nat :=
  if n = 0 then [] else tabulate ((a + n - 1) / 16 - a / 16 + 1) (fun i => a / 16 + i)
/-- A thread uses a poisoned value: what follows (R392) is due before anything else. -/
def State.useBy (s : State) (t : Tid) : State := s.urge [.ueConsumption (.used ⟨0, t.die, t.core⟩)]
/-- A waiting thread uses a poisoned value as its wait ends. -/
def State.consumeBy (s : State) (t : Tid) : State := (s.useBy t).upThread t (fun x => { x with status := .waiting .poison })
/-- The current thread uses a poisoned value: a load into a register of it is a use (R392; log entry 22), and the instruction does not
complete. -/
def consume {α : Type} (s : State) : Except Stop α := .error (.wait (s.useBy s.cur) .poison)
/-- Go on unless the value read is poisoned. -/
def unpoisoned (s : State) (bad : Bool) : Except Stop Unit := if bad then consume s else .ok ()

/-- An engine's write to a scratchpad: the bytes, then the bits of the granules they touch (R19, R211). -/
def Core.engineWrite (c : Core) (a : Nat) (bs : List Byte) : Core :=
  (granulesOf a bs.length).foldl (fun c g => c.setFull g) (c.scratchWrite a bs)

/-- A granule that a lock manager pushes arrives in a scratchpad, with its poison mark (R280, R392). -/
def Core.pushGranule (c : Core) (a : Nat) (bs : List Byte) (bad : Bool) : Core :=
  let c := c.engineWrite a bs
  if bad then c.poisonMark a bs.length else c

/-- Every thread of a core that waits on a granule can look again. -/
def State.feEvents (s : State) (c : Nat) : State :=
  s.post ((List.range 8).filterMap (fun n =>
    let t : Tid := ⟨c / 256, c % 256, n⟩
    match (s.thread t).status with
    | .waiting (.ldfe ..) => some (.ldfeWaitEnd t)
    | _ => none))

/-- The threads of a core whose granules a thread has filled can look again, and so can those of its second copy's core. -/
def State.feTold (s : State) (t : Tid) : State := ((s.copiesOf t).map (·.coreKey)).foldl State.feEvents (s.feEvents t.coreKey)

/-- The staging window of a core: the top W bytes of its scratchpad (R274). -/
def State.stagingBase (s : State) (c : Nat) : Nat :=
  let size := (s.core c).scratchSize
  let want := Nat.max (s.die (c / 256)).txstg.toNat 1 * 4096
  size - Nat.min want (size - 4096)

/-- Every byte a to a + n − 1 lies in one of the spans (base, length), by fuel: the span that holds byte a is passed first. -/
def covered (spans : List (Nat × Nat)) : Nat → Nat → Nat → Bool
  | 0, _, n => n == 0
  | f + 1, a, n =>
    n == 0 || (match spans.find? (fun x => decide (x.1 ≤ a) && decide (a < x.1 + x.2)) with
      | some x => covered spans f (x.1 + x.2) (a + n - (x.1 + x.2))
      | none => false)

/-- A thread's own staging (R274), base and length: the area of its real run, or the copies its pass has placed. -/
def State.ownSpans (s : State) (b : TxnBinding) : List (Nat × Nat) :=
  if b.recon then b.slots.toList.filterMap (fun x => x.map (fun k =>
    (k.off, match Assoc.find k.key.ta s.pkg.arrays with | some r => r.tsz | none => 0)))
  else [(b.stgBase, b.stgNeed)]

/-- Bytes all of which lie in a thread's own staging (R274). -/
def State.ownStaging (s : State) (t : Thread) (a n : Nat) : Bool :=
  match t.txn with
  | some b => covered (s.ownSpans b) (s.ownSpans b).length a n
  | none => false

/-- A thread's staging granules are waited for (R283): those of its own area that are not full. -/
def State.stagingHold (s : State) (tid : Tid) (a n : Nat) : Bool :=
  let t := s.thread tid
  t.bind.txn && (granulesOf a n).any (fun g => s.ownStaging t (16 * g) 16 && !(s.core tid.coreKey).full g)

/-- A CORE-path scratch access of a transaction thread to the staging window outside its own area: TX_STAGE (R274). -/
def State.stageBad (s : State) (a n : Nat) : Bool :=
  let b := Nat.max a (s.stagingBase s.cur.coreKey)
  s.me.bind.txn && decide (b < a + n) && !s.ownStaging s.me b (a + n - b)

/-- The scratch checks every access shares, in the order of R116: SCRATCH_RANGE; KWIN_WRITE for a user-level write to bytes
0x000–0x3FF; TX_STAGE; then the wait for staging granules (R283). Each fault carries the access's scratch address (log entry 56). -/
def scratchCheck (s : State) (a n : Nat) (write : Bool) : Except Stop Unit := do
  let va := BitVec.ofNat 64 a
  let kind := if write then 1 else 0
  needAt (decide (a + n ≤ s.myCore.scratchSize)) .SCRATCH_RANGE va kind
  needAt (!(write && !s.me.bind.sup && decide (a < 0x400))) .KWIN_WRITE va kind
  needAt (!s.stageBad a n) .TX_STAGE va kind
  if s.stagingHold s.cur a n then .error (.wait s .staging) else .ok ()

/-- Load n scratch bytes. -/
def scratchLoad (s : State) (a n : Nat) : Except Stop Nat := do
  scratchCheck s a n false
  unpoisoned s (s.myCore.poisonedAt a n)
  .ok (s.myCore.scratchNum a n)

/-- Store n scratch bytes; full-empty bits are unchanged (R19). -/
def scratchStore (s : State) (a n v : Nat) : Except Stop State := do
  scratchCheck s a n true
  .ok (s.upScratch s.cur (fun at_ c => c.scratchWrite (at_ a) (leBytes n v)))

/-! The L1. -/

/-- The index of the L1 line that holds an address (R207). -/
def Core.lineIx (c : Core) (asid : BitVec 16) (va : Nat) : Option Nat :=
  c.l1.findIdx? (fun l => l.vline == va / 256 && tagMatches l.asid asid)

/-- The line at an index. -/
def Core.lineAt (c : Core) (i : Nat) : L1Line := c.l1.getD i ⟨none, 0, false, false, 0, 0, 0, 0, 0, []⟩

/-- The mask of n bytes from byte o of a line. -/
def byteMask (o n : Nat) : Nat := (2 ^ n - 1) * 2 ^ o

/-- The dirty bytes of a line as cells of physical memory. -/
def L1Line.dirtyCells (l : L1Line) : List Host.Cell :=
  (List.range 256).filterMap (fun i =>
    if l.dirty.getLsbD i then some (l.pline * 256 + i, l.data.extractLsb' (8 * i) 8) else none)

/-- Bytes with the given dirty bits replace those of `new`. -/
def mergeBytes (dirty : BitVec 256) (old new : BitVec 2048) : BitVec 2048 :=
  let m : BitVec 2048 := BitVec.ofNat 2048
    ((List.range 256).foldl (fun acc i => if dirty.getLsbD i then acc + 255 * 2 ^ (8 * i) else acc) 0)
  (old &&& m) ||| (new &&& ~~~m)

/-- The physical addresses of a line's poisoned bytes among those with the given bits. -/
def L1Line.poisonedBytes (l : L1Line) (among : BitVec 256) : List Nat :=
  if l.poison &&& among = 0 then []
  else (List.range 256).filterMap (fun i => if (l.poison &&& among).getLsbD i then some (l.pline * 256 + i) else none)

/-- Write a line's dirty bytes to its home through its token and clear their bits (R203, R206); poison goes with them (R392). -/
def State.writeBackLine (s : State) (c : Nat) (i : Nat) : State :=
  let l := (s.core c).lineAt i
  if l.dirty = 0 then s
  else
    let h := s.sliceDie (s.home l.asid (l.vline * 256) false l.pline)
    let s := s.homeWriteWith (s.die (c / 256)).vclk (c / 256) h l.dirtyCells (l.poisonedBytes l.dirty)
    s.upCore c (fun k => { k with l1 := k.l1.set i { l with dirty := 0, writers := [] } })

/-- Write back every dirty byte of a core's L1. -/
def State.writeBackAll (s : State) (c : Nat) : State :=
  (List.range (s.core c).l1.length).foldl (fun s i => s.writeBackLine c i) s

/-- Evict a line: its dirty bytes go home, then it is dropped. -/
def State.evictLine (s : State) (c : Nat) (i : Nat) : State :=
  (s.writeBackLine c i).upCore c (fun k => { k with l1 := k.l1.eraseIdx i })

/-- Lines that an L1 of this quota holds. -/
def Core.capacity (c : Core) : Nat := c.l1q.toNat * 256

/-- Make room for a line: when the L1 is full, one line, which the spec does not choose, is evicted. -/
def State.makeRoom (s : State) (c : Nat) : State :=
  let k := s.core c
  if k.l1.length < k.capacity then s
  else { s.evictLine c (Config.pick s.fresh % k.l1.length) with fresh := s.fresh + 1 }

/-- The 256 bytes of a line as a die sees them for reading: its replica's, or the home's (R210). -/
def State.lineData (s : State) (d : Nat) (asid : BitVec 16) (vline pline : Nat) : BitVec 2048 :=
  match (s.die d).replicas.find? (fun r => r.vline == vline && r.pline == pline && tagMatches r.asid asid) with
  | some r => r.data
  | none => BitVec.ofNat 2048 (s.mem.num (pline * 256) 256)

/-- The poisoned bytes of a line as a die reads it: the marks its replica carries, or the home's (R392). -/
def State.linePoison (s : State) (d : Nat) (asid : BitVec 16) (vline pline : Nat) : BitVec 256 :=
  match (s.die d).replicas.find? (fun r => r.vline == vline && r.pline == pline && tagMatches r.asid asid) with
  | some r => r.marks
  | none => s.homePoison pline

/-- Sector 0 or 1 of each byte range: the valid bits an access to n bytes at offset o needs. -/
def sectorsOf (o n : Nat) : BitVec 2 := (if o < 128 then 1 else 0) ||| (if 128 < o + n then 2 else 0)

/-- The mask of a sector set in line data. -/
def sectorMask (v : BitVec 2) : BitVec 2048 :=
  (if v.getLsbD 0 then BitVec.ofNat 2048 (2 ^ 1024 - 1) else 0) |||
    (if v.getLsbD 1 then BitVec.ofNat 2048 ((2 ^ 1024 - 1) * 2 ^ 1024) else 0)

/-- Fetch the invalid sectors among `want` into a line; dirty bytes keep their L1 value (R203). This is the row SECTOR_FILL. -/
def State.fillSectors (s : State) (c : Nat) (i : Nat) (asid : BitVec 16) (want : BitVec 2) : State :=
  let l := (s.core c).lineAt i
  let need := want &&& ~~~l.valid
  if need = 0 then s
  else
    let src := s.lineData (c / 256) asid l.vline l.pline
    let m := sectorMask need
    let merged := mergeBytes l.dirty l.data ((src &&& m) ||| (l.data &&& ~~~m))
    let got : BitVec 256 := (if need.getLsbD 0 then BitVec.ofNat 256 (2 ^ 128 - 1) else 0) |||
      (if need.getLsbD 1 then BitVec.ofNat 256 ((2 ^ 128 - 1) * 2 ^ 128) else 0)
    let bad := (l.poison &&& ~~~(got &&& ~~~l.dirty)) ||| (s.linePoison (c / 256) asid l.vline l.pline &&& got &&& ~~~l.dirty)
    (s.upCore c (fun k => { k with l1 := k.l1.set i { l with data := merged, valid := l.valid ||| need, poison := bad } })).startFill
      (c / 256) l.asid l.vline

/-- The line of an access, allocated or upgraded to the grant it needs (R205): answers its index, or none when the access takes
a single-use grant (L1Q = 0, a TBL page, a device address). A store to a line held only for reading, and a load that must fetch a
sector of a line held only for writing, ask for an upgrade to both. -/
def lineFor (s : State) (va n : Nat) (kind : AccessKind) : Except Stop (State × Grant × Option Nat) :=
  let c := s.cur.coreKey
  let asid := s.me.bind.asid
  let k := s.core c
  let want := sectorsOf (va % 256) n
  match k.lineIx asid va with
  | some i =>
    let l := k.lineAt i
    let held : Grant := ⟨l.pline, l.asid.isNone, false⟩
    let enough := match kind with
      | .write => l.wr
      | _ => l.rd || (l.wr && (want &&& ~~~l.valid) == 0)
    if enough then .ok (s, held, some i)
    else do
      let (s, g) ← grantBoth s va kind
      let l' := { l with rd := true, wr := true, pline := g.pline }
      .ok (s.upCore c (fun k => { k with l1 := k.l1.set i l' }), g, some i)
  | none => do
    let (s, g) ← grantData s va kind
    if k.l1q = 0 || g.tbl || paDevice (g.pline * 256) then .ok (s, g, none)
    else
      let s := s.makeRoom c
      let l : L1Line := ⟨spaceKey asid g.global, va / 256, kind != .write, kind == .write, g.pline, 0, 0, 0, 0, []⟩
      .ok (s.upCore c (fun k => { k with l1 := k.l1 ++ [l] }), g, some (s.core c).l1.length)

/-- An address of a debug window, of a present die or an absent one (R376). -/
def inWindows (pa : Nat) : Bool := decide (windowBase ≤ pa) && decide (pa < windowBase + 16 * 2 ^ 24)

/-- The core of a slot is not inside a containment that has not ended: a message addressed to it is refused (R412). -/
def State.windowReachable (s : State) (t : Tid) : Bool :=
  !s.pkg.unitTab.any (fun x => x.uid == ⟨0, t.die, t.core⟩ && x.contained && x.lease != .inService)

/-- An access to a device-range address (R213, R376): an 8-byte aligned LD or ST reaches a debug window of a present die; any other
access to a window, or one of an absent die or into a contained rectangle (R412), is refused with PA_RANGE. Elsewhere in the range
the access reaches a device register that the spec does not name: none (log entry 29). -/
def deviceWindow (s : State) (va pa : Nat) (n : Nat) (kind : AccessKind) (ldst : Bool) : Except Stop (Option (Tid × Nat)) :=
  if inWindows pa then
    match windowOf pa with
    | some (t, off) =>
      if ldst && n == 8 && off % 8 == 0 && s.presentDies.contains t.die && s.windowReachable t then .ok (some (t, off))
      else trapAt .PA_RANGE (BitVec.ofNat 64 va) (kindCode kind)
    | none => trapAt .PA_RANGE (BitVec.ofNat 64 va) (kindCode kind)
  else .ok none

/-- What a load of n bytes finds at a device-range address: a window's bytes, or, at a register the spec does not name, a free
value (log entry 29). -/
def State.deviceLoad (s : State) (w : Option (Tid × Nat)) (n : Nat) : Nat :=
  match w with
  | some (t, off) => (s.windowRead t off).toNat
  | none => (Config.word s.fresh).toNat % 2 ^ (8 * n)

/-- A thread's store at a device-range address: to a debug window, where a RESUME is a release at die scope of the writer's earlier
accesses (R379); a register the spec does not name changes nothing that the spec describes (log entry 29). -/
def State.deviceStore (s : State) (w : Option (Tid × Nat)) (v : Word) : State :=
  match w with
  | some (t, off) => (if off = 0x1B08 ∧ field v 0 2 = 1 then s.writeBackAll s.cur.coreKey else s).windowWrite t off v
  | none => s

/-- Read n bytes of global memory through the L1 or by a single-use grant, within one line: the value, and the places in the line of
those of its bytes that are poisoned (R392). -/
def l1Read (s : State) (va n : Nat) (ldst : Bool) : Except Stop (State × Nat × BitVec 256) := do
  let (s, g, ix) ← lineFor s va n .read
  let here := BitVec.ofNat 256 (byteMask (va % 256) n)
  match ix with
  | some i =>
    let s := s.fillSectors s.cur.coreKey i s.me.bind.asid (sectorsOf (va % 256) n)
    let l := s.myCore.lineAt i
    .ok (s, (l.data.extractLsb' (8 * (va % 256)) (8 * n)).toNat, l.poison &&& here)
  | none =>
    let pa := g.pline * 256 + va % 256
    if paDevice pa then do
      let w ← deviceWindow s va pa n .read ldst
      .ok (s, s.deviceLoad w n, 0)
    else if g.tbl then .ok (s, s.mem.num pa n, s.homePoison g.pline &&& here)
    else
      .ok (s.startFill s.cur.die (spaceKey s.me.bind.asid g.global) (va / 256),
        (s.lineData s.cur.die s.me.bind.asid (va / 256) g.pline).toNat / 2 ^ (8 * (va % 256)) % 2 ^ (8 * n),
        s.linePoison s.cur.die s.me.bind.asid (va / 256) g.pline &&& here)

/-- Read n bytes of global memory as `l1Read` does; a poisoned byte among them is consumed (R392). -/
def l1Load (s : State) (va n : Nat) (ldst : Bool) : Except Stop (State × Nat) := do
  let (s, v, bad) ← l1Read s va n ldst
  unpoisoned s (bad != 0)
  .ok (s, v)

/-- What can refuse a global read of n bytes, without the read: its grant, and the window it reaches (R150). -/
def readNeed (s : State) (va n : Nat) (ldst : Bool) : Except Stop State := do
  let (s, g, ix) ← lineFor s va n .read
  let pa := g.pline * 256 + va % 256
  if ix.isNone && paDevice pa then do
    let _ ← deviceWindow s va pa n .read ldst
    .ok s
  else .ok s

/-- Write n bytes of global memory within one line under a grant that is held: into the L1 line at an index, or at the home. -/
def storeGranted (s : State) (va n v : Nat) (ldst : Bool) (g : Grant) (ix : Option Nat) : Except Stop State :=
  match ix with
  | some i =>
    let o := va % 256
    let l := s.myCore.lineAt i
    let m : BitVec 2048 := BitVec.ofNat 2048 (byteMask (8 * o) (8 * n))
    let data := (l.data &&& ~~~m) ||| BitVec.ofNat 2048 (v % 2 ^ (8 * n) * 2 ^ (8 * o))
    let here := BitVec.ofNat 256 (byteMask o n)
    let w := (s.me.bind.lid, s.me.bind.unit)
    let l' := { l with data := data, dirty := l.dirty ||| here, poison := l.poison &&& ~~~here, writers := l.writers.filter (· != w) ++ [w] }
    .ok (s.upMyCore (fun k => { k with l1 := k.l1.set i l' }))
  | none =>
    let pa := g.pline * 256 + va % 256
    if paDevice pa then do
      let w ← deviceWindow s va pa n .write ldst
      .ok (s.deviceStore w (BitVec.ofNat 64 v))
    else
      let h := s.sliceDie (s.home (some s.me.bind.asid) va g.tbl g.pline)
      .ok (s.homeWrite s.cur.die h (cellsAt pa (leBytes n v)))

/-- Write n bytes of global memory into the L1, or at the home under a single-use grant, within one line. -/
def l1Store (s : State) (va n v : Nat) (ldst : Bool) : Except Stop State := do
  let (s, g, ix) ← lineFor s va n .write
  storeGranted s va n v ldst g ix

/-- What can refuse a global write of n bytes, without the write: its grant, which is answered, and the window it reaches (R150). -/
def writeNeed (s : State) (va n : Nat) (ldst : Bool) : Except Stop (State × Grant) := do
  let (s, g, ix) ← lineFor s va n .write
  let pa := g.pline * 256 + va % 256
  if ix.isNone && paDevice pa then do
    let _ ← deviceWindow s va pa n .write ldst
    .ok (s, g)
  else .ok (s, g)

/-! The D2 commit buffer (R229). -/

/-- The entry of a granule. -/
def d2Find (b : List D2Entry) (g : Nat) : Option D2Entry := b.find? (fun e => e.gran == g)

/-- Put bytes into the buffer: byte i of granule g takes byte i of `data` where `mask` is set. -/
def d2Put (b : List D2Entry) (e : D2Entry) : List D2Entry :=
  match b with
  | [] => [e]
  | x :: r =>
    if x.gran = e.gran then
      let m : BitVec 128 := BitVec.ofNat 128
        ((List.range 16).foldl (fun acc i => if e.mask.getLsbD i then acc + 255 * 2 ^ (8 * i) else acc) 0)
      { x with mask := x.mask ||| e.mask, data := (x.data &&& ~~~m) ||| (e.data &&& m), pgran := e.pgran, tbl := e.tbl } :: r
    else x :: d2Put r e

/-- The byte that the buffer holds for an address. -/
def d2Byte (b : List D2Entry) (a : Nat) : Option Byte :=
  (d2Find b (a / 16)).bind (fun e => if e.mask.getLsbD (a % 16) then some (e.data.extractLsb' (8 * (a % 16)) 8) else none)

/-- The bytes of n bytes at va that the buffer holds replace those of v (R27). -/
def d2Overlay (b : List D2Entry) (va n v : Nat) : Nat :=
  leNat (tabulate n (fun i => (d2Byte b (va + i)).getD (BitVec.ofNat 8 (v / 2 ^ (8 * i)))))

/-- The places in the line of those of n bytes at va that the buffer holds. -/
def d2Held (b : List D2Entry) (va n : Nat) : BitVec 256 :=
  BitVec.ofNat 256 (bitsNat (tabulate n (fun i => (d2Byte b (va + i)).isSome)) * 2 ^ (va % 256))

/-- Bytes that a direct store has written leave the D2 commit buffer, so that an earlier buffered store neither hides nor overwrites
them (R27; log entry 17). -/
def d2Forget (b : List D2Entry) (va n : Nat) : List D2Entry :=
  (b.map (fun e =>
    let hit := BitVec.ofNat 16 (bitsNat (tabulate 16 (fun i => decide (va ≤ e.gran * 16 + i) && decide (e.gran * 16 + i < va + n))))
    { e with mask := e.mask &&& ~~~hit })).filter (fun e => e.mask != 0)

/-- The current thread's commit buffer after n bytes at va have been stored directly. -/
def State.forgetBytes (s : State) (va n : Nat) : State :=
  if s.me.d2buf.isEmpty then s else s.upMe (fun t => { t with d2buf := d2Forget t.d2buf va n })

/-- The entries of the buffer that a store of n bytes at va would add. -/
def d2New (b : List D2Entry) (va n : Nat) : Nat :=
  ((granulesOf va n).filter (fun g => (d2Find b g).isNone)).length

/-- A plain store of a D2 thread enters the buffer: it takes its write grant now, so that its translation faults are precise
(R116; log entry 14), and its bytes wait for the commit of the round. The caller has made sure of room (R229). A store to an address
of the device range, a debug window's too, is performed at once: it has no line that a commit could write (DESIGN CHOICE, log
entry 29). -/
def d2Store (s : State) (va n v : Nat) (ldst : Bool) : Except Stop State := do
  let (s, g) ← grantData s va .write
  let pa := g.pline * 256 + va % 256
  if paDevice pa then do
    let w ← deviceWindow s va pa n .write ldst
    .ok (s.deviceStore w (BitVec.ofNat 64 v))
  else
    let put := fun (b : List D2Entry) (gr : Nat) =>
      let bytes := (List.range 16).map (fun i =>
        let a := gr * 16 + i
        if va ≤ a ∧ a < va + n then (true, v / 2 ^ (8 * (a - va)) % 256) else (false, 0))
      d2Put b ⟨gr, some (pa / 16 + gr - va / 16), g.tbl, BitVec.ofNat 16 (bitsNat (bytes.map Prod.fst)),
        BitVec.ofNat 128 (leNat (bytes.map (fun x => BitVec.ofNat 8 x.2)))⟩
    .ok (s.upMe (fun t => { t with d2buf := (granulesOf va n).foldl put t.d2buf }))

/-- The cells of a buffer entry at a physical granule. -/
def D2Entry.cells (e : D2Entry) (pgran : Nat) : List Host.Cell :=
  (List.range 16).filterMap (fun i =>
    if e.mask.getLsbD i then some (pgran * 16 + i, e.data.extractLsb' (8 * i) 8) else none)

/-- The entry takes a new grant when a purge has taken its token (R206); its bytes are discarded when that grant is refused (log
entry 14). -/
def State.d2Token (s : State) (tid : Tid) (e : D2Entry) : Option (State × Nat × Bool) :=
  match e.pgran with
  | some p => some (s, p, e.tbl)
  | none =>
    match s.grant (s.thread tid).bind.asid (e.gran * 16) .write (!(s.thread tid).bind.sup) with
    | .ok (s, g) => if paDevice (g.pline * 256) then none else some (s, g.pline * 16 + e.gran % 16, g.tbl)
    | .error _ => none

/-- Commit one entry at its home slice (R230). The thread's core writes back and drops its own copy of the line first: its dirty
bytes are older in program order (R218), and its clean ones would hide the commit (R27). -/
def State.commitEntry (s : State) (tid : Tid) (e : D2Entry) : State :=
  let asid := (s.thread tid).bind.asid
  let s := match (s.core tid.coreKey).lineIx asid (e.gran * 16) with
    | some i => s.evictLine tid.coreKey i
    | none => s
  match s.d2Token tid e with
  | some (s, p, tbl) => s.homeWrite tid.die (s.sliceDie (s.home (some asid) (e.gran * 16) tbl (p / 16))) (e.cells p)
  | none => s

/-- Commit a thread's buffer at the home slices and empty it (R230). -/
def State.commitBuffer (s : State) (tid : Tid) : State :=
  ((s.thread tid).d2buf.foldl (fun s e => s.commitEntry tid e) s).upThread tid (fun t => { t with d2buf := [] })

/-! Global accesses of an instruction. -/

/-- The staging copy of a key in a thread's set. -/
def TxnBinding.copyOf (b : TxnBinding) (k : TileKey) : Option SetSlot :=
  b.slots.toList.findSome? (fun x => x.filter (fun y => y.key == k))

/-- Which staging byte holds a global byte of a tile in the set: answers the scratch offset. -/
def State.stagedAt (s : State) (b : TxnBinding) (asid : BitVec 16) (va : Nat) : Option (Option Nat) :=
  (s.keyOf asid va).map (fun k =>
    match b.copyOf k, Assoc.find k.ta s.pkg.arrays with
    | some c, some a => some (c.off + (va - a.base) % a.tsz)
    | _, _ => none)

end Sys2Proof.Machine
end

