-- ==== Sys2Proof/Machine/Sched.lean ====
section
/-! DEFINITION. The scheduler's shared operations: cores and clusters in service (R172, R398), launch states and the launch
graph (R168, R169), freeing a slot with its blocks and banks (R30, R182, R303), the end of slices and launches (R30, R415),
placement (R172, R174), and stack regions (R166). -/

namespace Sys2Proof.Machine

/-! Units (R394 to R398). -/

/-- The status of a unit; a unit not listed is in service with score 0. -/
def State.unitOf (s : State) (u : UnitId) : UnitStatus :=
  (s.pkg.unitTab.find? (fun x => x.uid == u)).getD ⟨u, 0, .inService, false, 0, false, false, false, false⟩
/-- Replace a unit's status. -/
def State.setUnit (s : State) (x : UnitStatus) : State :=
  s.upPkg (fun p => { p with unitTab := x :: p.unitTab.filter (fun y => y.uid != x.uid) })
/-- A unit is in service: neither leased nor retired. -/
def State.unitUp (s : State) (u : UnitId) : Bool := (s.unitOf u).lease == .inService
/-- A core is in service. -/
def State.coreUp (s : State) (c : Nat) : Bool := s.unitUp ⟨0, c / 256, c % 256⟩

/-- The die-local cores of a cluster, in THID.CPOS order (R23, R22). -/
def coresOfCluster (k : Nat) : List Nat :=
  tabulate 8 (fun p => (k / 4 * 2 + p / 4) * 16 + k % 4 * 4 + p % 4)
/-- A die-local core's position in its cluster (R23). -/
def cposOf (core : Nat) : Nat := core % 16 % 4 + 4 * (core / 16 % 2)
/-- The ring order of a die's clusters (R174): rows alternately left to right and right to left. -/
def ringOrder : List Nat :=
  (List.range 8).flatMap (fun r => tabulate 4 (fun i => if r % 2 = 0 then 4 * r + i else 4 * r + 3 - i))
/-- The cluster that follows a cluster in ring order. -/
def nextInRing (k : Nat) : Nat :=
  let i := (ringOrder.findIdx? (· == k)).getD 0
  ringOrder.getD ((i + 1) % 32) 0
/-- The MXE, RSU and BTU that serve a cluster's new submissions: its own, or while those are leased the next cluster's in ring
order (R401). -/
def State.serving (s : State) (cl : Nat) : Nat :=
  if s.unitUp ⟨1, cl / 32, cl % 32⟩ then cl else cl / 32 * 32 + nextInRing (cl % 32)

/-- A cluster is available when at least six of its eight cores are in service (R172). -/
def State.clusterAvail (s : State) (d k : Nat) : Bool :=
  decide (6 ≤ ((coresOfCluster k).filter (fun c => s.coreUp (d * 256 + c))).length)
/-- The available clusters of a die. -/
def State.availClusters (s : State) (d : Nat) : Nat := ((List.range 32).filter (s.clusterAvail d)).length

/-! Jobs outstanding. -/

/-- Every job of a core's queues. -/
def Core.jobs (c : Core) : List Job := c.mxq ++ c.rsq ++ c.btq ++ c.clq
/-- A thread has a job that has not completed. -/
def State.hasJobs (s : State) (t : Tid) : Bool := (s.core t.coreKey).jobs.any (fun j => j.owner == t)
/-- A thread has a job that has not completed and writes or names a bank. -/
def State.bankBusy (s : State) (t : Tid) (cl b : Nat) : Bool :=
  (s.core t.coreKey).mxq.any (fun j => j.owner == t && j.cl == cl && j.bank == some (Fin.ofNat 8 b))

/-! Freeing. -/

/-- A bank of a cluster's MXE. -/
def State.bank (s : State) (cl b : Nat) : BankState := (s.cluster cl).banks.toList.getD b BankState.cleared
/-- Change a bank. -/
def State.upBank (s : State) (cl b : Nat) (f : BankState → BankState) : State :=
  s.upCluster cl (fun k => { k with banks := k.banks.setIfInBounds b (f (k.banks.toList.getD b BankState.cleared)) })
/-- Return a bank to the cleared state, owned by nobody (R303, R304). -/
def State.clearBank (s : State) (cl b : Nat) : State :=
  s.upBank cl b (fun _ => BankState.cleared)
/-- Free a bank once no job of its owner names it; until then its release is pending (R303). -/
def State.releaseBank (s : State) (t : Tid) (cl b : Nat) : State :=
  if s.bankBusy t cl b then
    s.upBank cl b (fun x => { x with releasing := true })
  else s.clearBank cl b
/-- Free every bank a thread owns, on whichever MXE (R303). -/
def State.freeBanks (s : State) (t : Tid) : State :=
  (s.ownedBanks t).foldl (fun s e => s.releaseBank t e.1 e.2.1) s
/-- The blocks a thread holds above its reserve (R180). -/
def Thread.sharedBlocks (t : Thread) : Nat :=
  ((t.slots.toList.drop t.bind.reserve).filter Option.isSome).length
/-- Give blocks back to a core's shared part; the FIFO is then served, before anything else happens (R181). -/
def State.giveBlocks (s : State) (c n : Nat) : State :=
  let s := s.upCore c (fun k => { k with freeBlocks := k.freeBlocks + n })
  if (s.core c).fifo.isEmpty then s else s.urge [.vrClaimGrant c]
/-- Some slot of a core holds or is reserved for a thread. -/
def State.coreBusy (s : State) (c : Nat) : Bool :=
  (List.range 8).any (fun n => (s.thread ⟨c / 256, c % 256, n⟩).status != .free)
/-- Free one slot: its shared blocks return, unless it is a resumer whose claim was not granted; its staging area is released, its
place in the FIFO is lost, its banks are freed, and a core without threads has no resident launch. The spec does not say when a
launch stops being resident on a core (R21): here it is when no thread holds a slot of the core, so that the same launch coming back
fills the window anew (DESIGN CHOICE, log entry 58). -/
def State.freeOneSlot (s : State) (t : Tid) : State :=
  let n := if (s.thread t).status == .waiting .resumer then 0 else (s.thread t).sharedBlocks
  let s := s.freeBanks t
  let s := s.setThread t Thread.reset
  let s := s.upCore t.coreKey (fun k =>
    { k with
      fifo := k.fifo.filter (fun x => x.tnum != t.tnum)
      staging := k.staging.filter (fun x => x.1 != t.tnum)
      done := k.done.filter (fun j => j.owner != t) })
  let s := s.giveBlocks t.coreKey n
  if s.coreBusy t.coreKey then s else s.upCore t.coreKey (fun k => { k with resident := none })

/-- Free a thread's slot, and that of its second copy when it is paired. -/
def State.freeSlot (s : State) (t : Tid) : State :=
  (s.shadowsOf t).foldl (fun s x => s.freeOneSlot x) (s.freeOneSlot t)

/-! Launches. -/

/-- STATE of R168. -/
def LState.code : LState → Nat
  | .waiting => 0 | .ready => 1 | .running => 2 | .complete => 3 | .partialEnd => 4 | .failed => 5 | .refused => 6
  | .expired => 7
/-- A final state (R168). -/
def LState.final : LState → Bool
  | .complete | .partialEnd | .failed | .refused | .expired => true
  | _ => false
/-- REASON codes of R168 and R415. -/
def reasonFault : Nat := 9

/-- The LID layout of a launch sequence number armed here (R164). -/
def State.lidWord (s : State) (seq : Nat) : Word := BitVec.ofNat 64 (seq + s.pkgId * 2 ^ 54)

/-- A final status is no longer held once 65,536 further launch ids have been issued (R168). -/
def Launch.expired (l : Launch) (lastLid : Nat) : Bool := l.state.final && decide (65536 ≤ lastLid - l.endedAt)

/-- The status word of a launch id (R168, R198): a foreign or unissued id, or one whose status is no longer held, reads EXPIRED. REASON
shows the reason of the first failed slice or transaction while the launch is still READY or RUNNING, of which the spec says nothing
(DESIGN CHOICE, log entry 74). -/
def State.statusWord (s : State) (lid : Word) : Word :=
  if field lid 54 10 != s.pkgId then 7
  else
    match s.launch? (field lid 0 54) with
    | some l => if l.expired s.pkg.lastLid then 7 else BitVec.ofNat 64 (l.state.code + l.reason * 256)
    | none => 7

/-- Threads that wait in LRWAIT can look again, and a packet's signal word is due (R198, R354). -/
def State.wakeWaiters (s : State) (lid : Nat) : State :=
  let ts := s.boundTids.filterMap (fun t => match (s.thread t).status with
    | .waiting (.lrwait _ l) => if field l 0 54 = lid then some (Instr.lrwaitEnd t) else none
    | _ => none)
  let sig := match s.launch? lid with
    | some l => if l.signal.isSome then [Instr.launchSignalWrite lid] else []
    | none => []
  s.post (ts ++ sig)

/-- KIND of a record: a transaction launch. -/
def LaunchRec.isTxn (r : LaunchRec) : Bool := field r.ctl 0 2 == 1
/-- DET, DOMAIN, RESERVE and other CTL fields (R165). -/
def LaunchRec.det (r : LaunchRec) : Nat := field r.ctl 3 2
/-- DOMAIN. -/
def LaunchRec.level (r : LaunchRec) : Nat := field r.ctl 5 3
/-- RESERVE. -/
def LaunchRec.reserve (r : LaunchRec) : Nat := field r.ctl 23 3
/-- RESTART. -/
def LaunchRec.restart (r : LaunchRec) : Bool := r.ctl.getLsbD 9
/-- GANG. -/
def LaunchRec.gangBit (r : LaunchRec) : Bool := r.ctl.getLsbD 10
/-- PAIRED. -/
def LaunchRec.paired (r : LaunchRec) : Bool := r.ctl.getLsbD 8
/-- Barrier groups. -/
def LaunchRec.groups (r : LaunchRec) : Nat :=
  if r.groupSize = 0 then 0 else (r.nslice + r.groupSize - 1) / r.groupSize
/-- The slices of a group, first and past last (R163). -/
def LaunchRec.groupSpan (r : LaunchRec) (g : Nat) : Nat × Nat :=
  (g * r.groupSize, Nat.min ((g + 1) * r.groupSize) r.nslice)

/-! RN batches (R275, R434, R446). -/

/-- A launch uses the pod RN space when the arrays of its slots are of pod scope (R446); a reconnaissance launch takes the scope of
the array that slot 0 names (R444), the package's when none is registered there. -/
def State.launchPod (s : State) (l : Launch) : Bool :=
  l.record.isTxn && l.record.txset.any (fun x => x.mode != 0 &&
    (match Assoc.find (field x.ta 0 10) s.pkg.arrays with | some a => a.pod | none => false))

/-- Rank of a die among the present ones (R434). -/
def State.dieRank (s : State) (d : Nat) : Nat := (s.presentDies.findIdx? (· == d)).getD 0
/-- The pod has other packages (PODCFG.NPKG, R441). -/
def State.inPod (s : State) : Bool := decide (1 < field s.pkg.podcfg 10 11)
/-- Packages of the pod. -/
def State.podSize (s : State) : Nat := field s.pkg.podcfg 10 11
/-- The other packages of the pod (R441). -/
def State.podOthers (s : State) : List Nat := if s.inPod then (List.range s.podSize).filter (· != s.pkgId) else []
/-- Present dies of a package of the pod (R3): another's are open, 1 to 9 (log entry 21). -/
def State.diesIn (s : State) (p : Nat) : Nat := if p = s.pkgId then s.presentDies.length else 1 + Config.podDies p % 9
/-- Present dies of the packages of a pod from one id to below another: those before a package rank before its own (R445). -/
def State.diesFrom (s : State) (a b : Nat) : Nat := (tabulate (b - a) (fun i => s.diesIn (a + i))).foldl (· + ·) 0
/-- The sequencers of a space before this package's, and all of them: S (R434, R445). -/
def State.seqSpan (s : State) (pod : Bool) : Nat × Nat :=
  let n := s.presentDies.length
  if pod && s.inPod then
    (s.diesFrom 0 s.pkgId, s.diesFrom 0 s.pkgId + n + s.diesFrom (s.pkgId + 1) s.podSize)
  else (0, n)
/-- Send a message to another package. -/
def State.sendPod (s : State) (p : Nat) (m : PodMsg) : State := s.upPkg (fun x => { x with podOut := x.podOut ++ [(p, m)] })
/-- Send a message to every other package of the pod. -/
def State.sendPods (s : State) (m : PodMsg) : State := s.podOthers.foldl (fun s p => s.sendPod p m) s
/-- First RN of a die's batch of a round of a space: (q·S + rank)·256 (R434, R445). -/
def State.batchRn (s : State) (d q : Nat) (pod : Bool) : Nat :=
  (q * (s.seqSpan pod).2 + (s.seqSpan pod).1 + s.dieRank d) * 256
/-- First RN of a die's next unused batch. -/
def State.nextRn (s : State) (d : Nat) (pod : Bool) : Nat :=
  s.batchRn d (if pod then (s.die d).podBatch else (s.die d).batch) pod
/-- The next unused batch of a die is taken or closed. -/
def State.useBatch (s : State) (d : Nat) (pod : Bool) : State :=
  s.upDie d (fun x => if pod then { x with podBatch := x.podBatch + 1 } else { x with batch := x.batch + 1 })
/-- Send ASSIGN b to every other sequencer, in the pod space to those of the other packages as well (R434, R446). -/
def State.sendAssign (s : State) (d : Nat) (pod : Bool) (b : Nat) : State :=
  let others := s.presentDies.filter (· != d)
  let s := if pod then s.sendPods (.assign b) else s
  (s.upPkg (fun p => { p with assigns := p.assigns ++ others.map (fun e => (e, pod, b)) })).post
    (others.map (fun e => .assignReceive e pod b))

/-- The present die whose sequencer's next unused batch comes first. -/
def State.lowestSeq (s : State) (pod : Bool) : Nat :=
  match s.presentDies with
  | [] => 0
  | d :: r => r.foldl (fun b e => if s.nextRn e pod < s.nextRn b pod then e else b) d
/-- The sequencer that takes a batch: one whose die has no available cluster closes its batches as they become lowest (R434), by
fuel. -/
def State.seqFor (pod : Bool) : Nat → State → Option (State × Nat)
  | 0, _ => none
  | n + 1, s =>
    let d := s.lowestSeq pod
    if 0 < s.availClusters d then some (s, d) else State.seqFor pod n (s.useBatch d pod)

/-- A transaction as it is numbered. -/
def Txn.numbered (idx rn die : Nat) : Txn :=
  ⟨idx, rn, die, .numbered, 0, Vector.replicate 16 none, [], none, 0, 0, none, false⟩

/-- Give the transactions of a launch from index `i` on to sequencers, a batch of up to 256 at a time, by fuel (R275). -/
def State.giveBatches (lid ntx : Nat) (pod : Bool) : Nat → Nat → State → State
  | 0, _, s => s
  | n + 1, i, s =>
    if ntx ≤ i then s
    else
      match State.seqFor pod (s.presentDies.length + 1) s with
      | none => s
      | some (s, d) =>
        let b := s.nextRn d pod
        let k := Nat.min 256 (ntx - i)
        let s := (s.useBatch d pod).sendAssign d pod b
        let s := s.upLaunch lid (fun l =>
          { l with txns := l.txns ++ tabulate k (fun j => (i + j, Txn.numbered (i + j) (b + j) d))
                   firstRn := if i = 0 then b else l.firstRn
                   lastRn := b + k - 1 })
        State.giveBatches lid ntx pod n (i + 256) (s.post [.seqSetCompute d])

/-- The reproducibility signature of a launch (R185): the first 16 bytes of SHA-512 over the message. -/
def State.signature (s : State) (r : LaunchRec) (first past : Nat) : BitVec 128 :=
  let msg := leBytes 64 r.digest.toNat ++ leBytes 8 (field r.ctl 17 6) ++ leBytes 1 r.det ++ leBytes 1 (field s.pkg.units 24 8)
    ++ [1] ++ leBytes 1 (field r.ctl 0 2) ++ leBytes 4 r.nslice ++ leBytes 8 first ++ leBytes 8 past
  BitVec.ofNat 128 (leNat ((sha512 msg).take 16))

/-- Number the transactions of a launch, and complete its signature (R185, R275). With no available cluster in the package they
stay unnumbered. -/
def State.assignBatches (s : State) (lid : Nat) : State :=
  match s.launch? lid with
  | none => s
  | some l =>
    let s := State.giveBatches lid l.record.ntx (s.launchPod l) ((l.record.ntx + 255) / 256) 0 s
    let past := match s.launch? lid with | some l => if l.txns.isEmpty then 0 else l.lastRn + 1 | none => 0
    let first := match s.launch? lid with | some l => l.firstRn | none => 0
    s.upLaunch lid (fun l => { l with rsig := s.signature l.record first past })

/-! A launch becomes READY (R169, R170, R172). -/

/-- The division of a kernel launch's groups (or slices, at levels 4 and 5) among dies by their available clusters (R172): (die, first,
past last). A gang's dies in other packages stand before and after with theirs (R449). -/
def State.divideBy (s : State) (avail : Nat → Nat) (n before after : Nat) : List (Nat × Nat × Nat) :=
  let dies := s.presentDies
  let total := (dies.map avail).foldl (· + ·) (before + after)
  if total = 0 then []
  else
    let rec go : List Nat → Nat → Nat → List (Nat × Nat × Nat)
      | [], _, _ => []
      | d :: r, run, lo =>
        let run := run + avail d
        let hi := (n * run + total - 1) / total
        if lo < hi then (d, lo, hi) :: go r run hi else go r run hi
    go dies before ((n * before + total - 1) / total)
/-- The division by the clusters available now. -/
def State.divide (s : State) (n before after : Nat) : List (Nat × Nat × Nat) := s.divideBy s.availClusters n before after

/-- Units that R172 divides: groups, or slices at levels 4 and 5. -/
def LaunchRec.divided (r : LaunchRec) : Nat := if 4 ≤ r.level then r.nslice else r.groups

/-- A launch whose counter reaches 0 becomes READY, with its aged level at PRIO (R169, R170): a kernel launch's groups are divided
among the dies (R172), a gang member sends its ACK (R449), a transaction launch is numbered (R275; log entry 16). -/
def State.makeReady (s : State) (lid : Nat) : State :=
  match s.launch? lid with
  | none => s
  | some l =>
    let l := { l with state := .ready, aged := field l.record.ctl 12 3, agedAt := s.pkg.lastLid, starvedAt := s.pkg.lastLid }
    if l.record.isTxn then (s.setLaunch lid l).assignBatches lid
    else if l.record.gangBit then (s.setLaunch lid l).post [.gangAck lid]
    else s.setLaunch lid { l with ranges := s.divide l.record.divided 0 0, share := (0, l.record.nslice) }

/-- The distinct predecessors of a record. -/
def LaunchRec.predIds (r : LaunchRec) : List Word := (r.preds.filter (· != 0)).eraseDups

/-- A launch waits for a predecessor outside a bundle. -/
def State.waitsOutside (s : State) (bundle : List Nat) (lid : Nat) : Bool :=
  match s.launch? lid with
  | none => false
  | some l => l.state == .waiting && l.record.predIds.any (fun p =>
      !bundle.contains (field p 0 54) && (match s.launch? (field p 0 54) with | some x => !x.state.final | none => false))

/-- The members of a BUNDLE become READY in one step, once none of them waits for a launch outside it; one that waits for another member
follows it (R354). -/
def State.bundleGate (s : State) (bundle : List Nat) : State :=
  if bundle.any (s.waitsOutside bundle) then s
  else bundle.foldl (fun s i =>
    match s.launch? i with
    | some l => if l.state = .waiting ∧ l.counter = 0 then s.makeReady i else s
    | none => s) s

/-- A launch whose counter of predecessors has reached 0 becomes READY, with its bundle if it is in one (R169, R354). -/
def State.readyWithBundle (s : State) (lid : Nat) : State :=
  match (s.launch? lid).map (·.bundle) with
  | some (b :: r) => s.bundleGate (b :: r)
  | _ => s.makeReady lid

/-- Put a launch into a final state; the successors follow as R169 says, transitively, by fuel. -/
def State.endLaunchFrom : Nat → State → Nat → LState → Nat → State
  | 0, s, _, _, _ => s
  | fuel + 1, s, lid, st, reason =>
    match s.launch? lid with
    | none => s
    | some l =>
      if l.state.final then s
      else
        let s := s.setLaunch lid { l with state := st, reason := reason, endedAt := s.pkg.lastLid, ranges := [] }
        let s := (s.wakeWaiters lid).bundleGate l.bundle
        l.succs.foldl (fun s n =>
          match s.launch? n with
          | none => s
          | some m =>
            if m.state != .waiting then s
            else if st = .complete then
              let s := s.setLaunch n { m with counter := m.counter - 1 }
              if m.counter = 1 then s.readyWithBundle n else s
            else State.endLaunchFrom fuel s n .failed 6) s
/-- End a launch (R168, R169). -/
def State.endLaunch (s : State) (lid : Nat) (st : LState) (reason : Nat) : State :=
  State.endLaunchFrom 16384 s lid st reason

/-- Cores of the part (R166): 256 for each die of the part. -/
def State.partCores (s : State) : Nat := 256 * s.presentDies.length
/-- The effective STKN (R166). -/
def State.stackRegions (s : State) (r : LaunchRec) : Nat := if r.stkn = 0 then 8 * s.partCores else r.stkn
/-- The lowest-numbered free stack region (R166), or none when the launch has no stacks; `some none` when none is free. -/
def State.stackFor (s : State) (l : Launch) : Option (Option Nat) :=
  if l.record.stksz = 0 then some none
  else
    let n := s.stackRegions l.record
    let rec go : Nat → Nat → Option (Option Nat)
      | 0, _ => none
      | f + 1, j => if j ≥ n then none else if l.regions.contains j then go f (j + 1) else some (some j)
    go (l.regions.length + 1) 0

/-- A record's failed slices, in slice order. -/
def Launch.failedSlices (l : Launch) : List Nat :=
  l.units.filterMap (fun e => match e.2 with | .failed _ => some e.1 | _ => none)
/-- Every slice of a kernel launch has been bound and has ended or failed. -/
def Launch.allOver (l : Launch) : Bool :=
  l.ranges.isEmpty && decide (l.units.length = l.share.2 - l.share.1) &&
    l.units.all (fun e => match e.2 with | .ended => true | .failed _ => true | _ => false)
/-- Every slice has been bound. -/
def Launch.allBound (l : Launch) : Bool := l.ranges.isEmpty && decide (l.units.length = l.share.2 - l.share.1)

/-- The bytes of a failed-slice record (R415). -/
def failRecordBytes (lid : Word) (nslice : Nat) (failed : List Nat) : List Byte :=
  let bitmap := roundUp ((nslice + 7) / 8) 64
  leBytes 8 lid.toNat ++ leBytes 4 nslice ++ leBytes 4 failed.length ++ leBytes 8 (64 + bitmap) ++ leBytes 40 0
    ++ leBytes bitmap (failed.foldl (fun n i => n + 2 ^ i) 0)

/-- The home slice of a physical line: by the address the L2 knows it under (R208, R255), else by the line itself, since a write by
physical address names no VA (log entry 64). -/
def State.lineSlice (s : State) (pline : Nat) : Nat :=
  match s.pkg.l2.find? (fun r => r.pline == pline) with
  | some r => s.home r.asid (r.vline * 256) r.tbl pline
  | none => fold48 pline % s.slices
/-- The die of the home of a physical line. -/
def State.lineDie (s : State) (pline : Nat) : Nat := s.sliceDie (s.lineSlice pline)

/-- Bytes written by physical address, line by line at each line's home (R208, R428), from a die, or from the home's own (firmware,
whose die the spec does not name: log entry 64), by fuel. -/
def State.physWrite : Nat → State → Option Nat → Nat → List Byte → State
  | 0, s, _, _, _ => s
  | n + 1, s, die, pa, bs =>
    if bs.isEmpty then s
    else
      let k := 256 - pa % 256
      let h := s.lineDie (pa / 256)
      State.physWrite n (s.homeWrite (die.getD h) h (cellsAt pa (bs.take k))) die (pa + k) (bs.drop k)

/-- Firmware's store of a record to physical memory. -/
def State.firmwareWrite (s : State) (pa : Nat) (bs : List Byte) : State := State.physWrite (bs.length / 256 + 2) s none pa bs

/-- The die of a host port (R1): A on die (0,0); B on die (2,2), or on die (1,2) of a YL6. -/
def State.portDie (s : State) (port : Bool) : Nat :=
  if !port then 0 else if field s.pkg.units 0 4 = 1 then 7 else 8

/-- A write that a port's host or front end makes by physical address. -/
def State.portWrite (s : State) (port : Bool) (pa : Nat) (bs : List Byte) : State :=
  State.physWrite (bs.length / 256 + 2) s (some (s.portDie port)) pa bs

/-- Append a failed-slice record to the log (R415): a ring of SIZE units of 64 KiB, in which a record that does not fit before
the end starts again at the beginning; without a ring the record is only remembered. -/
def State.logFailure (s : State) (lid : Nat) (l : Launch) : State :=
  let failed := l.failedSlices
  let bs := failRecordBytes (s.lidWord lid) l.record.nslice failed
  let size := field s.pkg.fslog 0 16 * 65536
  let base := field s.pkg.fslog 16 36 * 65536
  let pos := if s.pkg.fslogPos + bs.length ≤ size then s.pkg.fslogPos else 0
  let s := if bs.length ≤ size then s.firmwareWrite (base + pos) bs else s
  s.upPkg (fun p => { p with fslogRecs := p.fslogRecs ++ [(s.lidWord lid, l.record.nslice, failed)],
                             fslogPos := if bs.length ≤ size then pos + bs.length else p.fslogPos })

/-- A failed slice that a RESTART launch may still run again: at most three re-runs (R416). -/
def Launch.rerunnable (l : Launch) (i : Nat) : Bool :=
  l.record.restart && decide ((Assoc.find i l.reruns).getD 0 < 3)

/-- START has not reached a gang's member, nor been sent by its leader (R449). -/
def Launch.beforeStart (l : Launch) : Bool := decide (l.gang ≤ 1) && l.started.isEmpty

/-- The slots that a launch holds. -/
def State.threadsOf (s : State) (lid : Nat) : List Tid := s.boundTids.filter (fun t => (s.thread t).bind.lid == lid)

/-- The launch's frames in the regions of the dies. -/
def Launch.frames (l : Launch) : List Saved :=
  l.units.filterMap (fun (e : Nat × UnitState) => match e.2 with | .saved f => some f | _ => none)

/-- After a thread has gone: a launch that was ended becomes FAILED once it holds no slot, so that its jobs and the commits under
way are over (R220, R288, R379), and one whose gang is lost ends GANG_LOST then, if no fault frame holds one of its threads (R450).
Else one whose slices are all over ends COMPLETE, or PARTIAL with a failed-slice record, unless RESTART lets a failed slice run
again (R168, R415, R416). -/
def State.checkLaunchOver (s : State) (lid : Nat) : State :=
  match s.launch? lid with
  | none => s
  | some l =>
    if !(s.threadsOf lid).isEmpty then s
    else if l.killed.isSome then s.endLaunch lid .failed (l.killed.getD 0)
    else if l.gang = 3 then (if l.frames.isEmpty then s.endLaunch lid .failed 10 else s)
    else if l.record.isTxn then
      if l.txns.all (fun e => e.2.state == .ended) && l.ranges.isEmpty && !l.state.final && decide (l.txns.length = l.record.ntx)
      then (if l.reason = 0 then s.endLaunch lid .complete 0 else s.endLaunch lid .failed l.reason)
      else s
    else if !l.allOver then s
    else
      let failed := l.failedSlices
      if failed.isEmpty then s.endLaunch lid .complete 0
      else if failed.any l.rerunnable then s
      else
        let s := s.logFailure lid l
        s.endLaunch lid .partialEnd l.reason

/-- Note a bound launch whose slices are all bound: RUNNING (R168). -/
def State.checkRunning (s : State) (lid : Nat) : State :=
  s.upLaunch lid (fun l => if l.state = .ready && !l.record.isTxn && l.allBound then { l with state := .running } else l)

/-- Give back a stack region (R166). -/
def Launch.freeRegion (l : Launch) (r : Option Nat) : Launch :=
  match r with
  | some j => { l with regions := l.regions.filter (· != j) }
  | none => l

/-- A slice leaves its group: the conditions of its barrier generation and of its round are looked at again (R176, R230). -/
def State.groupEvents (s : State) (lid g : Nat) : State := s.post [.barrierRelease lid g, .d2RoundCommit lid g]

/-- End a slice of a kernel launch, well (`none`) or failed with a reason (R30, R415): its region is freed, it leaves its
group, and the launch may be over. The first failure's reason is the launch's. -/
def State.endSlice (s : State) (lid slice : Nat) (region : Option Nat) (fail : Option Nat) : State :=
  match s.launch? lid with
  | none => s
  | some l =>
    let u := match fail with | some r => UnitState.failed r | none => UnitState.ended
    let l := { l with units := Assoc.put slice u l.units,
                      reason := if l.reason = 0 then fail.getD l.reason else l.reason }
    let l := l.freeRegion region
    let s := (s.setLaunch lid l).groupEvents lid (l.record.groupOf slice)
    s.checkLaunchOver lid

/-- A failed slice of a bound thread (R415): its accesses performed stand, its commit buffer is discarded, its slot is freed. The
dirty bytes of its core go home, as the end of the launch asks (R220). -/
def State.failSlice (s : State) (t : Tid) (reason : Nat) : State :=
  let th := s.thread t
  ((s.writeBackAll t.coreKey).freeSlot t).endSlice th.bind.lid th.bind.unit th.region (some reason)

/-! Arbiter positions (R307, R401). -/

/-- The cluster whose engines a cluster's lend to: the one before it in ring order. -/
def borrower (cl : Nat) : Nat :=
  cl / 32 * 32 + ((List.range 32).find? (fun k => nextInRing k == cl % 32)).getD 0
/-- The package-wide core at a position of a cluster's arbiter: 0–7 its own cores, 8–15 those of the borrowing cluster (R401). -/
def posCore (cl p : Nat) : Nat :=
  let k := if p < 8 then cl else borrower cl
  k / 32 * 256 + (coresOfCluster (k % 32)).getD (p % 8) 0
/-- The engines of a cluster serve the borrowing cluster as well. -/
def State.lends (s : State) (cl : Nat) : Bool :=
  !s.unitUp ⟨1, borrower cl / 32, borrower cl % 32⟩ ||
    (List.range 8).any (fun p => ((s.core (posCore cl (8 + p))).mxq.head?.map Job.cl) == some cl)
/-- Positions the arbiter ranges over. -/
def State.arbSpan (s : State) (cl : Nat) : Nat := if s.lends cl then 16 else 8
/-- The job at the head of a queue that these engines are to run. -/
def headFor (q : List Job) (cl : Nat) : Option Job := q.head?.filter (fun j => j.cl == cl)
/-- A core that has the turn of a cluster's arbiter and no job left for it has ended the turn, and the pointer moves past it (R307). -/
def State.endTurn (s : State) (cl c : Nat) : State :=
  let k := s.cluster cl
  if k.left ≠ 0 ∧ posCore cl k.ptr = c ∧ (headFor (s.core c).mxq cl).isNone then
    s.upCluster cl (fun k => { k with ptr := (k.ptr + 1) % s.arbSpan cl, left := 0 })
  else s

/-- Jobs of a thread are dropped from the queues of its core, and their completions with them (a restarted transaction, lost work):
turns of the arbiter that stood on them end, the jobs that remain go on, and threads that wait for an entry look again. -/
def State.dropJobs (s : State) (t : Tid) : State :=
  let c := t.coreKey
  let cls := ((s.core c).mxq.map Job.cl).eraseDups
  let s := s.upCore c (fun c => { c with
    mxq := c.mxq.filter (fun j => j.owner != t), rsq := c.rsq.filter (fun j => j.owner != t),
    btq := c.btq.filter (fun j => j.owner != t), clq := c.clq.filter (fun j => j.owner != t),
    done := c.done.filter (fun j => j.owner != t) })
  let s := cls.foldl (fun s cl => s.endTurn cl c) s
  let k := s.core c
  let waiting := ((List.range 8).map (fun n => (⟨c / 256, c % 256, n⟩ : Tid))).flatMap (fun x => match (s.thread x).status with
    | .waiting (.queue ..) => [Instr.engineQueueEntryFree x]
    | .waiting (.job ..) => [.jobWaitEnd x]
    | _ => [])
  s.post ((k.mxq.map Job.cl).eraseDups.map .mxeStep ++ (k.rsq.map Job.cl).eraseDups.map .rsuPass ++ k.btq.map (fun j => .btuJobStart c j.id)
    ++ waiting)

/-! Placement. -/

/-- A core can take a thread of a launch: in service, resident launch its own or none (R21, R174). -/
def State.coreTakes (s : State) (c lid : Nat) : Bool :=
  s.coreUp c && (match (s.core c).resident with | none => true | some r => r == lid)
/-- The free slots of a core for a launch. -/
def State.freeSlots (s : State) (c lid : Nat) : List Tid :=
  if s.coreTakes c lid then
    ((List.range 8).map (fun n => (⟨c / 256, c % 256, n⟩ : Tid))).filter (fun t => (s.thread t).status == .free)
  else []

/-- The domain instances of a level on a die, as lists of package-wide cores, in ascending instance number (R162, R172). -/
def instancesOn (level d : Nat) : List (List Nat) :=
  if level = 1 then tabulate 256 (fun c => [d * 256 + c])
  else if level = 2 then tabulate 32 (fun k => (coresOfCluster k).map (fun c => d * 256 + c))
  else [tabulate 256 (fun c => d * 256 + c)]

/-- The cores of the domain instance of a level that contains a core (R162). -/
def State.instanceOf (s : State) (level c : Nat) : List Nat :=
  if level = 1 then [c]
  else if level = 2 then (coresOfCluster (clusterOf (c % 256))).map (fun k => c / 256 * 256 + k)
  else if level = 3 then tabulate 256 (fun k => c / 256 * 256 + k)
  else s.presentDies.flatMap (fun d => tabulate 256 (fun k => d * 256 + k))

/-- Domain instance number of a core at a level (R190, selector 5). -/
def State.instanceNum (s : State) (level : Nat) (t : Tid) : Nat :=
  if level = 1 then (t.die % 3 * 16 + t.core % 16) + 48 * (t.die / 3 * 16 + t.core / 16)
  else if level = 2 then 32 * t.die + clusterOf t.core
  else if level = 3 then t.die
  else s.pkgId

end Sys2Proof.Machine
end

