-- ==== Sys2Proof/Machine/TxnOps.lean ====
section
/-! DEFINITION. Sequencers, lock managers and the sets of transactions, as far as several meanings share them: RN batches
(R275, R434), horizons (R277, R435), the grant rule (R279 to R281), release, and the checked restart (R290). -/

namespace Sys2Proof.Machine

/-- A transaction of a launch. -/
def State.txn? (s : State) (lid idx : Nat) : Option Txn :=
  match s.launch? lid with
  | some l => Assoc.find idx l.txns
  | none => none
/-- Replace a transaction. -/
def State.setTxn (s : State) (lid idx : Nat) (x : Txn) : State :=
  s.upLaunch lid (fun l => { l with txns := Assoc.put idx x l.txns })

/-- Every horizon announced by a die is due at every lock manager. -/
def State.horizonEvents (s : State) (d : Nat) : State :=
  s.post ((List.range s.slices).map (fun j => .lkmHorizon j d))

/-- The transactions of the package that a sequencer numbers in an RN space and that have not sent their requests. -/
def State.unsent (s : State) (d : Nat) (pod : Bool) : List (Nat × Txn) :=
  s.pkg.launches.flatMap (fun e =>
    if s.launchPod e.2 != pod then [] else
    e.2.txns.filterMap (fun t =>
      if t.2.seqDie = d ∧ (t.2.state = .numbered ∨ t.2.state = .recon ∨ t.2.state = .reserved) then some (e.1, t.2) else none))

/-- A launch has slices or transactions that are not yet bound (R168, R170). -/
def Launch.unbound (l : Launch) : Bool :=
  if l.record.isTxn then
    decide (l.txns.length < l.record.ntx) || l.txns.any (fun e => match e.2.state with
      | .numbered | .recon | .reserved | .requested => true
      | _ => false)
  else !l.allBound

/-- A transaction launch whose transactions are all bound is RUNNING (R168). -/
def State.checkTxnRunning (s : State) (lid : Nat) : State :=
  s.upLaunch lid (fun l => if l.state == .ready && l.record.isTxn && !l.unbound then { l with state := .running } else l)

/-- Every granule of a push has arrived. -/
def KeyReq.allPushed (q : KeyReq) : Bool := (List.range ((q.push.bytes.length + 15) / 16)).all q.pushed.contains

/-- Announce a horizon (R277): RN + 1 after step 3 of a transaction, or, with no transaction to number, the first RN of the
next unused batch; in the pod space to every lock manager of the pod (R447). A horizon never decreases. -/
def State.announce (s : State) (d : Nat) (pod : Bool) (h : Nat) : State :=
  let s := s.upDie d (fun x => if pod then { x with podHorizon := Nat.max x.podHorizon h } else { x with horizon := Nat.max x.horizon h })
  let tell := fun (s : State) (p : Nat) => (List.range (32 * s.diesIn p)).foldl (fun s j => s.sendPod p (.horizon j s.pkgId (s.dieRank d) h)) s
  (if pod then s.podOthers.foldl tell s else s).horizonEvents d

/-- A sequencer with no transaction to number announces the first RN of its next batch (R277). -/
def State.announceIdle (s : State) (d : Nat) (pod : Bool) : State :=
  if (s.unsent d pod).isEmpty then s.announce d pod (s.nextRn d pod) else s

/-- Key of the record of announcements received by a slice's lock manager, per RN space. -/
def hzSlice (slice : Nat) (pod : Bool) : Nat := if pod then slice + 4096 else slice

/-- The latest announcement of a die's sequencer received by a slice; before any, the first RN of its first batch (R277). -/
def State.hzFrom (s : State) (slice d : Nat) (pod : Bool) : Nat :=
  match s.pkg.hzSeen.find? (fun e => e.1 == (hzSlice slice pod, d)) with
  | some e => e.2
  | none => s.batchRn d 0 pod
/-- The place of a sequencer of another package, by its rank there, in the record of announcements. -/
def farSeq (p rank : Nat) : Nat := 16 * (p + 1) + rank
/-- The latest announcement of another package's sequencer, by its rank there, received by a slice; before any, the first RN of its first
batch, which its rank in the pod gives (R277, R445, R447). -/
def State.hzFar (s : State) (slice p rank : Nat) : Nat :=
  match s.pkg.hzSeen.find? (fun e => e.1 == (hzSlice slice true, farSeq p rank)) with
  | some e => e.2
  | none => (s.diesFrom 0 p + rank) * 256
/-- HZ of a slice: the least of the latest announcements of every present die (R435), in the pod space of every package (R447). -/
def State.hz (s : State) (slice : Nat) (pod : Bool) : Nat :=
  let far := if pod then s.podOthers.flatMap (fun p => tabulate (s.diesIn p) (fun r => s.hzFar slice p r)) else []
  match s.presentDies.map (fun d => s.hzFrom slice d pod) ++ far with
  | [] => 0
  | x :: r => r.foldl Nat.min x

/-- One request of a key with the transaction that made it; one of another package's transactions has that package's id, and no launch
here. -/
structure Req where
  far : Option Nat
  lid : Nat
  idx : Nat
  rn : Nat
  ix : Nat
  req : KeyReq
  deriving DecidableEq, Repr

/-- The array of a key. -/
def State.arrayOf (s : State) (k : TileKey) : Option TileArray := Assoc.find k.ta s.pkg.arrays
/-- The key's lock manager is in this package: it owns the array (R443). -/
def State.ownsKey (s : State) (k : TileKey) : Bool := match s.arrayOf k with | some a => a.owner == s.pkgId | none => true

/-- A request as it is sent. -/
def KeyReq.sent (k : TileKey) (write queued : Bool) : KeyReq :=
  ⟨k, write, false, queued, ⟨[], []⟩, [], false, none, Vector.replicate 9 0, false, false⟩

/-- Every live request (queued or held, not released) on the keys whose lock managers are here, this package's and others' (R444). -/
def State.reqs (s : State) : List Req :=
  s.pkg.launches.flatMap (fun e => e.2.txns.flatMap (fun t =>
    (t.2.reqs.zipIdx.filterMap (fun r =>
      if r.1.queued && !r.1.released && s.ownsKey r.1.key then some ⟨none, e.1, t.1, t.2.rn, r.2, r.1⟩ else none))))
  ++ s.pkg.podReqs.map (fun r => ⟨some r.pkg, 0, 0, r.rn, 0, { KeyReq.sent r.key r.write true with granted := r.granted }⟩)

/-- The grant rule (R279): a write waits for every request of lower RN on the key, a read for every write of lower RN. -/
def ruleAllows (all : List Req) (r : Req) : Bool :=
  !all.any (fun q => q.req.key == r.req.key && decide (q.rn < r.rn) && (r.req.write || q.req.write))

/-- Change one request of a transaction. -/
def State.upReq (s : State) (lid idx ix : Nat) (f : KeyReq → KeyReq) : State :=
  match s.txn? lid idx with
  | some t => s.setTxn lid idx { t with reqs := t.reqs.modify ix f }
  | none => s

/-- Fuel for the lines of n bytes. -/
def linesFor (n : Nat) : Nat := n / 256 + 2

/-- A tile at its home (R281), read by the lock manager under single-use grants, which registration vouches for at supervisor level
(R205, R265; log entry 59). The bytes of an array that another package owns, and those of one whose pages no longer grant a read,
are open (R443; log entries 21 and 59). -/
def State.tileRead (s : State) (k : TileKey) : State × TileData :=
  match s.arrayOf k with
  | none => (s, ⟨[], []⟩)
  | some a =>
    let va := a.tileVa k.tr k.tc
    let free : TileData := ⟨tabulate a.tsz (fun i => Config.pageByte s.fresh i), []⟩
    if a.owner ≠ s.pkgId then (s, free)
    else
      match s.homeBytes a.asid true (linesFor a.tsz) va a.tsz with
      | .ok (s', bs) => (s', ⟨bs, ((s.virtPoison a.asid true (linesFor a.tsz) va a.tsz).map (· / 16)).eraseDups⟩)
      | .error _ => (s, free)

/-- Write a tile at its home by messages that carry a clock, under single-use grants; a home in another package is not seen here, and
nothing is written where the pages no longer grant it (log entry 59). -/
def State.writeTile (s : State) (clk : Vector (BitVec 48) 9) (req : Nat) (k : TileKey) (d : TileData) : State :=
  match s.arrayOf k with
  | some a =>
    if a.owner ≠ s.pkgId then s
    else
      match s.homeCells a.asid true (linesFor d.bytes.length) (a.tileVa k.tr k.tc) d.bytes with
      | .ok (s, ws) =>
        let cells := ws.flatMap Prod.snd
        let bad := d.bad.flatMap (fun g => ((cells.drop (16 * g)).take 16).map Prod.fst)
        ws.foldl (fun s w => s.homeWriteWith clk req w.1 w.2 (bad.filter (fun a => w.2.any (fun c => c.1 == a)))) s
      | .error _ => s
  | none => s

/-- The grant of a request reaches its transaction: the push begins. -/
def State.takeGrant (s : State) (lid idx ix : Nat) (data : TileData) (forwarded : Bool) : State :=
  (s.upReq lid idx ix (fun q => { q with granted := true, push := data, forwarded := forwarded, pushed := [] })).post [.lkmPush lid idx ix 0]

/-- Grant one request: its push begins with the forwarded copy when a release granted it, else with the tile at its home
(R280, R281); to another package's transaction it crosses the links (R444). -/
def State.grantReq (s : State) (r : Req) (fwd : Option TileData) : State :=
  let (s, data) := match fwd with | some d => (s, d) | none => s.tileRead r.req.key
  match r.far with
  | none => s.takeGrant r.lid r.idx r.ix data fwd.isSome
  | some p =>
    let mark := fun (q : PodReq) => if q.rn = r.rn ∧ q.key = r.req.key then { q with granted := true } else q
    (s.upPkg (fun x => { x with podReqs := x.podReqs.map mark })).sendPod p (.grant r.rn r.req.key data fwd.isSome)

/-- The scope flag of a key's array. -/
def State.keyPod (s : State) (k : TileKey) : Bool :=
  match s.arrayOf k with | some a => a.pod | none => false

/-- A request that the horizon rule and the grant rule let be granted now (R279, R447). -/
def State.grantable (s : State) (all : List Req) (r : Req) : Bool :=
  !r.req.granted && decide (r.rn < s.hz (s.keySlice r.req.key) (s.keyPod r.req.key)) && ruleAllows all r

/-- Grant every request the rules allow; `fwd` gives the copy forwarded on a key by a release, if any. -/
def State.grantScan (s : State) (fwd : Option (TileKey × TileData)) : State :=
  let all := s.reqs
  (all.filter (s.grantable all)).foldl (fun s r =>
    s.grantReq r (match fwd with | some (k, b) => if k = r.req.key then some b else none | none => none)) s

/-- The value a request's copy holds when it is released: the committed copy, or the pushed value (R281). -/
def KeyReq.value (q : KeyReq) (commit : Bool) : TileData := if commit then q.copy.getD q.push else q.push

/-- Release one request of a transaction (R281): a write forwards its copy to the requests the release lets be granted, by the lock manager
that holds the key, be it in another package (R444). -/
def State.releaseReq (s : State) (lid idx ix : Nat) (commit : Bool) : State :=
  match s.txn? lid idx with
  | none => s
  | some t =>
    match t.reqs[ix]? with
    | none => s
    | some q =>
      if q.released then s
      else
        let s := s.upReq lid idx ix (fun q => { q with released := true })
        let copy := if q.write && q.granted then some (q.value commit) else none
        match s.arrayOf q.key with
        | some a => if a.owner = s.pkgId then s.grantScan (copy.map (q.key, ·)) else s.sendPod a.owner (.release s.pkgId t.rn q.key copy)
        | none => s.grantScan (copy.map (q.key, ·))

/-- Release every request of a transaction. -/
def State.releaseAll (s : State) (lid idx : Nat) (commit : Bool) : State :=
  match s.txn? lid idx with
  | some t => (List.range t.reqs.length).foldl (fun s ix => s.releaseReq lid idx ix commit) s
  | none => s

/-- A transaction thread whose commit has begun (R287). -/
def State.commitBegun (s : State) (t : Tid) : Bool :=
  match (s.thread t).txn with
  | some b => (match s.txn? (s.thread t).bind.lid b.idx with | some x => x.state == .committing | none => false)
  | none => false

/-- Threads of a core that wait for staging space, granules or the pushes before a commit look again (R283, R287, R289). -/
def State.stagingEvents (s : State) (c : Nat) : State :=
  (List.range 8).foldl (fun s n =>
    let t : Tid := ⟨c / 256, c % 256, n⟩
    match (s.thread t).status with
    | .waiting .staging => s.again t
    | .waiting .touch => s.again t
    | .waiting .txend => if s.commitBegun t then s else s.again t
    | _ => s) s

/-- A transaction ends: its requests are released, its slot and region are freed; its sequencer may have nothing left to send (R277),
and the launch may be all bound or over (R168, R286, R287). -/
def State.endTxn (s : State) (lid idx : Nat) (commit : Bool) : State :=
  match s.txn? lid idx with
  | none => s
  | some t =>
    let s := s.releaseAll lid idx commit
    let s := match t.landing with
      | some tid => (s.freeSlot tid).stagingEvents tid.coreKey
      | none => s
    let s := match s.txn? lid idx with
      | some t => s.setTxn lid idx { t with state := .ended, landing := none }
      | none => s
    let s := s.upLaunch lid (fun l => l.freeRegion t.region)
    let s := if t.state = .numbered ∨ t.state = .recon ∨ t.state = .reserved then
        s.announceIdle t.seqDie (match s.launch? lid with | some l => s.launchPod l | none => false)
      else s
    (s.checkTxnRunning lid).checkLaunchOver lid

/-- A CHECKED RESTART (R290): the thread stops, its jobs are dropped (log entry 55), staging is discarded, every grant is released
without writes and every write key forwards its pushed value, the restart count rises, and the transaction is numbered again by its
sequencer, from a batch taken for it alone. With three restarts behind it, it freezes with TX_UNSTABLE and keeps its grants. -/
def State.checkedRestart (s : State) (tid : Tid) : State :=
  let th := s.thread tid
  match th.txn with
  | none => s
  | some b =>
    if 3 ≤ b.restarts then s.freeze tid (Freeze.of .TX_UNSTABLE)
    else
      let lid := th.bind.lid
      match s.txn? lid b.idx, s.launch? lid with
      | some x, some l =>
        let pod := s.launchPod l
        let s := s.releaseAll lid b.idx false
        let s := ((s.dropJobs tid).freeSlot tid).stagingEvents tid.coreKey
        let rn := s.nextRn x.seqDie pod
        let s := (s.useBatch x.seqDie pod).sendAssign x.seqDie pod rn
        s.setTxn lid b.idx { x with
          rn := rn, state := .numbered, restarts := x.restarts + 1, reqs := [], landing := none, passed := false, slots := Vector.replicate 16 none }
      | _, _ => s

/-- End every transaction of a launch without commit, but for those whose commit has begun (R288): their requests are released (R285,
R379), and sequencers left with nothing to send say so (R277). -/
def State.endTxns (s : State) (lid : Nat) : State :=
  match s.launch? lid with
  | none => s
  | some l =>
    let pod := s.launchPod l
    let stays := fun (t : Nat × Txn) => t.2.state == .committing
    let s := l.txns.foldl (fun s t => if stays t then s else s.releaseAll lid t.1 false) s
    let s := s.upLaunch lid (fun l => { l with txns := l.txns.map (fun t =>
      if stays t then t else (t.1, { t.2 with state := TxState.ended, landing := none })) })
    (l.txns.map (fun t => t.2.seqDie)).eraseDups.foldl (fun s d => s.announceIdle d pod) s

/-- Free the region of a frame (R264), and let threads that drain for want of room look again. -/
def State.freeFrame (s : State) (f : Saved) : State :=
  let s := s.upDie f.die (fun d => { d with frames := d.frames.filter (fun u => u != (f.frameAt, f.units)) })
  s.post ((s.boundTids.filter (fun t => t.die == f.die && (match (s.thread t).status with | .waiting (.drain ..) => true | _ => false))).map
    .contextFrameWrite)

/-- Discard a thread of a launch that has ended: its collective jobs go, its slot is freed, or, while other jobs of it run, will
be freed when they complete (R379, R303). -/
def State.discard (s : State) (t : Tid) : State :=
  let s := s.upCore t.coreKey (fun c => { c with clq := c.clq.filter (fun j => j.owner != t) })
  if s.hasJobs t then s.upThread t (fun x => { x with status := .waiting .terminated, preempt := false, d2buf := [] })
  else s.freeSlot t

/-- End a launch FAILED (R379, R126, R262): its threads are discarded without packets, but for those whose commit has begun (R288);
unbound slices and transactions are never bound, commit buffers are discarded, grants are released, and accesses already performed
stand. The end is a release on every path (R220): dirty bytes go home, and the state becomes FAILED once its jobs and commits are
over. Packets of its frozen threads that are still held are not written, but for that of the thread named. -/
def State.killLaunch (s : State) (lid : Nat) (reason : Nat) (keepPacket : Option Tid) : State :=
  match s.launch? lid with
  | none => s
  | some l =>
    if l.state.final || l.killed.isSome then s
    else
      let ts := s.threadsOf lid
      let drop := fun (s : State) (t : Tid) =>
        if keepPacket = some t then s else s.upDie t.die (fun d => { d with held := d.held.filter (fun h => h.tid != t) })
      let s := ts.foldl (fun s t => if s.commitBegun t then s else ((drop s t).writeBackAll t.coreKey).discard t) s
      let s := l.frames.foldl (fun s f => s.freeFrame f) s
      let s := s.endTxns lid
      let s := ts.foldl (fun s t => s.stagingEvents t.coreKey) s
      let endUnit := fun (e : Nat × UnitState) => match e.2 with | .ended => e | .failed _ => e | _ => (e.1, .failed reason)
      let s := s.upLaunch lid (fun l => { l with killed := some reason, ranges := [], regions := [], units := l.units.map endUnit })
      s.checkLaunchOver lid

end Sys2Proof.Machine
end

