-- ==== Sys2Proof/Machine/Access.lean ====
section
/-! DEFINITION. What an instruction's global load or store does: the set check of a transaction (R284), the D2 commit buffer
(R229), the L1; releases and acquires at each scope (R220, R431, R432); alignment. -/

namespace Sys2Proof.Machine

/-- The address of the M format: s[base] + sext(off10) · 2^size (R68). -/
def mAddr (t : Thread) (base : SReg) (size : BitVec 2) (off : BitVec 10) : Word :=
  t.rs base + (sext64 off <<< size.toNat)

/-- MISALIGNED_DATA unless an address is a multiple of n. -/
def needAligned (a : Word) (n : Nat) (kind : BitVec 2) : Except Stop Unit :=
  if a.toNat % n = 0 then .ok () else trapAt .MISALIGNED_DATA a kind

/-- A pass of a reconnaissance launch (R289). -/
def Thread.inPass (t : Thread) : Bool := match t.txn with | some b => b.recon | none => false

/-- A read of n staging bytes, held until their granules are full (R283). -/
def stagedRead (s : State) (a n : Nat) : Except Stop (State × Nat) :=
  if (granulesOf a n).all (fun g => s.myCore.full g) then do
    unpoisoned s (s.myCore.poisonedAt a n)
    .ok (s, s.myCore.scratchNum a n)
  else .error (.wait s .staging)

/-- A CORE-path global read of n bytes inside one line without a set check: from the L1, and a D2 thread sees its own buffered
bytes in place of those. -/
def plainLoad (s : State) (a n : Nat) (ldst : Bool) : Except Stop (State × Nat) := do
  let (s, v, bad) ← l1Read s a n ldst
  let buf := if s.me.d2 then s.me.d2buf else []
  unpoisoned s (bad &&& ~~~d2Held buf a n != 0)
  .ok (s, if s.me.d2 then d2Overlay buf a n v else v)

/-- The set check of a CORE-path global read (R284): the place of the staging copy that serves a transaction's read of a tile; a tile
that is in no slot raises TX_SET, or, in the real run of a reconnaissance launch, takes a checked restart (R290). Every other read has
none. -/
def setCheck (s : State) (va : Word) : Except Stop (Option Nat) :=
  match s.me.txn with
  | none => .ok none
  | some b =>
    match s.stagedAt b s.me.bind.asid va.toNat with
    | none => .ok none
    | some (some off) => .ok (some off)
    | some none =>
      if b.reconLaunch && !b.recon then .error (.leave (s.checkedRestart s.cur)) else trapAt .TX_SET va 0

/-- A CORE-path global read of n bytes inside one line (R114, R284): from the staging copy of the set check, or plain. -/
def globalLoad (s : State) (va : Word) (n : Nat) (ldst : Bool) : Except Stop (State × Nat) := do
  match ← setCheck s va with
  | none => plainLoad s va.toNat n ldst
  | some off => stagedRead s off n

/-- What can refuse a CORE-path global read, without the read: its set check, or its grant (R150). -/
def globalNeed (s : State) (va : Word) (n : Nat) (ldst : Bool) : Except Stop State := do
  match ← setCheck s va with
  | none => readNeed s va.toNat n ldst
  | some _ => .ok s

/-- TX_STORE: a global store of a transaction thread, except in a reconnaissance pass, where it is discarded (R116, R289). -/
def needStorable (s : State) (va : Word) : Except Stop Unit := needAt (!s.me.bind.txn || s.me.inPass) .TX_STORE va 1

/-- A CORE-path plain global store of n bytes inside one line: discarded in a reconnaissance pass (R289), buffered at D2 after a
257th entry has ended the quantum (R229), else written to the L1. A rebuild stub ends no quantum, so that its buffer grows past 256
entries (DESIGN CHOICE, log entry 15). -/
def globalStore (s : State) (va : Word) (n v : Nat) (ldst : Bool) : Except Stop State :=
  if s.me.inPass then .ok s
  else if s.me.d2 then do
    let s ← if 256 < s.me.d2buf.length + d2New s.me.d2buf va.toNat n then quantumFirst s else .ok s
    d2Store s va.toNat n v ldst
  else l1Store s va.toNat n v ldst

/-! Releases and acquires. -/

/-- Scope codes of R215. -/
def scopeCore : Nat := 0
/-- Die scope. -/
def scopeDie : Nat := 1
/-- Package scope. -/
def scopePkg : Nat := 2
/-- System scope. -/
def scopeSys : Nat := 3
/-- The scope of a barrier of a domain level (R162). -/
def levelScope (level : Nat) : Nat := if level ≤ 1 then 0 else if level ≤ 3 then 1 else if level = 4 then 2 else 3

/-- The scope of the acquire that begins a D2 quantum: that of the launch's level, die scope at least (R230; log entry 15). -/
def Thread.d2Scope (t : Thread) : Nat := Nat.max scopeDie (levelScope t.bind.level)

/-- A release at a scope: at die scope and wider the dirty bytes of the core's L1 are written back (R220). A write at its home is
issued at once, so that it is also performed at package scope (R431). -/
def State.release (s : State) (c scope : Nat) : State := if scope = 0 then s else s.writeBackAll c

/-- Drop the clean bytes of a core's L1: every sector invalid, lines without a dirty byte dropped (R220). -/
def State.invalidateClean (s : State) (c : Nat) : State :=
  s.upCore c (fun k => { k with l1 := (k.l1.filter (fun l => l.dirty != 0)).map (fun l => { l with valid := 0 }) })

/-- Ask every present die for its count (R432); the acquire ends by PACKAGE_ACQUIRE_END. -/
def State.askClocks (s : State) (t : Tid) : State :=
  let s := s.upPkg (fun p => { p with clockAns := p.clockAns.filter (fun a => a.1 != t) })
  s.post (s.presentDies.map (fun d => .clockRequest t d) ++ [.packageAcquireEnd t])

/-- An acquire of a thread at core or die scope (R220). -/
def State.acquireNear (s : State) (c scope : Nat) : State := if scope = 0 then s else s.invalidateClean c

/-- The acquire that ends an instruction of the current thread: at package and system scope the thread waits for the die clocks
and then retires (R432). -/
def acquireLast (s : State) (scope : Nat) : Except Stop State :=
  if 2 ≤ scope then .error (.wait (s.askClocks s.cur) .acquire) else .ok (s.acquireNear s.cur.coreKey scope)

/-- A wait that ends with an acquire: unless the limit on retired instructions stops it, the instruction takes effect; at package
and system scope the thread then waits for the die clocks, else it retires (R220, R432). -/
def State.endWaitAcquire (s : State) (tid : Tid) (scope : Nat) (eff : State → State) : State :=
  match (s.thread tid).retireFault false with
  | some c => s.freeze tid (Freeze.of c)
  | none =>
    let s := eff s
    if 2 ≤ scope then (s.upThread tid (fun t => { t with status := .waiting .acquire })).askClocks tid
    else (s.acquireNear tid.coreKey scope).leaveWait tid id

end Sys2Proof.Machine
end

