-- ==== Sys2Proof/Machine/Jobs.lean ====
section
/-! DEFINITION. Engine jobs as every engine shares them: queues and ids (R306, R321, R334, R344), completion, and observation
(R318, R331, R340, R344, R462). -/

namespace Sys2Proof.Machine

/-- A core's queue of an engine. -/
def Core.queue (c : Core) : Engine → List Job
  | .mxe => c.mxq | .rsu => c.rsq | .btu => c.btq | .cle => c.clq
/-- Replace a core's queue of an engine. -/
def Core.setQueue (c : Core) (e : Engine) (q : List Job) : Core :=
  match e with
  | .mxe => { c with mxq := q } | .rsu => { c with rsq := q } | .btu => { c with btq := q } | .cle => { c with clq := q }
/-- Submissions of an engine that a core has accepted. -/
def Core.nextNo (c : Core) : Engine → Nat
  | .mxe => c.mxNext | .rsu => c.rsNext | .btu => c.btNext | .cle => c.clNext
/-- A core's next job id of an engine: a counter modulo 2^16 (R306). -/
def Core.nextId (c : Core) (e : Engine) : BitVec 16 := BitVec.ofNat 16 (c.nextNo e)
/-- Advance a core's id counter of an engine. -/
def Core.bumpId (c : Core) (e : Engine) : Core :=
  match e with
  | .mxe => { c with mxNext := c.mxNext + 1 } | .rsu => { c with rsNext := c.rsNext + 1 }
  | .btu => { c with btNext := c.btNext + 1 } | .cle => { c with clNext := c.clNext + 1 }

/-- A job with this id is queued or running (R318). -/
def Core.outstanding (c : Core) (e : Engine) (id : BitVec 16) : Bool := (c.queue e).any (fun j => j.id == id)

/-- The f5 of a job's instruction (R331, R340, R344). -/
def JobOp.fn : JobOp → BitVec 4
  | .mxmul .. => 0 | .mxgmul .. => 1 | .mxrank .. => 2 | .mxload _ => 3 | .mxstore _ => 4 | .mxzero => 5
  | .rksort .. => 0 | .rktopk .. => 1 | .rktab _ => 2 | .rkval .. => 3
  | .cpy .. => 0 | .cpyg .. => 1 | .cpyf .. => 2 | .cpywFill .. => 3 | .cpywDrain .. => 3
  | .colred .. => 0 | .colbc .. => 1

/-- The JOB-class cause of an engine's failure (R371). -/
def Engine.cause : Engine → Cause
  | .mxe => .MX_JOB | .rsu => .RK_JOB | .btu => .BT_JOB | .cle => .COL_JOB

/-- The value of an ERR register for a failed job (R318, R331, R340, R344): bits [19:16] hold the bank of an MXE job and the
function code of any other. -/
def DoneJob.errWord (j : DoneJob) : Word :=
  let mid := match j.eng, j.bank with
    | .mxe, some b => b.val
    | .mxe, none => 0
    | _, _ => j.fn.toNat
  BitVec.ofNat 64 (j.id.toNat + mid * 65536 + (j.fail.getD 0) * 2 ^ 20)

/-- Replace an engine's ERR register. -/
def Thread.setErr (t : Thread) (e : Engine) (w : Word) : Thread :=
  match e with
  | .mxe => { t with mxerr := w } | .rsu => { t with rkerr := w } | .btu => { t with bterr := w } | .cle => { t with colerr := w }

/-- The oldest failure among jobs of one engine: the one submitted first (R318). -/
def oldestFail (js : List DoneJob) : Option DoneJob :=
  (js.filter (fun j => j.fail.isSome)).foldl (fun best j => match best with
    | none => some j
    | some b => if j.no < b.no then some j else some b) none

/-- The observation of completed jobs of a thread (R318): flags are ORed into FPF, and each engine's ERR register takes its
oldest failure, if there is one. -/
def State.observe (s : State) (t : Tid) (js : List DoneJob) : State :=
  let s := s.upCore t.coreKey (fun c => { c with done := c.done.filter (fun j => !js.contains j) })
  let s := s.upThread t (fun x => js.foldl (fun x j => x.orFlags j.flags) x)
  [Engine.mxe, .rsu, .btu, .cle].foldl (fun s e =>
    match oldestFail (js.filter (fun j => j.eng == e)) with
    | some j => s.upThread t (fun x => x.setErr e j.errWord)
    | none => s) s

/-- The failure that an observation of several jobs raises: that of the first engine, in the order MXE, RSU, BTU, CLE, with a
failure among them (R462). -/
def failureOf (js : List DoneJob) : Option DoneJob :=
  [Engine.mxe, .rsu, .btu, .cle].findSome? (fun e => oldestFail (js.filter (fun j => j.eng == e)))

/-- Every completed and unobserved job of a thread. -/
def Core.doneOf (c : Core) (t : Tid) : List DoneJob := c.done.filter (fun j => j.owner == t)

/-- The completed jobs of a thread that an observation of job `id`, the core's most recent of that id (R306), observes: with
`order`, every earlier job of the engine as well, since they complete in order (R318); a BTU poll observes that job only (R340). A
job of another thread is not observed. -/
def Core.observedBy (c : Core) (t : Tid) (e : Engine) (id : BitVec 16) (order : Bool) : List DoneJob :=
  let mine := (c.doneOf t).filter (fun j => j.eng == e)
  match mine.find? (fun j => j.id == id && decide (c.nextNo e ≤ j.no + 65536)) with
  | none => []
  | some k => if order then mine.filter (fun j => decide (j.no ≤ k.no)) else [k]

/-- An observation that raises its failure precisely, after the registers have changed (R318). -/
def State.observeOr (s : State) (t : Tid) (js : List DoneJob) : State × Option Freeze :=
  let f := failureOf js
  (s.observe t js, f.map (fun j => ⟨j.eng.cause, 0, j.id.setWidth 64, 0⟩))

/-- A fill job on a circular buffer of a thread is outstanding (R339). -/
def State.cbFilling (s : State) (t : Tid) (c : CReg) : Bool :=
  (s.core t.coreKey).btq.any (fun j => j.owner == t && (match j.op with | .cpywFill k _ => k == c | _ => false))
/-- A drain job on a circular buffer of a thread is outstanding (R339). -/
def State.cbDraining (s : State) (t : Tid) (c : CReg) : Bool :=
  (s.core t.coreKey).btq.any (fun j => j.owner == t && (match j.op with | .cpywDrain _ k => k == c | _ => false))

/-- Threads that wait for a job or for a queue entry of a core can look again (R318, R306, R153, R194). -/
def State.jobEvents (s : State) (c : Nat) : State :=
  (List.range 8).foldl (fun s n =>
    let t : Tid := ⟨c / 256, c % 256, n⟩
    match (s.thread t).status with
    | .waiting (.job ..) => s.post [.jobWaitEnd t]
    | .waiting (.queue ..) => s.post [.engineQueueEntryFree t]
    | .waiting .cbWrite => s.again t
    | .waiting (.cb ..) => s.post [.cbwaitEnd t]
    | .waiting (.mxfree _) => s.again t
    | .waiting .halt => s.post [.sliceComplete t]
    | .waiting .txend => if s.commitBegun t then s else s.again t
    | .waiting (.drain ..) => s.post [.contextFrameWrite t]
    | .waiting (.pageFault ..) => s.post [.faultFrameWrite t]
    | .waiting .terminated => s.post [.dctlTerminateSlice t]
    | _ => s) s

/-- A job completes: it leaves the queue, its completion waits for its submitter's observation, a bank whose release waited for
it can be freed, and waiting threads look again (R303, R318). -/
def State.completeJob (s : State) (c : Nat) (e : Engine) (j : Job) (cl : Nat) : State :=
  let d : DoneJob := ⟨e, j.id, j.owner, j.flags, j.fail, j.op.fn, j.bank, j.no⟩
  let s := s.upCore c (fun k =>
    { (k.setQueue e ((k.queue e).filter (fun x => x.id != j.id))) with done := k.done ++ [d] })
  let s := match j.bank with
    | some b => if (s.bank cl b.val).releasing then s.post [.bankRelease cl b] else s
    | none => s
  s.jobEvents c

end Sys2Proof.Machine
end

