-- ==== Sys2Proof/Machine/Flags.lean ====
section
/-! DEFINITION. The flags of FPF (R43) and the mode fields of FPM (R42). -/

namespace Sys2Proof.Machine

/-! Flags of FPF (R43). -/

/-- NV. -/
def flagNV : BitVec 5 := 1
/-- DZ. -/
def flagDZ : BitVec 5 := 2
/-- OF. -/
def flagOF : BitVec 5 := 4
/-- UF. -/
def flagUF : BitVec 5 := 8
/-- PE. -/
def flagPE : BitVec 5 := 16

/-! Modes (R42). -/

/-- FPM.RM: 0 nearest even, 1 toward zero, 2 up, 3 down. -/
def fpmRm (fpm : BitVec 6) : Nat := field fpm 0 2
/-- FPM with RM to nearest: an addition of a padding lane, which never changes a result's sign (R56). -/
def fpmNearest (fpm : BitVec 6) : BitVec 6 := fpm &&& 0x3C
/-- SUB flushes results. -/
def fpmFlushOut (fpm : BitVec 6) : Bool := fpm.getLsbD 2
/-- SUB flushes operands. -/
def fpmFlushIn (fpm : BitVec 6) : Bool := fpm.getLsbD 3
/-- SAT. -/
def fpmSat (fpm : BitVec 6) : Bool := fpm.getLsbD 4
/-- NANP. -/
def fpmNanp (fpm : BitVec 6) : Bool := fpm.getLsbD 5

end Sys2Proof.Machine
end

