-- ==== Sys2Proof/Machine/Float.lean ====
section
/-! DEFINITION. Floating-point values as exact numbers: the binary formats, F8, DS8 and SC8 (R32 to R41), rounding and the special
values (R45 to R49), conversions to integers (R50), the arithmetic operations, the special functions (R140), and the wide
accumulator (R51 to R53). -/

namespace Sys2Proof.Machine

/-! Formats and values. -/

/-- A binary format of R34. -/
structure FloatFmt where
  width : Nat
  ebits : Nat
  fbits : Nat
  bias : Nat
  /-- F8: no infinities (R36). -/
  f8 : Bool
  deriving DecidableEq, Repr

/-- binary64. -/
def binary64 : FloatFmt := ⟨64, 11, 52, 1023, false⟩
/-- binary32. -/
def binary32 : FloatFmt := ⟨32, 8, 23, 127, false⟩
/-- binary16. -/
def binary16 : FloatFmt := ⟨16, 5, 10, 15, false⟩
/-- bfloat16. -/
def bfloat16 : FloatFmt := ⟨16, 8, 7, 127, false⟩
/-- F8. -/
def formatF8 : FloatFmt := ⟨8, 4, 3, 8, true⟩

/-- A value. A number is (−1)^neg · mant · 2^exp; an inexact number carries a set lowest bit of `mant` below every bit that can
decide a rounding. A NaN's payload is its fraction aligned to 52 bits. -/
inductive FVal where
  | nan (neg : Bool) (pay : Nat) (quiet : Bool)
  | inf (neg : Bool)
  | num (neg : Bool) (mant : Nat) (exp : Int)
  deriving DecidableEq, Repr

/-- The canonical NaN. -/
def FVal.qnan : FVal := .nan false 0 true
/-- A zero of a sign. -/
def FVal.zero (neg : Bool) : FVal := .num neg 0 0
/-- The value is a NaN. -/
def FVal.isNan : FVal → Bool
  | .nan .. => true
  | _ => false
/-- The value is a signalling NaN. -/
def FVal.isSnan : FVal → Bool
  | .nan _ _ q => !q
  | _ => false
/-- The value is a zero. -/
def FVal.isZero : FVal → Bool
  | .num _ m _ => m == 0
  | _ => false
/-- The value with the other sign; a NaN keeps its own. -/
def FVal.negate : FVal → FVal
  | .nan n p q => .nan n p q
  | .inf n => .inf (!n)
  | .num n m e => .num (!n) m e

/-- The exponent of a format's smallest subnormal. -/
def FloatFmt.qmin (F : FloatFmt) : Int := 1 - (F.bias : Int) - (F.fbits : Int)

/-- Decode an encoding (R34, R36). -/
def FloatFmt.decode (F : FloatFmt) (x : Nat) : FVal :=
  let neg := nbit x (F.width - 1)
  let e := x / 2 ^ F.fbits % 2 ^ F.ebits
  let f := x % 2 ^ F.fbits
  if F.f8 then
    if e = 15 ∧ f = 7 then .nan neg 0 true
    else if e = 0 then .num neg f F.qmin
    else .num neg (f + 8) ((e : Int) - 11)
  else if e = 2 ^ F.ebits - 1 then
    if f = 0 then .inf neg else .nan neg (f % 2 ^ (F.fbits - 1) * 2 ^ (52 - F.fbits)) (nbit f (F.fbits - 1))
  else if e = 0 then .num neg f F.qmin
  else .num neg (f + 2 ^ F.fbits) ((e : Int) - F.bias - F.fbits)

/-- A nonzero number below the format's smallest normal. -/
def FloatFmt.subnormal (F : FloatFmt) (x : Nat) : Bool :=
  x / 2 ^ F.fbits % 2 ^ F.ebits == 0 && x % 2 ^ F.fbits != 0

/-- Read an operand: a subnormal is read as a zero of its own sign when SUB flushes operands (R46). -/
def FloatFmt.operand (F : FloatFmt) (fpm : BitVec 6) (x : Nat) : FVal :=
  if fpmFlushIn fpm && F.subnormal x then .zero (nbit x (F.width - 1)) else F.decode x

/-- The sign bit in place. -/
def FloatFmt.signBit (F : FloatFmt) (neg : Bool) : Nat := if neg then 2 ^ (F.width - 1) else 0
/-- The encoding of infinity. -/
def FloatFmt.infBits (F : FloatFmt) (neg : Bool) : Nat := F.signBit neg + (2 ^ F.ebits - 1) * 2 ^ F.fbits
/-- The canonical NaN (R35). -/
def FloatFmt.canonNan (F : FloatFmt) : Nat :=
  if F.f8 then 0x7F else (2 ^ F.ebits - 1) * 2 ^ F.fbits + 2 ^ (F.fbits - 1)
/-- The largest finite magnitude's encoding. -/
def FloatFmt.maxBits (F : FloatFmt) (neg : Bool) : Nat :=
  F.signBit neg + (if F.f8 then 0x7E else (2 ^ F.ebits - 1) * 2 ^ F.fbits - 1)
/-- The largest finite magnitude as mantissa and exponent. -/
def FloatFmt.maxNum (F : FloatFmt) : Nat × Int :=
  if F.f8 then (14, 4) else (2 ^ (F.fbits + 1) - 1, (F.bias : Int) - F.fbits)

/-- A NaN result (R47): canonical when NANP = 0, else the operand's, quieted, with the bits that fit. -/
def FloatFmt.nanBits (F : FloatFmt) (fpm : BitVec 6) (neg : Bool) (pay : Nat) : Nat :=
  if !fpmNanp fpm then F.canonNan
  else if F.f8 then (if neg then 0xFF else 0x7F)
  else F.signBit neg + F.canonNan + pay / 2 ^ (52 - F.fbits)

/-! Rounding (R45, R46, R49). -/

/-- A magnitude times 2^sh, for either sign of sh; bits below are dropped. -/
def shiftNat (m : Nat) (sh : Int) : Nat := if 0 ≤ sh then m * 2 ^ sh.toNat else m / 2 ^ (-sh).toNat

/-- Round a magnitude m · 2^e to a multiple of 2^q in a mode: the multiple, and whether it differs. -/
def roundTo (rm : Nat) (neg : Bool) (m : Nat) (e q : Int) : Nat × Bool :=
  if q ≤ e then (m * 2 ^ (e - q).toNat, false)
  else
    let d := 2 ^ (q - e).toNat
    let lo := m / d
    let r := m % d
    let up := if rm = 0 then decide (d < 2 * r) || (2 * r == d && lo % 2 == 1)
      else if rm = 1 then false
      else if rm = 2 then r != 0 && !neg
      else r != 0 && neg
    (if up then lo + 1 else lo, r != 0)

/-- Compare m · 2^e with n · 2^f: less. -/
def magLt (m : Nat) (e : Int) (n : Nat) (f : Int) : Bool :=
  if e ≤ f then decide (m < n * 2 ^ (f - e).toNat) else decide (m * 2 ^ (e - f).toNat < n)

/-- The encoding of mant · 2^q, which the format holds exactly. -/
def FloatFmt.encode (F : FloatFmt) (neg : Bool) (mant : Nat) (q : Int) : Nat :=
  if mant = 0 then F.signBit neg
  else if mant < 2 ^ F.fbits then F.signBit neg + mant
  else
    let (mant, q) := if mant = 2 ^ (F.fbits + 1) then (2 ^ F.fbits, q + 1) else (mant, q)
    F.signBit neg + (q + F.bias + F.fbits).toNat * 2 ^ F.fbits + (mant - 2 ^ F.fbits)

/-- A result that overflows (R49). -/
def FloatFmt.overflow (F : FloatFmt) (fpm : BitVec 6) (neg : Bool) : Nat × BitVec 5 :=
  let rm := fpmRm fpm
  let toInf := rm == 0 || (rm == 2 && !neg) || (rm == 3 && neg)
  let sat := fpmSat fpm && F.width != 64
  (if sat || !toInf then F.maxBits neg else if F.f8 then 0x7F else F.infBits neg, flagOF ||| flagPE)

/-- The helper round of R45 on a number, with the modes of R46 and the overflow of R49. -/
def FloatFmt.roundNum (F : FloatFmt) (fpm : BitVec 6) (neg : Bool) (m : Nat) (e : Int) : Nat × BitVec 5 :=
  if m = 0 then (F.signBit neg, 0)
  else
    let rm := fpmRm fpm
    let qu : Int := e + (Nat.log2 m : Int) - F.fbits
    let (mu, inexactU) := roundTo rm neg m e qu
    let tiny := magLt mu qu 1 (1 - (F.bias : Int))
    if tiny && fpmFlushOut fpm then (F.signBit neg, flagUF ||| flagPE)
    else
      let (r, q, inexact) := if F.qmin ≤ qu then (mu, qu, inexactU) else
        (let x := roundTo rm neg m e F.qmin; (x.1, F.qmin, x.2))
      if magLt F.maxNum.1 F.maxNum.2 r q then F.overflow fpm neg
      else (F.encode neg r q, if inexact then (if tiny then flagUF ||| flagPE else flagPE) else 0)

/-- An exact result into a format (R45 to R49). -/
def FloatFmt.pack (F : FloatFmt) (fpm : BitVec 6) (v : FVal) : Nat × BitVec 5 :=
  match v with
  | .nan n p _ => (F.nanBits fpm n p, 0)
  | .inf n =>
    if F.f8 then (if fpmSat fpm then (F.maxBits n, flagPE) else (0x7F, flagNV)) else (F.infBits n, 0)
  | .num n m e => F.roundNum fpm n m e

/-- The exact result of an operation with the flags it raises by itself. -/
abbrev FRes := FVal × BitVec 5

/-- Finish an operation: round, and OR the flags. -/
def FloatFmt.finish (F : FloatFmt) (fpm : BitVec 6) (r : FRes) : Nat × BitVec 5 :=
  let p := F.pack fpm r.1
  (p.1, p.2 ||| r.2)

/-- An invalid operation without a NaN operand (R47). -/
def invalid : FRes := (.qnan, flagNV)
/-- NV when an operand is a signalling NaN. -/
def snanFlag (vs : List FVal) : BitVec 5 := if vs.any FVal.isSnan then flagNV else 0
/-- The first NaN among operands in operand order (R47). -/
def firstNan (vs : List FVal) : Option FVal := vs.find? FVal.isNan

/-! Arithmetic. -/

/-- The signed mantissa of a number at exponent q, at most its own. -/
def scaled (neg : Bool) (m : Nat) (e q : Int) : Int :=
  let x : Int := (m * 2 ^ (e - q).toNat : Nat)
  if neg then -x else x

/-- The exact sum of two numbers; the sign of a zero sum by R45. -/
def addNum (rm : Nat) (n₁ : Bool) (m₁ : Nat) (e₁ : Int) (n₂ : Bool) (m₂ : Nat) (e₂ : Int) : FVal :=
  if m₁ = 0 ∧ m₂ = 0 then .zero (if n₁ = n₂ then n₁ else rm == 3)
  else if m₁ = 0 then .num n₂ m₂ e₂
  else if m₂ = 0 then .num n₁ m₁ e₁
  else
    let q := min e₁ e₂
    let x := scaled n₁ m₁ e₁ q + scaled n₂ m₂ e₂ q
    if x = 0 then .zero (rm == 3) else .num (decide (x < 0)) x.natAbs q

/-- Sum. -/
def FVal.add (fpm : BitVec 6) (a b : FVal) : FRes :=
  match firstNan [a, b] with
  | some v => (v, snanFlag [a, b])
  | none =>
    match a, b with
    | .inf x, .inf y => if x = y then (.inf x, 0) else invalid
    | .inf x, _ => (.inf x, 0)
    | _, .inf y => (.inf y, 0)
    | .num n₁ m₁ e₁, .num n₂ m₂ e₂ => (addNum (fpmRm fpm) n₁ m₁ e₁ n₂ m₂ e₂, 0)
    | _, _ => (.qnan, 0)

/-- Difference: the sum with b negated. -/
def FVal.sub (fpm : BitVec 6) (a b : FVal) : FRes := a.add fpm b.negate

/-- Product of two values that are no NaN, or none for 0 · ∞. -/
def mulExact (a b : FVal) : Option FVal :=
  match a, b with
  | .inf x, .inf y => some (.inf (x ^^ y))
  | .inf x, .num y m _ => if m = 0 then none else some (.inf (x ^^ y))
  | .num x m _, .inf y => if m = 0 then none else some (.inf (x ^^ y))
  | .num x m e, .num y k f => some (.num (x ^^ y) (m * k) (e + f))
  | _, _ => some .qnan

/-- Product. -/
def FVal.mul (a b : FVal) : FRes :=
  match firstNan [a, b] with
  | some v => (v, snanFlag [a, b])
  | none => match mulExact a b with | some v => (v, 0) | none => invalid

/-- Quotient: exact when it ends within 140 bits, else with a set lowest bit. -/
def divNum (n : Bool) (m : Nat) (e : Int) (k : Nat) (f : Int) : FVal :=
  let q := m * 2 ^ 140 / k
  .num n (2 * q + (if m * 2 ^ 140 % k = 0 then 0 else 1)) (e - f - 141)

/-- Quotient (R136). -/
def FVal.div (a b : FVal) : FRes :=
  match firstNan [a, b] with
  | some v => (v, snanFlag [a, b])
  | none =>
    match a, b with
    | .inf _, .inf _ => invalid
    | .inf x, .num y _ _ => (.inf (x ^^ y), 0)
    | .num x _ _, .inf y => (.zero (x ^^ y), 0)
    | .num x m e, .num y k f =>
      if k = 0 then (if m = 0 then invalid else (.inf (x ^^ y), flagDZ))
      else (divNum (x ^^ y) m e k f, 0)
    | _, _ => (.qnan, 0)

/-- The integer square root, from the bit `i` down. -/
def isqrtFrom (n : Nat) : Nat → Nat → Nat
  | 0, r => if (r + 1) * (r + 1) ≤ n then r + 1 else r
  | i + 1, r =>
    let c := r + 2 ^ (i + 1)
    isqrtFrom n i (if c * c ≤ n then c else r)
/-- The integer square root. -/
def isqrt (n : Nat) : Nat := isqrtFrom n (Nat.log2 n / 2 + 1) 0

/-- Square root of a positive number. -/
def sqrtNum (m : Nat) (e : Int) : FVal :=
  let (m, e) := if e % 2 = 0 then (m, e) else (2 * m, e - 1)
  let n := m * 2 ^ 160
  let r := isqrt n
  .num false (2 * r + (if r * r = n then 0 else 1)) (e / 2 - 81)

/-- Square root (R136). -/
def FVal.sqrt (a : FVal) : FRes :=
  match a with
  | .nan n p q => (.nan n p q, if q then 0 else flagNV)
  | .inf n => if n then invalid else (.inf false, 0)
  | .num n m e => if m = 0 then (.zero n, 0) else if n then invalid else (sqrtNum m e, 0)

/-- Fused multiply-add a · b + c (R138): 0 · ∞ gives NaN with NV even beside a NaN addend. -/
def FVal.fma (fpm : BitVec 6) (a b c : FVal) : FRes :=
  match firstNan [a, b] with
  | some v => (v, snanFlag [a, b, c])
  | none =>
    match mulExact a b with
    | none => (match c with | .nan .. => c | _ => .qnan, flagNV)
    | some p => p.add fpm c

/-- The order of two values that are no NaN: a < b. -/
def FVal.lt (a b : FVal) : Bool :=
  match a, b with
  | .inf x, .inf y => x && !y
  | .inf x, _ => x
  | _, .inf y => !y
  | .num x m e, .num y k f =>
    if m = 0 ∧ k = 0 then false
    else if m = 0 then !y
    else if k = 0 then x
    else if x && !y then true
    else if !x && y then false
    else if x then magLt k f m e else magLt m e k f
  | _, _ => false
/-- Equality of two values that are no NaN; the zeros are equal. -/
def FVal.eq (a b : FVal) : Bool := !a.lt b && !b.lt a
/-- The sign of a value. -/
def FVal.neg : FVal → Bool
  | .nan n _ _ => n
  | .inf n => n
  | .num n _ _ => n

/-- The operand read by R137: its encoding with a flushed subnormal as a zero. -/
def FloatFmt.readBits (F : FloatFmt) (fpm : BitVec 6) (x : Nat) : Nat :=
  if fpmFlushIn fpm && F.subnormal x then F.signBit (nbit x (F.width - 1)) else x

/-- VFMAX and VFMIN (R137). -/
def FloatFmt.maxmin (F : FloatFmt) (fpm : BitVec 6) (isMax : Bool) (x y : Nat) : Nat × BitVec 5 :=
  let x := F.readBits fpm x
  let y := F.readBits fpm y
  let a := F.decode x
  let b := F.decode y
  let fl := snanFlag [a, b]
  match a, b with
  | .nan n p _, .nan .. => (F.nanBits fpm n p, fl)
  | .nan .., _ => (y, fl)
  | _, .nan .. => (x, fl)
  | _, _ =>
    if a.isZero && b.isZero then (F.signBit (if isMax then a.neg && b.neg else a.neg || b.neg), 0)
    else if isMax then (if a.lt b then y else x, 0)
    else (if b.lt a then y else x, 0)

/-! DS8 and SC8 (R37 to R41). -/

/-- One term of a DS8 byte in units of 2^−6. -/
def ds8Term (sign : Bool) (sh : Nat) : Int :=
  if sh = 7 then 0 else if sign then -((64 / 2 ^ sh : Nat) : Int) else ((64 / 2 ^ sh : Nat) : Int)
/-- The value of a DS8 byte in units of 2^−6 (R37). -/
def ds8Units (x : Nat) : Int := ds8Term (nbit x 7) (x / 16 % 8) + ds8Term (nbit x 3) (x % 8)
/-- The value of a DS8 byte. -/
def ds8Value (x : Nat) : FVal := let u := ds8Units x; .num (decide (u < 0)) u.natAbs (-6)

/-- The canonical order of encodings of one value (R38): fewest present terms, then a ≤ b with an absent term written 0x7 in the b
field, then the smallest byte. -/
def ds8Key (x : Nat) : Nat :=
  let sa := x / 16 % 8
  let sb := x % 8
  let present := (if sa = 7 then 0 else 1) + (if sb = 7 then 0 else 1)
  let bad := decide (sb < sa) || (sa == 7 && nbit x 7) || (sb == 7 && nbit x 3)
  present * 512 + (if bad then 256 else 0) + x
/-- The canonical encoding of a value in units of 2^−6 (R38). -/
def ds8Canonical (u : Int) : Nat :=
  ((List.range 256).foldl (fun best x =>
    if ds8Units x = u then (match best with | none => some x | some b => if ds8Key x < ds8Key b then some x else some b)
    else best) none).getD 0x77

/-- The magnitudes of DS8 in units of 2^−6, rising. -/
def ds8Magnitudes : List Nat :=
  (List.range 129).filter (fun u => (List.range 256).any (fun x => (ds8Units x).natAbs == u))

/-- The nearest magnitude to m · 2^e in units of 2^−6, the smaller on a tie (R39), and whether it is exact. -/
def ds8Nearest (m : Nat) (e : Int) : Nat × Bool :=
  let k := (-(e + 6)).toNat
  let x := m * 2 ^ (e + 6).toNat
  let dist := fun (u : Nat) => if u * 2 ^ k ≤ x then x - u * 2 ^ k else u * 2 ^ k - x
  let best := ds8Magnitudes.foldl (fun b u => if dist u < dist b then u else b) 0
  (best, dist best == 0)

/-- Encode a value as DS8 (R39). -/
def ds8Encode (v : FVal) : Nat × BitVec 5 :=
  match v with
  | .nan .. => (0x77, flagNV)
  | .inf n => (if n then 0x88 else 0x00, flagOF)
  | .num n m e =>
    if magLt 2 0 m e then (if n then 0x88 else 0x00, flagOF ||| flagPE)
    else
      let (u, exact) := ds8Nearest m e
      (ds8Canonical (if n then -(u : Int) else (u : Int)), if exact then 0 else flagPE)

/-- An element scaled by an SC8 byte (R41): the exact product; byte 0 reads +0, byte 255 the canonical NaN. -/
def scaleBy (sc : Nat) (v : FVal) : FVal :=
  if sc = 0 then .zero false
  else if sc = 255 then .qnan
  else
    match v with
    | .num n m e =>
      if sc % 2 = 0 then .num n m (e + ((sc : Int) - 128) / 2)
      else .num n (m * 0xB504F3) (e + ((sc : Int) - 129) / 2 - 23)
    | w => w

/-! Integers. -/

/-- The signed reading of the low w bits. -/
def toSigned (w x : Nat) : Int := if nbit x (w - 1) then (x % 2 ^ w : Nat) - (2 ^ w : Nat) else (x % 2 ^ w : Nat)
/-- The low w bits of an integer. -/
def ofInteger (w : Nat) (x : Int) : Nat := (x % (2 ^ w : Nat)).toNat
/-- An integer as a value. -/
def FVal.ofInt (x : Int) : FVal := .num (decide (x < 0)) x.natAbs 0
/-- The range of an integer type. -/
def intRange (signed : Bool) (w : Nat) : Int × Int :=
  if signed then (-(2 ^ (w - 1) : Nat), (2 ^ (w - 1) : Nat) - 1) else (0, (2 ^ w : Nat) - 1)
/-- Clamp to a range. -/
def clampInt (lo hi x : Int) : Int := if x < lo then lo else if hi < x then hi else x

/-- A value to an integer type (R50). Whether a value is outside the range is judged after rounding, which the spec does not say: −0.25 to
an unsigned type under RNE is 0 with PE (DESIGN CHOICE, log entry 66). -/
def FVal.toInteger (rm : Nat) (signed : Bool) (w : Nat) (v : FVal) : Nat × BitVec 5 :=
  let (lo, hi) := intRange signed w
  match v with
  | .nan .. => (0, flagNV)
  | .inf n => (ofInteger w (if n then lo else hi), flagNV)
  | .num n m e =>
    let (r, inexact) := roundTo rm n m e 0
    let x : Int := if n then -(r : Int) else (r : Int)
    if x < lo then (ofInteger w lo, flagNV)
    else if hi < x then (ofInteger w hi, flagNV)
    else (ofInteger w x, if inexact then flagPE else 0)

/-! Special functions (R140), by fixed-point series of 640 fraction bits; see log entry 9. -/

/-- Fraction bits of the fixed-point numbers. -/
def fxBits : Nat := 640
/-- One. -/
def fxOne : Nat := 2 ^ fxBits
/-- Product. -/
def fxMul (a b : Nat) : Nat := a * b / fxOne

/-- The sum of x^k / k! for k = i, i + 1, …, with the present term given, by fuel. -/
def expSeries (x : Nat) : Nat → Nat → Nat → Nat
  | 0, _, _ => 0
  | f + 1, i, term => term + expSeries x f (i + 1) (fxMul term x / (i + 1))
/-- e^x for a fixed-point x below 1. -/
def fxExp (x : Nat) : Nat := expSeries x 200 0 fxOne

/-- The sum of z^(2k+1) / (2k + 1), signs alternating when `alt`, by fuel. -/
def atanSeries (alt : Bool) (z2 : Nat) : Nat → Nat → Nat → Int
  | 0, _, _ => 0
  | f + 1, i, p => (p / (2 * i + 1) : Nat) + (if alt then -1 else 1) * atanSeries alt z2 f (i + 1) (fxMul p z2)
/-- The inverse hyperbolic tangent of a fixed-point number. -/
def fxAtanh (z : Nat) : Nat := (atanSeries false (fxMul z z) 320 0 z).toNat
/-- The inverse tangent of 1 / n. -/
def fxAtanInv (n : Nat) : Int := atanSeries true (fxOne / (n * n)) 320 0 (fxOne / n)
/-- ln 2. -/
def fxLn2 : Nat := 2 * fxAtanh (fxOne / 3)
/-- π. -/
def fxPi : Nat := (16 * fxAtanInv 5 - 4 * fxAtanInv 239).toNat

/-- A positive inexact value given by its leading bits: half of the fraction bits are dropped as uncertain and the lowest bit is
set. -/
def inexactFx (neg : Bool) (m : Nat) (e : Int) : FVal :=
  .num neg (2 * (m / 2 ^ 256) + 1) (e + 255)

/-- 2^x. -/
def exp2Val (n : Bool) (m : Nat) (e : Int) : FVal :=
  let big := magLt 5000 0 m e
  if big then .num false 1 (if n then -6000 else 6000)
  else
    let fx := shiftNat m (e + fxBits)
    let x : Int := if n then -(fx : Int) else (fx : Int)
    let i := x / (fxOne : Int)
    let f := (x % (fxOne : Int)).toNat
    if f = 0 then .num false 1 i
    else inexactFx false (fxExp (fxMul f fxLn2)) (i - fxBits)

/-- log2 of a positive number: exact at the powers of two. -/
def log2Val (m : Nat) (e : Int) : FVal :=
  let L := Nat.log2 m
  let k : Int := e + L
  if m = 2 ^ L then .ofInt k
  else
    let y := shiftNat m ((fxBits : Int) - L)
    let l := 2 * fxAtanh ((y - fxOne) * fxOne / (y + fxOne)) * fxOne / fxLn2
    let x : Int := k * (fxOne : Int) + l
    inexactFx (decide (x < 0)) x.natAbs (-(fxBits : Int))

/-- 1 / √x of a positive number. -/
def rsqrtVal (m : Nat) (e : Int) : FVal :=
  let (m, e) := if e % 2 = 0 then (m, e) else (2 * m, e - 1)
  let r := isqrt (2 ^ 256 / m)
  .num false (2 * r + (if r * r * m = 2 ^ 256 then 0 else 1)) (-(e / 2) - 129)

/-- The series of sine (i odd start) and cosine, by fuel: alternating terms x^i / i!. -/
def trigSeries (x2 : Nat) : Nat → Nat → Nat → Int
  | 0, _, _ => 0
  | f + 1, i, term => (term : Int) - trigSeries x2 f (i + 2) (fxMul term x2 / ((i + 1) * (i + 2)))

/-- A number smaller in magnitude than m · 2^e by less than any bit that can decide a rounding. -/
def justBelow (n : Bool) (m : Nat) (e : Int) : FVal := .num n (m * 2 ^ 64 - 1) (e - 64)

/-- sin x of a nonzero number: below 2^−20 it lies just under x. -/
def sinVal (n : Bool) (m : Nat) (e : Int) : FVal :=
  if magLt m e 1 (-20) then justBelow n m e
  else
    let fx := shiftNat m (e + fxBits)
    let half := fxPi / 2
    let q := fx / half
    let r := fx % half
    let v := if q % 2 = 0 then trigSeries (fxMul r r) 200 1 r else trigSeries (fxMul r r) 200 0 fxOne
    inexactFx (n ^^ (q % 4 ≥ 2)) v.natAbs (-(fxBits : Int))

/-- e^x for a nonnegative number at most 1,000, in fixed point. -/
def expFx (m : Nat) (e : Int) : Nat :=
  let fx := shiftNat m (e + fxBits)
  let k := fx / fxLn2
  fxExp (fx % fxLn2) * 2 ^ k

/-- tanh x of a nonzero number. -/
def tanhVal (n : Bool) (m : Nat) (e : Int) : FVal :=
  if magLt m e 1 (-20) then justBelow n m e
  else if magLt 400 0 m e then justBelow n 1 0
  else
    let E := expFx m (e + 1)
    inexactFx n ((E - fxOne) * fxOne / (E + fxOne)) (-(fxBits : Int))

/-- 1 / (1 + e^−x) of a nonzero number. -/
def sigmVal (n : Bool) (m : Nat) (e : Int) : FVal :=
  if magLt 1000 0 m e then (if n then .num false 1 (-2000) else justBelow false 1 0)
  else
    let E := expFx m e
    if n then inexactFx false (fxOne * 2 ^ 2560 / (fxOne + E)) (-2560)
    else inexactFx false (E * fxOne / (fxOne + E)) (-(fxBits : Int))

/-- The special functions. -/
inductive SpecFn where
  | exp2 | log2 | rcp | rsqrt | sin | tanh | sigm
  deriving DecidableEq, Repr

/-- f(x) with its special operands (R140). -/
def SpecFn.apply (f : SpecFn) (a : FVal) : FRes :=
  match a with
  | .nan n p q => (.nan n p q, if q then 0 else flagNV)
  | .inf n =>
    match f with
    | .exp2 => (if n then .zero false else .inf false, 0)
    | .log2 => if n then invalid else (.inf false, 0)
    | .rcp => (.zero n, 0)
    | .rsqrt => if n then invalid else (.zero false, 0)
    | .sin => invalid
    | .tanh => (.num n 1 0, 0)
    | .sigm => (if n then .zero false else .num false 1 0, 0)
  | .num n m e =>
    if m = 0 then
      match f with
      | .exp2 => (.num false 1 0, 0)
      | .log2 => (.inf true, flagDZ)
      | .rcp => (.inf n, flagDZ)
      | .rsqrt => (.inf n, flagDZ)
      | .sin => (.zero n, 0)
      | .tanh => (.zero n, 0)
      | .sigm => (.num false 1 (-1), 0)
    else
      match f with
      | .exp2 => (exp2Val n m e, 0)
      | .log2 => if n then invalid else (log2Val m e, 0)
      | .rcp => (divNum n 1 0 m e, 0)
      | .rsqrt => if n then invalid else (rsqrtVal m e, 0)
      | .sin => (sinVal n m e, 0)
      | .tanh => (tanhVal n m e, 0)
      | .sigm => (sigmVal n m e, 0)

/-! Element formats (R32). -/

/-- An element format as arithmetic sees it. -/
inductive Elem where
  | int (signed : Bool) (w : Nat)
  | flt (F : FloatFmt)
  | ds8
  deriving DecidableEq, Repr

/-- The format of a code; a scaled code names its elements; SC8 bytes are none. -/
def elemOf (code : Nat) : Option Elem :=
  match code with
  | 0x00 => some (.int true 8)
  | 0x01 => some (.int false 8)
  | 0x02 => some (.int true 16)
  | 0x03 => some (.int false 16)
  | 0x04 => some (.int true 32)
  | 0x05 => some (.int false 32)
  | 0x06 => some (.int true 64)
  | 0x07 => some (.int false 64)
  | 0x08 => some (.flt binary16)
  | 0x09 => some (.flt bfloat16)
  | 0x0A => some (.flt binary32)
  | 0x0B => some (.flt binary64)
  | 0x0C => some (.flt formatF8)
  | 0x0D => some .ds8
  | 0x0E => some (.flt formatF8)
  | 0x0F => some .ds8
  | _ => none

/-- Bits of an element. -/
def Elem.width : Elem → Nat
  | .int _ w => w
  | .flt F => F.width
  | .ds8 => 8

/-- The value of an element, with the operand flush of R46. -/
def Elem.value (k : Elem) (fpm : BitVec 6) (x : Nat) : FVal :=
  match k with
  | .int true w => .ofInt (toSigned w x)
  | .int false w => .ofInt ((x % 2 ^ w : Nat) : Int)
  | .flt F => F.operand fpm x
  | .ds8 => ds8Value x

/-- An element's signed reading, for an integer source. -/
def Elem.toInt (k : Elem) (x : Nat) : Int :=
  match k with
  | .int true w => toSigned w x
  | _ => ((x % 2 ^ k.width : Nat) : Int)

/-- A value into an element format (R48 to R50). -/
def Elem.ofValue (k : Elem) (fpm : BitVec 6) (v : FVal) : Nat × BitVec 5 :=
  match k with
  | .int s w => v.toInteger (fpmRm fpm) s w
  | .flt F => let r := F.pack fpm v; (r.1, r.2 ||| snanFlag [v])
  | .ds8 => ds8Encode v

/-- A conversion between element formats (R48, R143): `sat` clamps integers, an integer source narrows by its low bits; no result
of a widening conversion is flushed. A subnormal F8 operand widened to bfloat16 or binary16 is flushed under SUB 2 and 3 by R46, though
R48 calls the pair exact (DESIGN CHOICE, log entry 68). -/
def convert (src dst : Elem) (fpm : BitVec 6) (sat : Bool) (x : Nat) : Nat × BitVec 5 :=
  match src, dst with
  | .int .., .int s w =>
    let v := src.toInt x
    let (lo, hi) := intRange s w
    (ofInteger w (if sat then clampInt lo hi v else v), 0)
  | _, .ds8 => ds8Encode (match src with | .flt F => F.decode x | k => k.value 0 x)
  | .flt F, .flt G => dst.ofValue (if F.width < G.width then fpm &&& 0x3B#6 else fpm) (src.value fpm x)
  | _, _ => dst.ofValue fpm (src.value fpm x)

end Sys2Proof.Machine
end

