-- ==== Sys2Proof/Machine/Operands.lean ====
section
/-! DEFINITION. Operand forms: vector names with their slots, the LDQ and the SDQ (R10 to R14), lanes under a mask (R72, R132), and
the shapes of the vector instructions (R131 to R133, R135). The scalar forms stand with the registers in Ops, the address
forms in Access. -/

namespace Sys2Proof.Machine

/-- Lane width in bits of an element size (R71, R131). -/
def eszW (esz : BitVec 2) : Nat := 8 * 2 ^ esz.toNat
/-- The floating-point format of an element size: bfloat16, binary32, binary64 (R131). -/
def eszF (esz : BitVec 2) : FloatFmt := if esz = 1 then bfloat16 else if esz = 2 then binary32 else binary64
/-- Lanes of a width. -/
def laneCount (w : Nat) : Nat := 1024 / w

/-- A vector of lanes given as a list. -/
def packLanes (w : Nat) (l : List Nat) : VReg := BitVec.ofNat 1024 (l.foldr (fun x acc => x % 2 ^ w + 2 ^ w * acc) 0)
/-- The lanes of a vector. -/
def unpackLanes (w : Nat) (v : VReg) : List Nat := tabulate (laneCount w) (fun i => lane w i v)
/-- The vector whose lane i holds i. -/
def iota (w : Nat) : VReg := packLanes w (List.range (laneCount w))

/-- The block register a name below v28 denotes (R11). -/
def Thread.vSlot (t : Thread) (n : VName) : Option VReg :=
  match t.slots.toList.getD (n.val / 4) none with
  | some b => some (b.toList.getD (n.val % 4) 0)
  | none => none

/-- Entries of a queue an instruction takes or adds: how often a name stands in a list. -/
def countName (n : VName) (l : List VName) : Nat := (l.filter (· == n)).length

/-- The checks of slots and queues (R11, R14, R150): VSLOT_EMPTY, QUEUE_OVERFLOW, QUEUE_UNDERFLOW. -/
def vCheck (t : Thread) (reads writes : List VName) : Except Stop Unit := do
  need ((reads ++ writes).all (fun n => decide (28 ≤ n.val) || (t.vSlot n).isSome)) .VSLOT_EMPTY
  need (decide (t.ldq.length - countName 28 reads + countName 28 writes ≤ 8)
    && decide (t.sdq.length - countName 29 reads + countName 29 writes ≤ 8)) .QUEUE_OVERFLOW
  need (decide (countName 28 reads ≤ t.ldq.length) && decide (countName 29 reads ≤ t.sdq.length)) .QUEUE_UNDERFLOW

/-- Read a vector name as a source in lane width w: v28 pops the LDQ, v29 the SDQ (a store's data), v30 reads zero, v31 the lane
numbers (R12). -/
def Thread.vRead (t : Thread) (w : Nat) (n : VName) : Thread × VReg :=
  if n.val < 28 then (t, (t.vSlot n).getD 0)
  else if n = 28 then ({ t with ldq := t.ldq.drop 1 }, t.ldq.headD 0)
  else if n = 29 then ({ t with sdq := t.sdq.drop 1 }, t.sdq.headD 0)
  else if n = 30 then (t, 0)
  else (t, iota w)

/-- Read several names, in operand order (R13). -/
def Thread.vReads (t : Thread) (w : Nat) : List VName → Thread × List VReg
  | [] => (t, [])
  | n :: r =>
    let (t, v) := t.vRead w n
    let (t, vs) := t.vReads w r
    (t, v :: vs)

/-- The former value of a destination: what inactive lanes keep; a queue has none, so that its entry holds zero there: R132 says so of v29,
and the model takes it for v28 as well, and for the other lanes of VINS (DESIGN CHOICE, log entry 67). -/
def Thread.vOld (t : Thread) (n : VName) : VReg := if n.val < 28 then (t.vSlot n).getD 0 else 0

/-- Write a vector name: v28 pushes the LDQ (a load), v29 the SDQ, v30 and v31 discard (R12). -/
def Thread.vWrite (t : Thread) (n : VName) (v : VReg) : Thread :=
  if n.val < 28 then
    match t.slots.toList.getD (n.val / 4) none with
    | some b => { t with slots := t.slots.setIfInBounds (n.val / 4) (some (b.setIfInBounds (n.val % 4) v)) }
    | none => t
  else if n = 28 then { t with ldq := t.ldq ++ [v] }
  else if n = 29 then { t with sdq := t.sdq ++ [v] }
  else t

/-- Lane results with their flags under a mask: inactive lanes keep the old value and raise nothing (R72, R132). -/
def maskedLanes (w : Nat) (m : Mask) (old : VReg) (f : Nat → Nat × BitVec 5) : VReg × BitVec 5 :=
  let rs := tabulate (laneCount w) (fun i => if m.getLsbD i then f i else (lane w i old, 0))
  (packLanes w (rs.map Prod.fst), rs.foldl (fun a r => a ||| r.2) 0)

/-- What a vector instruction computes from its sources and the old destination. -/
abbrev VFun := Thread → List VReg → VReg → VReg × BitVec 5

/-- The body of a vector instruction: checks, sources in order, the result and its flags. -/
def vBody (s : State) (w : Nat) (reads : List VName) (vd : VName) (f : VFun) : Except Stop State := do
  vCheck s.me reads [vd]
  let (t, vs) := s.me.vReads w reads
  let r := f t vs (t.vOld vd)
  .ok (s.setMe ((t.vWrite vd r.1).orFlags r.2))

/-- A 32-bit vector instruction with a vector destination. -/
def vOp (esz : BitVec 2) (reads : List VName) (vd : VName) (f : VFun) (s : State) : Host.Outcome State Fault Refusal :=
  seq32 s (vBody s (eszW esz) reads vd f)

/-- Lane i of the k-th source. -/
def arg (w : Nat) (vs : List VReg) (k i : Nat) : Nat := lane w i (vs.getD k 0)

/-- A lane-by-lane instruction of two sources. -/
def lane2 (esz : BitVec 2) (mk : MReg) (vd va vb : VName) (f : Thread → Nat → Nat → Nat × BitVec 5) (s : State) :
    Host.Outcome State Fault Refusal :=
  let w := eszW esz
  vOp esz [va, vb] vd (fun t vs old => maskedLanes w (t.rm mk) old (fun i => f t (arg w vs 0 i) (arg w vs 1 i))) s

/-- A lane-by-lane instruction of one source. -/
def lane1 (esz : BitVec 2) (mk : MReg) (vd va : VName) (f : Thread → Nat → Nat × BitVec 5) (s : State) :
    Host.Outcome State Fault Refusal :=
  let w := eszW esz
  vOp esz [va] vd (fun t vs old => maskedLanes w (t.rm mk) old (fun i => f t (arg w vs 0 i))) s

/-- A lane-by-lane instruction whose destination is its third source (R138, R139). -/
def lane3 (esz : BitVec 2) (mk : MReg) (vd va vb : VName) (f : Thread → Nat → Nat → Nat → Nat × BitVec 5) (s : State) :
    Host.Outcome State Fault Refusal :=
  let w := eszW esz
  vOp esz [va, vb, vd] vd
    (fun t vs old => maskedLanes w (t.rm mk) old (fun i => f t (arg w vs 0 i) (arg w vs 1 i) (arg w vs 2 i))) s

/-- Element size of a 16-bit lane instruction (R64). -/
def wEsz (w : Bool) : BitVec 2 := if w then 1 else 2

/-- A 16-bit lane instruction: vd := vd op vs over all lanes (R64, R135). -/
def lane16 (w : Bool) (vd vs : VName) (f : BitVec 2 → Thread → Nat → Nat → Nat × BitVec 5) (s : State) :
    Host.Outcome State Fault Refusal :=
  let esz := wEsz w
  let wd := eszW esz
  seq16 s (vBody s wd [vd, vs] vd
    (fun t vs old => maskedLanes wd (BitVec.allOnes 128) old (fun i => f esz t (arg wd vs 0 i) (arg wd vs 1 i))))

/-! Integer lanes (R134). -/

/-- A lane result without flags. -/
def pureLane (x : Nat) : Nat × BitVec 5 := (x, 0)
/-- The greater of two lanes, signed. -/
def smaxLane (w a b : Nat) : Nat := if toSigned w a < toSigned w b then b else a
/-- The lesser of two lanes, signed. -/
def sminLane (w a b : Nat) : Nat := if toSigned w b < toSigned w a then b else a
/-- The high half of a signed product. -/
def mulhLane (w a b : Nat) : Nat := ofInteger w (toSigned w a * toSigned w b / (2 ^ w : Nat))
/-- An arithmetic right shift of a lane. -/
def sraLane (w a n : Nat) : Nat := ofInteger w (toSigned w a / (2 ^ n : Nat))
/-- A clamped signed result. -/
def satS (w : Nat) (x : Int) : Nat := ofInteger w (clampInt (intRange true w).1 (intRange true w).2 x)
/-- A clamped unsigned result. -/
def satU (w : Nat) (x : Int) : Nat := ofInteger w (clampInt 0 (intRange false w).2 x)

/-! Floating-point lanes (R136). -/

/-- A floating-point operation of two operands on lanes of a format (R133). -/
def fpLane2 (F : FloatFmt) (op : BitVec 6 → FVal → FVal → FRes) (t : Thread) (a b : Nat) : Nat × BitVec 5 :=
  F.finish t.fpm (op t.fpm (F.operand t.fpm a) (F.operand t.fpm b))
/-- A floating-point operation of one operand. -/
def fpLane1 (F : FloatFmt) (op : FVal → FRes) (t : Thread) (a : Nat) : Nat × BitVec 5 :=
  F.finish t.fpm (op (F.operand t.fpm a))
/-- A fused operation. -/
def fpLane3 (F : FloatFmt) (op : BitVec 6 → FVal → FVal → FVal → FRes) (t : Thread) (a b c : Nat) : Nat × BitVec 5 :=
  F.finish t.fpm (op t.fpm (F.operand t.fpm a) (F.operand t.fpm b) (F.operand t.fpm c))

end Sys2Proof.Machine
end

