-- ==== Sys2Proof/Machine/VectorMem.lean ====
section
/-! DEFINITION. Vector loads and stores, gather and scatter (R149 to R152). -/

namespace Sys2Proof.Machine

/-- The addresses of the active lanes, ascending: (lane, address). -/
def laneAddrs (w : Nat) (m : Mask) (f : Nat → Word) : List (Nat × Word) :=
  ((List.range (laneCount w)).filter (fun i => m.getLsbD i)).map (fun i => (i, f i))

/-- A fault of the lowest lane whose address fails a test, at that address (R150). -/
def lanesNeed (l : List (Nat × Word)) (c : Cause) (kind : BitVec 2) (bad : Nat → Bool) : Except Stop Unit :=
  match l.find? (fun a => bad a.2.toNat) with
  | some a => trapAt c a.2 kind
  | none => .ok ()

/-- MISALIGNED_DATA for the lowest lane whose address is not a multiple of the element's bytes. -/
def lanesAligned (l : List (Nat × Word)) (n : Nat) (kind : BitVec 2) : Except Stop Unit :=
  lanesNeed l .MISALIGNED_DATA kind (fun a => a % n != 0)

/-- The scratch checks over all active lanes, each fault before the next (R150), then the wait for staging granules. R150's list does
not hold TX_STAGE (R274): it comes last of the faults (DESIGN CHOICE, log entry 81). -/
def lanesScratch (s : State) (l : List (Nat × Word)) (n : Nat) (write : Bool) : Except Stop Unit := do
  let kind := if write then 1 else 0
  lanesNeed l .SCRATCH_RANGE kind (fun a => decide (s.myCore.scratchSize < a + n))
  lanesNeed l .KWIN_WRITE kind (fun a => write && !s.me.bind.sup && decide (a < 0x400))
  lanesNeed l .TX_STAGE kind (fun a => s.stageBad a n)
  if l.any (fun a => s.stagingHold s.cur a.2.toNat n) then .error (.wait s .staging) else .ok ()

/-- What can refuse a global read of the active lanes, lane by lane ascending: before any element is accessed (R150). R150's list does
not hold TX_SET (R284) and the checked restart (R290): each lane meets them in the place of its translation, which it then has none
of (DESIGN CHOICE, log entry 81). -/
def lanesReadable (n : Nat) : List (Nat × Word) → State → Except Stop State
  | [], s => .ok s
  | a :: r, s => do lanesReadable n r (← globalNeed s a.2 n false)

/-- Read the active lanes from global memory. -/
def lanesLoad (n : Nat) : List (Nat × Word) → State → List (Nat × Nat) → Except Stop (State × List (Nat × Nat))
  | [], s, acc => .ok (s, acc)
  | a :: r, s, acc => do
    let (s, v) ← globalLoad s a.2 n false
    lanesLoad n r s ((a.1, v) :: acc)

/-- Entries that the stores of a vector would add to the D2 commit buffer. -/
def lanesNew (b : List D2Entry) (n : Nat) (l : List (Nat × Word)) : Nat :=
  ((l.flatMap (fun a => granulesOf a.2.toNat n)).foldl (fun acc g => insertNat g acc) [] |>.filter
    (fun g => (d2Find b g).isNone)).length

/-- The grants of the active lanes' writes, lane by lane ascending, before any element is written (R150). -/
def lanesWritable (n : Nat) : List (Nat × Word) → State → Except Stop (State × List (Nat × Word × Grant))
  | [], s => .ok (s, [])
  | a :: r, s => do
    let (s, g) ← writeNeed s a.2.toNat n false
    let (s, l) ← lanesWritable n r s
    .ok (s, (a.1, a.2, g) :: l)

/-- Write the active lanes under their grants, ascending: into the line that the L1 holds, or at the home. -/
def lanesStore (n : Nat) (val : Nat → Nat) : List (Nat × Word × Grant) → State → Except Stop State
  | [], s => .ok s
  | a :: r, s => do
    let va := a.2.1.toNat
    lanesStore n val r (← storeGranted s va n (val a.1) false a.2.2 (s.myCore.lineIx s.me.bind.asid va))

/-- The active lanes enter the D2 commit buffer, ascending: their translation faults come with the grants, and nothing that another
lane's grant rests on is written (R150, R229). -/
def lanesBuffer (n : Nat) (val : Nat → Nat) : List (Nat × Word) → State → Except Stop State
  | [], s => .ok s
  | a :: r, s => do lanesBuffer n val r (← d2Store s a.2.toNat n (val a.1) false)

/-- The global stores of a vector: discarded in a reconnaissance pass (R289); at D2 the quantum ends first when the commit buffer
cannot hold them all (R229). -/
def lanesGlobalStore (s : State) (n : Nat) (l : List (Nat × Word)) (val : Nat → Nat) : Except Stop State :=
  if s.me.inPass then .ok s
  else if s.me.d2 then do
    let s ← if 256 < s.me.d2buf.length + lanesNew s.me.d2buf n l then quantumFirst s else .ok s
    lanesBuffer n val l s
  else do
    let (s, l) ← lanesWritable n l s
    lanesStore n val l s

/-- The element accesses of a vector load: the checks of its space, then every element; the destination is written under the mask
(R149, R150). -/
def vLoadBody (esz : BitVec 2) (mk : MReg) (reads : List VName) (vd : VName) (sp : Bool)
    (addr : Thread → List VReg → Nat → Word) (s : State) : Except Stop State := do
  let w := eszW esz
  let n := w / 8
  let (t, vs) := s.me.vReads w reads
  let m := t.rm mk
  let l := laneAddrs w m (addr t vs)
  lanesAligned l n 0
  let (s, vals) ← if sp then do
      lanesScratch s l n false
      unpoisoned s (l.any (fun a => s.myCore.poisonedAt a.2.toNat n))
      .ok (s, l.map (fun a => (a.1, s.myCore.scratchNum a.2.toNat n)))
    else do lanesLoad n l (← lanesReadable n l s) []
  let r := (maskedLanes w m (t.vOld vd) (fun i => ((vals.find? (fun x => x.1 == i)).elim 0 Prod.snd, 0))).1
  .ok (s.setMe (t.vWrite vd r))

/-- A vector load: slot and queue checks, then its elements (R149, R150). -/
def vLoad (esz : BitVec 2) (mk : MReg) (reads : List VName) (vd : VName) (sp : Bool) (addr : Thread → List VReg → Nat → Word)
    (s : State) : Host.Outcome State Fault Refusal :=
  seq32 s (do
    vCheck s.me reads [vd]
    vLoadBody esz mk reads vd sp addr s)

/-- The element accesses of a vector store: `vd` is the data source, its lanes written in ascending order (R149, R150, R152). -/
def vStoreBody (esz : BitVec 2) (mk : MReg) (reads : List VName) (vd : VName) (sp : Bool)
    (addr : Thread → List VReg → Nat → Word) (s : State) : Except Stop State := do
  let w := eszW esz
  let n := w / 8
  let (t, vs) := s.me.vReads w reads
  let (t, data) := t.vRead w vd
  let m := t.rm mk
  let l := laneAddrs w m (addr t vs)
  if sp then .ok () else
    match l with
    | [] => .ok ()
    | a :: _ => needStorable s a.2
  lanesAligned l n 1
  let s ← if sp then do
      lanesScratch s l n true
      .ok (s.upScratch s.cur (fun at_ c => l.foldl (fun c a => c.scratchWrite (at_ a.2.toNat) (leBytes n (lane w a.1 data))) c))
    else lanesGlobalStore s n l (fun i => lane w i data)
  .ok (s.upMe (fun x => { x with ldq := t.ldq, sdq := t.sdq }))

/-- A vector store: slot and queue checks, then its elements (R149, R150). -/
def vStore (esz : BitVec 2) (mk : MReg) (reads : List VName) (vd : VName) (sp : Bool) (addr : Thread → List VReg → Nat → Word)
    (s : State) : Host.Outcome State Fault Refusal :=
  seq32 s (do
    vCheck s.me (reads ++ [vd]) []
    vStoreBody esz mk reads vd sp addr s)

/-- The contiguous address of lane i (R149). -/
def addrCont (esz : BitVec 2) (a b : SReg) (t : Thread) (_ : List VReg) (i : Nat) : Word :=
  t.rs a + t.rs b + BitVec.ofNat 64 (i * (eszW esz / 8))
/-- The strided address of lane i. -/
def addrStride (a b : SReg) (t : Thread) (_ : List VReg) (i : Nat) : Word := t.rs a + BitVec.ofNat 64 i * t.rs b
/-- The gathered address of lane i (R152). -/
def addrGather (esz : BitVec 2) (a : SReg) (t : Thread) (vs : List VReg) (i : Nat) : Word :=
  t.rs a + BitVec.ofInt 64 (toSigned (eszW esz) (arg (eszW esz) vs 0 i))

/-- VLD (R149). -/
def execVld (esz : BitVec 2) (mk : MReg) (vd : VName) (a b : SReg) (s : State) : Host.Outcome State Fault Refusal :=
  vLoad esz mk [] vd false (addrCont esz a b) s
/-- VLDS (R149). -/
def execVlds (esz : BitVec 2) (mk : MReg) (vd : VName) (a b : SReg) (s : State) : Host.Outcome State Fault Refusal :=
  vLoad esz mk [] vd false (addrStride a b) s
/-- VLDSP (R149). -/
def execVldsp (esz : BitVec 2) (mk : MReg) (vd : VName) (a b : SReg) (s : State) : Host.Outcome State Fault Refusal :=
  vLoad esz mk [] vd true (addrCont esz a b) s
/-- VLDSPS (R149). -/
def execVldsps (esz : BitVec 2) (mk : MReg) (vd : VName) (a b : SReg) (s : State) : Host.Outcome State Fault Refusal :=
  vLoad esz mk [] vd true (addrStride a b) s
/-- VST (R149). -/
def execVst (esz : BitVec 2) (mk : MReg) (vd : VName) (a b : SReg) (s : State) : Host.Outcome State Fault Refusal :=
  vStore esz mk [] vd false (addrCont esz a b) s
/-- VSTS (R149). -/
def execVsts (esz : BitVec 2) (mk : MReg) (vd : VName) (a b : SReg) (s : State) : Host.Outcome State Fault Refusal :=
  vStore esz mk [] vd false (addrStride a b) s
/-- VSTSP (R149). -/
def execVstsp (esz : BitVec 2) (mk : MReg) (vd : VName) (a b : SReg) (s : State) : Host.Outcome State Fault Refusal :=
  vStore esz mk [] vd true (addrCont esz a b) s
/-- VSTSPS (R149). -/
def execVstsps (esz : BitVec 2) (mk : MReg) (vd : VName) (a b : SReg) (s : State) : Host.Outcome State Fault Refusal :=
  vStore esz mk [] vd true (addrStride a b) s
/-- VGATH (R152). -/
def execVgath (esz : BitVec 2) (mk : MReg) (vd : VName) (a : SReg) (vb : VName) (s : State) : Host.Outcome State Fault Refusal :=
  vLoad esz mk [vb] vd false (addrGather esz a) s
/-- VSCAT (R152). -/
def execVscat (esz : BitVec 2) (mk : MReg) (vd : VName) (a : SReg) (vb : VName) (s : State) : Host.Outcome State Fault Refusal :=
  vStore esz mk [vb] vd false (addrGather esz a) s
/-- VGATHSP (R152). -/
def execVgathsp (esz : BitVec 2) (mk : MReg) (vd : VName) (a : SReg) (vb : VName) (s : State) : Host.Outcome State Fault Refusal :=
  vLoad esz mk [vb] vd true (addrGather esz a) s
/-- VSCATSP (R152). -/
def execVscatsp (esz : BitVec 2) (mk : MReg) (vd : VName) (a : SReg) (vb : VName) (s : State) : Host.Outcome State Fault Refusal :=
  vStore esz mk [vb] vd true (addrGather esz a) s

end Sys2Proof.Machine
end

