-- ==== Sys2Proof/Machine/CircularBuffer.lean ====
section
/-! DEFINITION. Circular buffers: validity (R154), VLDC and VSTC (R155), the waits and advances of major 0x3A (R156 to R158), and
CB_BUSY (R339). -/

namespace Sys2Proof.Machine

/-- A valid handle (R154). -/
def CbHandle.valid (c : CbHandle) : Bool :=
  c.base.toNat % 16 == 0 && c.slotsz.toNat % 16 == 0 && c.slotsz != 0 && c.count != 0
    && decide (c.head.toNat < c.count.toNat) && decide (c.tail.toNat < c.count.toNat) && decide (c.fill.toNat ≤ c.count.toNat)
    && (c.head.toNat + c.fill.toNat) % c.count.toNat == c.tail.toNat

/-- Bytes of the ring. -/
def CbHandle.ringSize (c : CbHandle) : Nat := c.count.toNat * c.slotsz.toNat
/-- The scratch address of ring offset o from a slot (R155). -/
def CbHandle.ringAddr (c : CbHandle) (slot o : Nat) : Nat := c.base.toNat + (slot * c.slotsz.toNat + o) % c.ringSize

/-- HEAD and FILL after n slots leave. -/
def CbHandle.pop (c : CbHandle) (n : Nat) : CbHandle :=
  { c with head := BitVec.ofNat 8 ((c.head.toNat + n) % c.count.toNat), fill := c.fill - BitVec.ofNat 8 n }
/-- TAIL and FILL after n slots enter. -/
def CbHandle.push (c : CbHandle) (n : Nat) : CbHandle :=
  { c with tail := BitVec.ofNat 8 ((c.tail.toNat + n) % c.count.toNat), fill := c.fill + BitVec.ofNat 8 n }

/-- CB_RANGE when an active lane's element lies beyond `room` bytes (R155). -/
def ringRange (s : State) (esz : BitVec 2) (mk : MReg) (b : SReg) (room : Nat) : Except Stop Unit :=
  let w := eszW esz
  need ((List.range (laneCount w)).all (fun i =>
    !(s.me.rm mk).getLsbD i || decide ((s.me.rs b).toNat + i * (w / 8) + w / 8 ≤ room))) .CB_RANGE

/-- The address of lane i from a slot (R155). -/
def addrRing (c : CbHandle) (slot : Nat) (esz : BitVec 2) (b : SReg) (t : Thread) (_ : List VReg) (i : Nat) : Word :=
  BitVec.ofNat 64 (c.ringAddr slot ((t.rs b).toNat + i * (eszW esz / 8)))

/-- VLDC (R155). -/
def execVldc (esz : BitVec 2) (mk : MReg) (vd : VName) (c : CReg) (b : SReg) (s : State) : Host.Outcome State Fault Refusal :=
  let k := s.me.rc c
  seq32 s (do
    vCheck s.me [] [vd]
    need k.valid .CB_INVALID
    need (!s.cbDraining s.cur c) .CB_BUSY
    ringRange s esz mk b (k.fill.toNat * k.slotsz.toNat)
    vLoadBody esz mk [] vd true (addrRing k k.head.toNat esz b) s)

/-- VSTC (R155). -/
def execVstc (esz : BitVec 2) (mk : MReg) (vd : VName) (c : CReg) (b : SReg) (s : State) : Host.Outcome State Fault Refusal :=
  let k := s.me.rc c
  seq32 s (do
    vCheck s.me [vd] []
    need k.valid .CB_INVALID
    need (!s.cbFilling s.cur c) .CB_BUSY
    ringRange s esz mk b ((k.count.toNat - k.fill.toNat) * k.slotsz.toNat)
    vStoreBody esz mk [] vd true (addrRing k k.tail.toNat esz b) s)

/-- The condition of CBWAITF (full) or CBWAITE (R156). -/
def CbHandle.ready (c : CbHandle) (full : Bool) (n : BitVec 8) : Bool :=
  if full then decide (n.toNat ≤ c.fill.toNat) else decide (n.toNat ≤ c.count.toNat - c.fill.toNat)

/-- A BTU job that could make a wait's condition true is outstanding (R157). -/
def State.cbHope (s : State) (t : Tid) (full : Bool) (c : CReg) : Bool := if full then s.cbFilling t c else s.cbDraining t c

/-- CBWAITF and CBWAITE (R156, R157): at D2 the quantum ends first (R229). -/
def cbWait (full : Bool) (c : CReg) (n : BitVec 8) (s : State) : Host.Outcome State Fault Refusal :=
  seq32 s (do
    need (s.me.rc c).valid .CB_INVALID
    need (decide (n.toNat ≤ (s.me.rc c).count.toNat)) .CB_RANGE
    let s ← quantumFirst s
    if (s.me.rc c).ready full n then .ok s
    else if s.cbHope s.cur full c then .error (.wait s (.cb full c n))
    else trap .CB_STALL)

/-- CBWAITF (R156). -/
def execCbwaitf (c : CReg) (n : BitVec 8) (s : State) : Host.Outcome State Fault Refusal := cbWait true c n s
/-- CBWAITE (R156). -/
def execCbwaite (c : CReg) (n : BitVec 8) (s : State) : Host.Outcome State Fault Refusal := cbWait false c n s

/-- CBPOP (R156). -/
def execCbpop (c : CReg) (n : BitVec 8) (s : State) : Host.Outcome State Fault Refusal :=
  let k := s.me.rc c
  seq32 s (do
    need k.valid .CB_INVALID
    need (!s.cbDraining s.cur c) .CB_BUSY
    need (decide (n.toNat ≤ k.fill.toNat)) .CB_UNDERFLOW
    .ok (s.upMe (fun t => t.wc c (k.pop n.toNat))))

/-- CBPUSH (R156). -/
def execCbpush (c : CReg) (n : BitVec 8) (s : State) : Host.Outcome State Fault Refusal :=
  let k := s.me.rc c
  seq32 s (do
    need k.valid .CB_INVALID
    need (!s.cbFilling s.cur c) .CB_BUSY
    need (decide (n.toNat ≤ k.count.toNat - k.fill.toNat)) .CB_OVERFLOW
    .ok (s.upMe (fun t => t.wc c (k.push n.toNat))))

/-- CBWAIT_END (R157, R158): the wait ends when its condition holds; with no job left that could change it, CB_STALL. -/
def execCbwaitEnd (t : Tid) (s : State) : Host.Outcome State Fault Refusal :=
  match (s.thread t).status with
  | .waiting (.cb full c n) =>
    if ((s.thread t).rc c).ready full n then .next (s.endWait t id)
    else if s.cbHope t full c then noEvent s
    else .next (s.freeze t (Freeze.of .CB_STALL))
  | _ => noEvent s

end Sys2Proof.Machine
end

