-- ==== Sys2Proof/Machine/Handles.lean ====
section
/-! DEFINITION. Tensor handles: geometry (R160) and the handle operations of major 0x30 (R159). -/

namespace Sys2Proof.Machine

/-- Quotient rounded up. -/
def ceilDiv (a b : Nat) : Nat := (a + b - 1) / b

/-- Tile rows of a handle (R160). -/
def TensorHandle.th (h : TensorHandle) : Nat := 2 ^ h.ltr.toNat
/-- Tile columns. -/
def TensorHandle.tw (h : TensorHandle) : Nat := 2 ^ h.ltc.toNat
/-- NC. -/
def TensorHandle.nc (h : TensorHandle) : Nat := ceilDiv h.cols.toNat h.tw
/-- NT. -/
def TensorHandle.nt (h : TensorHandle) : Nat := ceilDiv h.rows.toNat h.th * h.nc
/-- First row of the tile at a cursor. -/
def TensorHandle.row0 (h : TensorHandle) (cur : Nat) : Nat := cur / h.nc * h.th
/-- First column of the tile at a cursor. -/
def TensorHandle.col0 (h : TensorHandle) (cur : Nat) : Nat := cur % h.nc * h.tw
/-- Element bytes. -/
def TensorHandle.eb (h : TensorHandle) : Nat := fmtBytes h.fmt.toNat
/-- HANDLE_EMPTY. -/
def TensorHandle.empty? (h : TensorHandle) : Bool := h.rows == 0 || h.cols == 0
/-- A reserved element format (R32). -/
def TensorHandle.badFmt (h : TensorHandle) : Bool := decide (0x11 ≤ h.fmt.toNat)
/-- HANDLE_CURSOR at a cursor. -/
def TensorHandle.curOk (h : TensorHandle) (cur : Nat) : Bool := decide (cur < h.nt)

/-- HMOV (R159). -/
def execHmov (hd ha : HReg) (s : State) : Host.Outcome State Fault Refusal :=
  seq32 s (.ok (s.upMe (fun t => t.wh hd (t.rh ha))))

/-- HLD (R159): 32 bytes of global memory, indivisibly. -/
def execHld (hd : HReg) (x : SReg) (s : State) : Host.Outcome State Fault Refusal :=
  let a := s.me.rs x
  seq32 s (do
    needAligned a 32 0
    let (s, v) ← globalLoad s a 32 false
    .ok (s.upMe (fun t => t.wh hd (TensorHandle.ofBits (BitVec.ofNat 256 v)))))

/-- HST (R159). -/
def execHst (hd : HReg) (x : SReg) (s : State) : Host.Outcome State Fault Refusal :=
  let a := s.me.rs x
  seq32 s (do
    needStorable s a
    needAligned a 32 1
    globalStore s a 32 (s.me.rh hd).toBits.toNat false)

/-- A change of a handle from a scalar register. -/
def hset (hd : HReg) (x : SReg) (f : TensorHandle → Word → TensorHandle) (s : State) : Host.Outcome State Fault Refusal :=
  seq32 s (.ok (s.upMe (fun t => t.wh hd (f (t.rh hd) (t.rs x)))))

/-- HSETB (R159). -/
def execHsetb (hd : HReg) (x : SReg) (s : State) : Host.Outcome State Fault Refusal :=
  hset hd x (fun h v => { h with base := v.extractLsb' 0 55, space := v.getLsbD 55 }) s
/-- HSETD (R159). -/
def execHsetd (hd : HReg) (x : SReg) (s : State) : Host.Outcome State Fault Refusal :=
  hset hd x (fun h v => { h with
    rows := v.extractLsb' 0 16
    cols := v.extractLsb' 16 16
    ltr := v.extractLsb' 32 4
    ltc := v.extractLsb' 36 4 }) s
/-- HSETS (R159). -/
def execHsets (hd : HReg) (x : SReg) (s : State) : Host.Outcome State Fault Refusal :=
  hset hd x (fun h v => { h with stride := v.extractLsb' 0 32 }) s
/-- HSETF (R159). -/
def execHsetf (hd : HReg) (x : SReg) (s : State) : Host.Outcome State Fault Refusal :=
  hset hd x (fun h v => { h with fmt := v.extractLsb' 0 5, tareg := v.extractLsb' 8 10, spoff := v.extractLsb' 24 40 }) s
/-- HCUR (R159). -/
def execHcur (hd : HReg) (x : SReg) (s : State) : Host.Outcome State Fault Refusal :=
  hset hd x (fun h v => { h with cur := v.extractLsb' 0 32 }) s

/-- HNEXT (R159, R160). -/
def execHnext (hd : HReg) (s : State) : Host.Outcome State Fault Refusal :=
  let h := s.me.rh hd
  seq32 s (do
    need (!h.empty?) .HANDLE_EMPTY
    need (h.curOk h.cur.toNat) .HANDLE_CURSOR
    .ok (s.upMe (fun t => t.wh hd { h with cur := BitVec.ofNat 32 ((h.cur.toNat + 1) % h.nt) })))

/-- A field group of a handle (R159). -/
def TensorHandle.group (h : TensorHandle) (f : BitVec 3) : Nat :=
  match f.toNat with
  | 0 => h.base.toNat + h.space.toNat * 2 ^ 55
  | 1 => h.fmt.toNat + h.tareg.toNat * 2 ^ 8
  | 2 => h.rows.toNat
  | 3 => h.cols.toNat
  | 4 => h.stride.toNat
  | 5 => h.ltr.toNat + h.ltc.toNat * 2 ^ 4
  | 6 => h.cur.toNat
  | _ => h.spoff.toNat

/-- HGET (R159). -/
def execHget (ha : HReg) (f : BitVec 3) (x : SReg) (s : State) : Host.Outcome State Fault Refusal :=
  seq32 s (.ok (s.upMe (fun t => t.ws x (BitVec.ofNat 64 ((t.rh ha).group f)))))

/-- HTADDR (R160). -/
def execHtaddr (ha : HReg) (x : SReg) (s : State) : Host.Outcome State Fault Refusal :=
  let h := s.me.rh ha
  let cur := h.cur.toNat
  seq32 s (do
    need (!h.empty?) .HANDLE_EMPTY
    need (!h.badFmt) .BAD_FORMAT
    need (h.curOk cur) .HANDLE_CURSOR
    .ok (s.upMe (fun t => t.ws x (BitVec.ofNat 64 (h.base.toNat + h.row0 cur * h.stride.toNat + h.col0 cur * h.eb)))))

end Sys2Proof.Machine
end

