-- ==== Sys2Proof/Machine/EngineMem.lean ====
section
/-! DEFINITION. What the engines share: where the bytes of a tile lie (R310, R335), the accesses of a job (R205, R211), outputs of
which a failed job may leave any subset (R319, R332, R341), the checks of a submission (R309, R322, R336), and waiting for and
polling a job (R318, R331, R340, R344). -/

namespace Sys2Proof.Machine

/-! Tiles. -/

/-- Rows of the tile at a cursor, clipped at the array's edge (R310). -/
def TensorHandle.tileRows (h : TensorHandle) (cur : Nat) : Nat := Nat.min h.th (h.rows.toNat - h.row0 cur)
/-- Columns of the tile at a cursor. -/
def TensorHandle.tileCols (h : TensorHandle) (cur : Nat) : Nat := Nat.min h.tw (h.cols.toNat - h.col0 cur)
/-- The cursor as a number. -/
def TensorHandle.at_ (h : TensorHandle) : Nat := h.cur.toNat
/-- Address of the element at an absolute row and column of the array. -/
def TensorHandle.addr (h : TensorHandle) (base r c : Nat) : Nat := base + r * h.stride.toNat + c * h.eb
/-- Address of an element's scale byte (R40). -/
def TensorHandle.scaleAddr (h : TensorHandle) (base r c : Nat) : Nat :=
  base + h.spoff.toNat + r * ceilDiv h.cols.toNat 64 + c / 64
/-- A format with a scale plane (R32). -/
def TensorHandle.isScaled (h : TensorHandle) : Bool := h.fmt == 0x0E || h.fmt == 0x0F
/-- The DS8 formats (R4). -/
def TensorHandle.isDs8 (h : TensorHandle) : Bool := h.fmt == 0x0D || h.fmt == 0x0F

/-- Where bytes lie: global memory, or the scratchpad of a core. -/
inductive Place where
  | global
  | scratch (core : Nat)
  deriving DecidableEq, Repr

/-- A run of bytes that a job touches, and whether it writes them. -/
structure Piece where
  place : Place
  at_ : Nat
  n : Nat
  write : Bool
  deriving DecidableEq, Repr

/-- The bytes of rows r0 to r0 + m − 1, columns c0 to c0 + k − 1 of an array, with their scale bytes (R40). -/
def TensorHandle.pieces (h : TensorHandle) (p : Place) (base r0 m c0 k : Nat) (write : Bool) : List Piece :=
  if k = 0 then []
  else (List.range m).flatMap (fun i =>
    ⟨p, h.addr base (r0 + i) c0, k * h.eb, write⟩ ::
      (if h.isScaled then [⟨p, h.scaleAddr base (r0 + i) c0, (c0 + k - 1) / 64 - c0 / 64 + 1, write⟩] else []))

/-- The place of a handle for an engine that reads a scratch BASE as a plain offset in the submitter's core. -/
def TensorHandle.ownPlace (h : TensorHandle) (core : Nat) : Place := if h.space then .scratch core else .global

/-- The bytes of the tile at a cursor. -/
def TensorHandle.tilePieces (h : TensorHandle) (p : Place) (base cur : Nat) (write : Bool) : List Piece :=
  h.pieces p base (h.row0 cur) (h.tileRows cur) (h.col0 cur) (h.tileCols cur) write
/-- The bytes of the whole array (R323). -/
def TensorHandle.arrayPieces (h : TensorHandle) (p : Place) (base : Nat) (write : Bool) : List Piece :=
  h.pieces p base 0 h.rows.toNat 0 h.cols.toNat write

/-! Accesses of a job. -/

/-- The number of a translation cause in an ERR register (R318, R331, R340, R344). -/
def Cause.jobCode : Cause → Nat
  | .PAGE_ABSENT => 4 | .PERM => 5 | .BAD_PTE => 6 | .BAD_ASID => 7 | _ => 8

/-- A single-use grant of a job's access (R205). The spec names no register of the device range that an engine reaches: PA_RANGE
(R213, R376). -/
def State.jobGrant (s : State) (j : Job) (va : Nat) (kind : AccessKind) : Except Nat (State × Grant) :=
  match s.engineGrant j.asid j.sup va kind with
  | .ok (s, g) => if paDevice (g.pline * 256) then .error 8 else .ok (s, g)
  | .error c => .error c.jobCode

/-- Read n bytes of global memory at their home slices, line by line, by fuel. -/
def State.jobGlobal (s : State) (j : Job) : Nat → Nat → Nat → Except Nat (State × Nat)
  | 0, _, _ => .ok (s, 0)
  | f + 1, va, n =>
    if n = 0 then .ok (s, 0)
    else do
      let k := Nat.min n (256 - va % 256)
      let (s, g) ← s.jobGrant j va .read
      let v := s.mem.num (g.pline * 256 + va % 256) k
      let (s, w) ← State.jobGlobal s j f (va + k) (n - k)
      .ok (s, v + w * 2 ^ (8 * k))

/-- Some of n bytes is poisoned (R392). -/
def State.jobPoison (s : State) (j : Job) (p : Place) (a n : Nat) : Bool :=
  match p with
  | .scratch c => (s.core c).poisonedAt a n
  | .global => !(s.virtPoison j.asid j.sup (n / 256 + 2) a n).isEmpty

/-- Read n bytes for a copy, which carries their poison with it (R392). -/
def State.jobMove (s : State) (j : Job) (p : Place) (a n : Nat) : Except Nat (State × Nat) :=
  match p with
  | .scratch c => .ok (s, (s.core c).scratchNum a n)
  | .global => s.jobGlobal j (n / 256 + 2) a n

/-- The engines of a job's cluster use a poisoned value: what follows (R392) is due before anything else. -/
def State.useByEngine (s : State) (j : Job) (bad : Bool) : State :=
  if bad then s.urge [.ueConsumption (.used ⟨1, j.cl / 32, j.cl % 32⟩)] else s

/-- Read n bytes for a job into its engine's datapath. -/
def State.jobRead (s : State) (j : Job) (p : Place) (a n : Nat) : Except Nat (State × Nat) :=
  match s.jobMove j p a n with
  | .ok (r, v) => .ok (r.useByEngine j (s.jobPoison j p a n), v)
  | .error e => .error e

/-- An engine's step that has used a poisoned value has no effect of its own: containment or a fatal error follows (R392). -/
def State.unlessPoisoned (s after : State) : State :=
  if s.urgent.length < after.urgent.length then { s with urgent := after.urgent } else after

/-- A write of a job whose grants are held: bytes of a scratchpad, with whether their granules' bits are set, or of physical memory
at the die of its home; and whether they carry a poison mark. -/
inductive EWrite where
  | scratch (core a : Nat) (bs : List Byte) (full bad : Bool)
  | home (die : Nat) (cells : List Host.Cell) (bad : Bool)

/-- A 16-byte granule of a scratchpad, as a number that no granule of memory and of another scratchpad has. -/
def scratchGranule (core a : Nat) : Nat := 2 ^ 60 + core * 2 ^ 20 + a / 16

/-- A write cut at the granules it touches, each part with its granule. -/
def EWrite.parts : EWrite → List (Nat × EWrite)
  | .scratch c a bs full bad => (granulesOf a bs.length).map (fun g =>
      let lo := Nat.max a (16 * g)
      (scratchGranule c (16 * g), .scratch c lo ((bs.drop (lo - a)).take (16 * g + 16 - lo)) full bad))
  | .home d cells bad => ((cells.map (fun x => x.1 / 16)).eraseDups).map (fun g =>
      (g, .home d (cells.filter (fun x => x.1 / 16 == g)) bad))

/-- The writes of bytes to global memory, line by line, with their grants, by fuel. -/
def State.jobGlobalOut (s : State) (j : Job) (bad : Bool) : Nat → Nat → List Byte → Except Nat (State × List EWrite)
  | 0, _, _ => .ok (s, [])
  | f + 1, va, bs =>
    if bs.isEmpty then .ok (s, [])
    else do
      let k := Nat.min bs.length (256 - va % 256)
      let (s, g) ← s.jobGrant j va .write
      let w := EWrite.home (s.sliceDie (s.home (some j.asid) va g.tbl g.pline)) (cellsAt (g.pline * 256 + va % 256) (bs.take k)) bad
      let (s, ws) ← State.jobGlobalOut s j bad f (va + k) (bs.drop k)
      .ok (s, w :: ws)

/-- The engines that R19 names set the bits of the scratch granules they write; the CLE is not among them. -/
def JobOp.setsFull : JobOp → Bool
  | .colred .. | .colbc .. => false
  | _ => true

/-- The writes of bytes for a job, with a poison mark or without. -/
def State.jobOutMarked (s : State) (j : Job) (p : Place) (a : Nat) (bs : List Byte) (bad : Bool) : Except Nat (State × List EWrite) :=
  match p with
  | .scratch c => .ok (s, [.scratch c a bs j.op.setsFull bad])
  | .global => s.jobGlobalOut j bad (bs.length / 256 + 2) a bs
/-- The writes of bytes for a job. -/
def State.jobOut (s : State) (j : Job) (p : Place) (a : Nat) (bs : List Byte) : Except Nat (State × List EWrite) :=
  s.jobOutMarked j p a bs false

/-- Perform a write: in a scratchpad the granules' bits follow the bytes (R19, R211). -/
def State.perform (s : State) (die : Nat) (w : EWrite) : State :=
  match w with
  | .scratch c a bs full bad =>
    let s := s.upCore c (fun k =>
      let k := if full then k.engineWrite a bs else k.scratchWrite a bs
      if bad then k.poisonMark a bs.length else k)
    if full then (s.feEvents c).stagingEvents c else s
  | .home h cells bad => s.homeWriteWith (s.die die).vclk die h cells (if bad then cells.map Prod.fst else [])

/-- Run a computation over items in order; an item that fails is left out, and the first failure is kept. -/
def gather {ι α : Type} (f : State → ι → Except Nat (State × α)) : List ι → State → State × List α × Option Nat
  | [], s => (s, [], none)
  | x :: r, s =>
    match f s x with
    | .ok (s, a) => let y := gather f r s; (y.1, a :: y.2.1, y.2.2)
    | .error c => let y := gather f r s; (y.1, y.2.1, some c)

/-- The items of a failed job that it has written all the same: any subset, which the spec leaves open (R319, R332, R341). -/
def anySubset {α : Type} (s : State) (l : List α) : List α :=
  (l.zipIdx.filter (fun x => Config.chosen .jobWrote s.fresh x.2)).map Prod.fst

/-- The writes of a job as they are performed: one to its thread's own scratchpad reaches that of the second copy too (R408). -/
def State.withCopies (s : State) (t : Tid) (w : EWrite) : List EWrite :=
  match w with
  | .scratch c a bs full bad =>
    w :: (if c = t.coreKey then (s.copiesOf t).map (fun p => .scratch p.coreKey (s.copyAddr t p a) bs full bad) else [])
  | .home .. => [w]

/-- The granules of n destination bytes that a job could write, byte by byte. -/
def State.outGranules (s : State) (j : Job) (p : Place) (a n : Nat) : List Nat :=
  (List.range n).flatMap (fun i => match s.jobOut j p (a + i) [0] with
    | .ok (_, ws) => ws.flatMap (fun w => w.parts.map Prod.fst)
    | .error _ => [])

/-- Perform the writes of a job: all of them, or when it fails, now or from its start, those of any subset of the granules (R332, R341);
a granule of which some byte could not be made, one of `lost`, is not written. -/
def State.performAll (s : State) (j : Job) (ws : List EWrite) (fail : Option Nat) (lost : List Nat := []) : State :=
  let todo := if fail.isSome || j.fail.isSome then
      ((ws.flatMap EWrite.parts).filter (fun x => !lost.contains x.1 && Config.granuleWritten s.fresh x.1)).map Prod.snd
    else ws
  (todo.flatMap (s.withCopies j.owner)).foldl (fun s w => s.perform j.owner.die w) s

/-- Read an element of a copy with its scale byte, if its format has one, and whether one of them is poisoned. -/
def State.jobElem (s : State) (j : Job) (h : TensorHandle) (p : Place) (base r c : Nat) :
    Except Nat (State × Nat × Option Nat × Bool) := do
  let bad := s.jobPoison j p (h.addr base r c) h.eb
  let (s, x) ← s.jobMove j p (h.addr base r c) h.eb
  if h.isScaled then do
    let badScale := s.jobPoison j p (h.scaleAddr base r c) 1
    let (s, sc) ← s.jobMove j p (h.scaleAddr base r c) 1
    .ok (s, x, some sc, bad || badScale)
  else .ok (s, x, none, bad)

/-- The value of an element under its scale (R41); a poisoned block raises NV. -/
def elemVal (fmt : BitVec 5) (fpm : BitVec 6) (x : Nat) (sc : Option Nat) : FVal × BitVec 5 :=
  match elemOf fmt.toNat with
  | some k =>
    match sc with
    | some n => (scaleBy n (k.value fpm x), if n = 255 then flagNV else 0)
    | none => (k.value fpm x, 0)
  | none => (.qnan, 0)

/-! The checks of a submission. -/

/-- HANDLE_EMPTY, BAD_FORMAT and HANDLE_CURSOR of a handle (R32, R160). -/
def needHandle (h : TensorHandle) : Except Stop Unit := do
  need (!h.empty?) .HANDLE_EMPTY
  need (!h.badFmt) .BAD_FORMAT
  need (h.curOk h.at_) .HANDLE_CURSOR

/-- HANDLE_EMPTY and BAD_FORMAT of a handle read as a whole array (R322). -/
def needArray (h : TensorHandle) : Except Stop Unit := do
  need (!h.empty?) .HANDLE_EMPTY
  need (!h.badFmt) .BAD_FORMAT

/-- TX_STORE: a transaction's job that would write global memory (R284, R289). -/
def needNoGlobalOut (s : State) (out : Bool) : Except Stop Unit := need (!(s.me.bind.txn && out)) .TX_STORE

/-- A scratch piece lies within its scratchpad. -/
def State.pieceFits (s : State) (p : Piece) : Bool :=
  match p.place with
  | .scratch c => decide (p.at_ + p.n ≤ (s.core c).scratchSize)
  | .global => true
/-- A scratch output in the constant window. -/
def Piece.inWindow (p : Piece) : Bool :=
  match p.place with
  | .scratch _ => p.write && decide (p.at_ < 0x400)
  | .global => false
/-- A piece in the submitting core's own scratchpad. -/
def Piece.own (p : Piece) (core : Nat) : Bool := p.place == .scratch core

/-- SCRATCH_RANGE (R18). -/
def needRange (s : State) (ps : List Piece) : Except Stop Unit := need (ps.all s.pieceFits) .SCRATCH_RANGE
/-- KWIN_WRITE (R22). -/
def needWindow (s : State) (ps : List Piece) : Except Stop Unit :=
  need (s.me.bind.sup || !ps.any Piece.inWindow) .KWIN_WRITE
/-- TX_STAGE (R283). -/
def needStage (s : State) (ps : List Piece) : Except Stop Unit :=
  need (!ps.any (fun p => p.own s.cur.coreKey && s.stageBad p.at_ p.n)) .TX_STAGE
/-- An accepted job is held until the staging granules it touches are full (R283). -/
def holdStaging (s : State) (ps : List Piece) : Except Stop Unit :=
  if ps.any (fun p => p.own s.cur.coreKey && s.stagingHold s.cur p.at_ p.n) then .error (.wait s .staging) else .ok ()

/-! Submitting. -/

/-- Put an event on the agenda unless it stands there. -/
def State.postOnce (s : State) (e : Instr) : State := if s.agenda.contains e then s else s.post [e]

/-- Entries of an engine's queue (R306, R321, R334); the spec gives the CLE no limit. -/
def Engine.room (e : Engine) (n : Nat) : Bool :=
  match e with
  | .mxe => decide (n < 4)
  | .rsu => decide (n < 4)
  | .btu => decide (n < 16)
  | .cle => true

/-- The event by which a queued job goes on. -/
def Job.event (e : Engine) (core lid : Nat) (j : Job) : Instr :=
  match e with
  | .mxe => .mxeStep j.cl
  | .rsu => .rsuPass j.cl
  | .btu => .btuJobStart core j.id
  | .cle => .collectiveExecute lid j.seqNo

/-- An accepted job enters its core's queue under the next id, which the x register of its thread receives (R306). -/
def State.accept (s : State) (t : Tid) (e : Engine) (x : SReg) (job : Job) : State :=
  let id := (s.core t.coreKey).nextId e
  let j := { job with id := id, no := (s.core t.coreKey).nextNo e }
  let s := s.upCore t.coreKey (fun k => (k.setQueue e (k.queue e ++ [j])).bumpId e)
  (s.upThread t (fun th => th.ws x (id.setWidth 64))).postOnce (j.event e t.coreKey (s.thread t).bind.lid)

/-- A job of the current thread with nothing done. -/
def State.newJob (s : State) (op : JobOp) (cl : Nat) (bank : Option Bank) : Job where
  id := 0
  owner := s.cur
  asid := s.me.bind.asid
  sup := s.me.bind.sup
  fpm := s.me.fpm
  op := op
  cl := cl
  bank := bank
  prog := 0
  flags := 0
  fail := none
  idx := []
  tab := []
  seqNo := 0
  no := 0

/-- The end of a submission: the job enters the queue, or waits for an entry (R306, R321, R334). -/
def submit (s : State) (e : Engine) (x : SReg) (job : Job) : Except Stop State :=
  if e.room (s.myCore.queue e).length then .ok (s.accept s.cur e x job) else .error (.wait s (.queue e x job))

/-- ENGINE_QUEUE_ENTRY_FREE (R306): the waiting submission is accepted. -/
def execEngineQueueEntryFree (t : Tid) (s : State) : Host.Outcome State Fault Refusal :=
  match (s.thread t).status with
  | .waiting (.queue e x job) =>
    if e.room ((s.core t.coreKey).queue e).length then .next ((s.accept t e x job).leaveWait t id) else noEvent s
  | _ => noEvent s

/-- Submissions of a cluster go to the engines that serve it; a thread with MXE, RSU or BTU jobs still queued on engines under a lease
keeps using them (R401). -/
def State.engineCluster (s : State) (t : Tid) : Nat :=
  let own := t.clusterKey
  let c := s.core t.coreKey
  if (c.mxq ++ c.rsq ++ c.btq).any (fun j => j.owner == t && j.cl == own) then own else s.serving own

/-! Waiting and polling. -/

/-- Observation at the end of a wait or poll: a failure freezes the thread after the registers have changed (R318). -/
def observing (s : State) (t : Tid) (js : List DoneJob) : Except Stop State :=
  match s.observeOr t js with
  | (s, some f) => .error (.leave (s.freeze t f))
  | (s, none) => .ok s

/-- MXWAIT, RKWAIT and COLWAIT (R318, R331, R344): at D2 the quantum ends first (R229). -/
def jobWait (e : Engine) (x : SReg) (s : State) : Host.Outcome State Fault Refusal :=
  let id := (s.me.rs x).extractLsb' 0 16
  seq32 s (do
    let s ← quantumFirst s
    if s.myCore.outstanding e id then .error (.wait s (.job e id))
    else observing s s.cur (s.myCore.observedBy s.cur e id true))

/-- MXPOLL and CPYP (R318, R340). -/
def jobPoll (e : Engine) (pd : PReg) (x : SReg) (order : Bool) (s : State) : Host.Outcome State Fault Refusal :=
  let id := (s.me.rs x).extractLsb' 0 16
  seq32 s
    (if s.myCore.outstanding e id then .ok (s.upMe (fun t => t.wp pd false))
     else do
       let s ← observing s s.cur (s.myCore.observedBy s.cur e id order)
       .ok (s.upMe (fun t => t.wp pd true)))

/-- JOB_WAIT_END (R318, R331, R344): the job has completed; the waiting instruction observes it and retires, or raises its
failure. -/
def execJobWaitEnd (t : Tid) (s : State) : Host.Outcome State Fault Refusal :=
  match (s.thread t).status with
  | .waiting (.job e n) =>
    let c := s.core t.coreKey
    if c.outstanding e n then noEvent s
    else
      match (s.thread t).retireFault false, failureOf (c.observedBy t e n true) with
      | some f, none => .next (s.freeze t (Freeze.of f))
      | _, _ =>
        match s.observeOr t (c.observedBy t e n true) with
        | (s, some f) => .next (s.freeze t f)
        | (s, none) => .next (s.leaveWait t id)
  | _ => noEvent s

end Sys2Proof.Machine
end

