-- ==== Sys2Proof/Machine/Mxe.lean ====
section
/-! DEFINITION. The matrix engine (R302 to R320): group sums (R57 to R60), banks, submissions, the arbiter and its steps. -/

namespace Sys2Proof.Machine

/-! Group arithmetic. -/

/-- A product with the two operands it came from. -/
structure Product where
  a : FVal
  b : FVal
  val : FVal
  invalid : Bool

/-- The exact product of two operands (R57). -/
def productOf (a b : FVal) : Product :=
  if a.isNan || b.isNan then ⟨a, b, .qnan, false⟩
  else match mulExact a b with
    | some v => ⟨a, b, v, false⟩
    | none => ⟨a, b, .qnan, true⟩

/-- floor(log2 |q|) of a nonzero number. -/
def floorLog (m : Nat) (e : Int) : Int := e + Nat.log2 m

/-- The greatest floor(log2 |q|) over the nonzero products. -/
def topExp (ps : List FVal) : Option Int :=
  ps.foldl (fun best v => match v with
    | .num _ m e =>
      if m = 0 then best
      else match best with
        | none => some (floorLog m e)
        | some b => some (max b (floorLog m e))
    | _ => best) none

/-- A sum of products that are all numbers (R58), truncated to 48 bits below the top. -/
def truncSum (rm : Nat) (ps : List FVal) : FRes :=
  match topExp ps with
  | none => (.zero (ps.all FVal.neg), 0)
  | some E =>
    let q := E - 47
    let t := fun (v : FVal) => match v with
      | .num n m e => let r := roundTo 1 n m e q; ((if n then -(r.1 : Int) else (r.1 : Int)), r.2)
      | _ => (0, false)
    let sum := ps.foldl (fun acc v => acc + (t v).1) (0 : Int)
    (if sum = 0 then .zero (rm == 3) else .num (decide (sum < 0)) sum.natAbs q, if ps.any (fun v => (t v).2) then flagPE else 0)

/-- The sum of a group of products (R58). Of several NaN operands under NANP = 1 the first in ascending K index, a before b, gives the
payload: R58 refers to R47 and does not order the operands of a group (DESIGN CHOICE, log entry 72). -/
def groupSum (fpm : BitVec 6) (ps : List Product) : FRes :=
  let ops := ps.flatMap (fun p => [p.a, p.b])
  let vals := ps.map Product.val
  let pos := vals.any (fun v => v == .inf false)
  let neg := vals.any (fun v => v == .inf true)
  let bad := ps.any Product.invalid || (pos && neg)
  if bad || ops.any FVal.isNan then
    ((firstNan ops).getD .qnan, (if bad then flagNV else 0) ||| snanFlag ops)
  else if pos then (.inf false, 0)
  else if neg then (.inf true, 0)
  else truncSum (fpmRm fpm) vals

/-- The accumulator entry after a group (R59): one rounding to binary32, SAT ignored. Under RM = RDN the −0 of a cleared entry plus
a group of +0 is −0 by the formula and R45; R59's last sentence and R56 would make it +0. The formula is taken (DESIGN CHOICE, log
entry 65). -/
def accumulate (fpm : BitVec 6) (acc : Nat) (g : FRes) : Nat × BitVec 5 :=
  let fpm := fpm &&& 0x2F#6
  let r := binary32.finish fpm ((binary32.operand fpm acc).add fpm g.1)
  (r.1, r.2 ||| g.2)

/-! Banks (R303 to R305). -/

/-- An entry; in the cleared state, the identity given. -/
def BankState.get (b : BankState) (ident : Nat) (i : Nat) : Nat :=
  if b.inuse then ((Assoc.find i b.cells).getD b.ident).toNat else ident
/-- Set an entry of a bank in use. -/
def BankState.put (b : BankState) (i v : Nat) : BankState :=
  let w := BitVec.ofNat 32 v
  { b with cells := if w = b.ident then Assoc.erase i b.cells else Assoc.put i w b.cells }
/-- The identity of a job's kind (R304): 0 for an integer job, −0 for a floating one. -/
def identity (int : Bool) : Nat := if int then 0 else 0x80000000
/-- A bank as its first writing job finds it: every entry the identity, in use (R304). -/
def BankState.start (b : BankState) (int : Bool) : BankState :=
  if b.inuse then b else { b with inuse := true, ident := BitVec.ofNat 32 (identity int), cells := [] }
/-- The cleared state of a bank that keeps its owner (R304, R317). -/
def BankState.zeroed (b : BankState) : BankState := { BankState.cleared with owner := b.owner, releasing := b.releasing }

/-- The bank of a job. -/
def State.jobBank (s : State) (j : Job) : BankState := s.bank j.cl ((j.bank.map Fin.val).getD 0)
/-- Change the bank of a job. -/
def State.upJobBank (s : State) (j : Job) (f : BankState → BankState) : State := s.upBank j.cl ((j.bank.map Fin.val).getD 0) f

/-! Submission (R309). -/

/-- The MXE that a submission naming a bank goes to: the one whose bank of that number the thread owns, else the one that serves it
(R401). -/
def State.mxCluster (s : State) (b : Bank) : Nat :=
  match (s.ownedBanks s.cur).find? (fun e => e.2.1 == b.val) with
  | some e => e.1
  | none => s.engineCluster s.cur

/-- MX_BANK unless the bank is free or the thread's own (R303). -/
def needBank (s : State) (b : Bank) : Except Stop Unit :=
  match (s.bank (s.mxCluster b) b.val).owner with
  | none => .ok ()
  | some t => need (t == s.cur) .MX_BANK

/-- A submission claims the bank for its thread (R303). An owner of a bank of leased engines has a pre-emption request (R401), a thread
that claims one while they drain as well. -/
def State.claimBank (s : State) (b : Bank) : State :=
  let cl := s.mxCluster b
  let s := s.upBank cl b.val (fun k => { k with owner := some s.cur })
  if s.unitUp ⟨1, cl / 32, cl % 32⟩ || s.me.bind.txn then s else s.upMe (fun t => { t with preempt := true })

/-- The indices of a bead string in the own scratchpad, at most `most` of them, as its header now stands: no check of a submission tests
them, and the hold of R283 waits for them. -/
def beadPieces (s : State) (a : TensorHandle) (most : Nat) : List Piece :=
  if a.space then
    [⟨.scratch s.cur.coreKey, a.base.toNat + 8, 2 * Nat.min most (s.myCore.scratchNum (a.base.toNat + 4) 4), false⟩]
  else []

/-- Steps 8 to 11 of R309, the claim, the hold and the queue; the hold also waits for the bytes of `read`. -/
def mxSubmit (s : State) (x : SReg) (b : Bank) (op : JobOp) (read ps : List Piece) : Except Stop State := do
  needRange s ps
  needWindow s ps
  needBank s b
  needStage s ps
  let cl := s.mxCluster b
  let s := s.claimBank b
  holdStaging s (read ++ ps)
  submit s .mxe x (s.newJob op cl (some b))

/-- The operand formats of a multiply job (R312). -/
def mulFormats (a b : BitVec 5) : Bool :=
  let f8 := fun (f : BitVec 5) => f == 0x0C || f == 0x0E
  let ds8 := fun (f : BitVec 5) => f == 0x0D || f == 0x0F
  let i8 := fun (f : BitVec 5) => f == 0x00 || f == 0x01
  (a == 0x09 && b == 0x09) || (f8 a && (f8 b || ds8 b)) || (i8 a && i8 b) || (a == 0x0A && b == 0x0A)
/-- The formats of W (R312). -/
def rankFormat (w : BitVec 5) : Bool := w == 0x09 || w == 0x0A || (decide (0x0C ≤ w.toNat) && decide (w.toNat ≤ 0x0F))
/-- The formats MXLOAD accepts (R316). -/
def loadFormat (f : BitVec 5) : Bool := f == 0x0A || f == 0x09 || f == 0x08 || f == 0x0C || f == 0x04
/-- The formats MXSTORE and a fused output accept (R316). -/
def storeFormat (f : BitVec 5) : Bool := loadFormat f || f == 0x0D

/-- The DS8 datapath is present (R3). -/
def State.ds8Present (s : State) : Bool := s.pkg.units.getLsbD 15
/-- UNIT_ABSENT for a handle that names DS8 (R4). -/
def needDs8 (s : State) (hs : List TensorHandle) : Except Stop Unit :=
  need (s.ds8Present || !hs.any TensorHandle.isDs8) .UNIT_ABSENT

/-- The checks of a nonempty output handle (R309 step 3). -/
def needOut (h : TensorHandle) : Except Stop Unit := if h.empty? then .ok () else needHandle h
/-- A fused output: none when the handle is empty (R310). -/
def TensorHandle.fused (h : TensorHandle) : Option TensorHandle := if h.empty? then none else some h
/-- A fused output's format is one MXSTORE accepts. -/
def fusedFormat (h : TensorHandle) : Bool := h.empty? || storeFormat h.fmt
/-- A fused output's tile is exactly M × N (R310). -/
def fusedShape (h : TensorHandle) (m n : Nat) : Bool := h.empty? || (h.tileRows h.at_ == m && h.tileCols h.at_ == n)
/-- The bytes of a fused output. -/
def fusedPieces (h : TensorHandle) (core : Nat) : List Piece :=
  if h.empty? then [] else h.tilePieces (h.ownPlace core) h.base.toNat h.at_ true
/-- The limits on M and N (R311). -/
def mulLimits (m n : Nat) : Bool := decide (1 ≤ m) && decide (m ≤ 128) && decide (1 ≤ n) && decide (n ≤ 64)

/-- MXMUL (R311). -/
def execMxmul (hd ha hb : HReg) (acc : Bank) (x : SReg) (s : State) : Host.Outcome State Fault Refusal :=
  let d := s.me.rh hd
  let a := s.me.rh ha
  let b := s.me.rh hb
  let m := a.tileRows a.at_
  let n := b.tileCols b.at_
  seq32 s (do
    needNoGlobalOut s (!d.empty? && !d.space)
    needOut d
    needHandle a
    needHandle b
    need (mulFormats a.fmt b.fmt && fusedFormat d) .MX_FORMAT
    needDs8 s ([a, b] ++ d.fused.toList)
    need (a.space && b.space) .MX_SPACE
    need (mulLimits m n && b.tileRows b.at_ == a.tileCols a.at_ && fusedShape d m n) .MX_SHAPE
    let own : Place := .scratch s.cur.coreKey
    mxSubmit s x acc (.mxmul a b d.fused) []
      (a.tilePieces own a.base.toNat a.at_ false ++ b.tilePieces own b.base.toNat b.at_ false ++ fusedPieces d s.cur.coreKey))

/-- The row indices of MXGMUL in a slot's block (R313): 16-bit lane i mod 64 of register i div 64. -/
def slotIndices (b : Block) (m : Nat) : List Nat :=
  (List.range m).map (fun i => ((b.toList.getD (i / 64) 0).extractLsb' (16 * (i % 64)) 16).toNat)

/-- MXGMUL (R311, R313). -/
def execMxgmul (hd ha hb : HReg) (acc : Bank) (x : SReg) (s : State) : Host.Outcome State Fault Refusal :=
  let d := s.me.rh hd
  let a := s.me.rh ha
  let b := s.me.rh hb
  let m := a.th
  let n := b.tileCols b.at_
  let slot := s.me.slots.toList.getD (field (s.me.rs x) 0 3) none
  seq32 s (do
    needNoGlobalOut s (!d.empty? && !d.space)
    need slot.isSome .VSLOT_EMPTY
    needOut d
    needHandle a
    needHandle b
    need (mulFormats a.fmt b.fmt && fusedFormat d) .MX_FORMAT
    needDs8 s ([a, b] ++ d.fused.toList)
    need (a.space && b.space) .MX_SPACE
    need (mulLimits m n && b.tileRows b.at_ == a.tileCols a.at_ && fusedShape d m n) .MX_SHAPE
    let idx := slotIndices (slot.getD (Vector.replicate 4 0)) m
    need (idx.all (fun r => decide (r < a.rows.toNat))) .MX_INDEX
    let own : Place := .scratch s.cur.coreKey
    let rows := idx.flatMap (fun r => a.pieces own a.base.toNat r 1 (a.col0 a.at_) (a.tileCols a.at_) false)
    mxSubmit s x acc (.mxgmul a b idx d.fused) []
      (rows ++ b.tilePieces own b.base.toNat b.at_ false ++ fusedPieces d s.cur.coreKey))

/-- MXRANK (R311, R314). -/
def execMxrank (hd ha hb : HReg) (acc : Bank) (x : SReg) (s : State) : Host.Outcome State Fault Refusal :=
  let d := s.me.rh hd
  let a := s.me.rh ha
  let w := s.me.rh hb
  let n := w.tileCols w.at_
  seq32 s (do
    needNoGlobalOut s (!d.empty? && !d.space)
    needOut d
    needHandle a
    needHandle w
    need (rankFormat w.fmt && fusedFormat d) .MX_FORMAT
    needDs8 s ([a, w] ++ d.fused.toList)
    need (a.space && w.space) .MX_SPACE
    need (mulLimits 1 n && fusedShape d 1 n) .MX_SHAPE
    let own : Place := .scratch s.cur.coreKey
    let read := beadPieces s a (Nat.min 1024 s.myCore.atten.length)
    mxSubmit s x acc (.mxrank a w d.fused) read
      (⟨own, a.base.toNat, 8, false⟩ :: w.pieces own w.base.toNat 0 w.rows.toNat (w.col0 w.at_) n false
        ++ fusedPieces d s.cur.coreKey))

/-- MXLOAD (R316). -/
def execMxload (hd : HReg) (acc : Bank) (x : SReg) (s : State) : Host.Outcome State Fault Refusal :=
  let d := s.me.rh hd
  seq32 s (do
    needHandle d
    need (loadFormat d.fmt) .MX_FORMAT
    need (mulLimits (d.tileRows d.at_) (d.tileCols d.at_)) .MX_SHAPE
    mxSubmit s x acc (.mxload d) [] (d.tilePieces (d.ownPlace s.cur.coreKey) d.base.toNat d.at_ false))

/-- MXSTORE (R316). -/
def execMxstore (hd : HReg) (acc : Bank) (x : SReg) (s : State) : Host.Outcome State Fault Refusal :=
  let d := s.me.rh hd
  seq32 s (do
    needNoGlobalOut s (!d.space)
    needHandle d
    need (storeFormat d.fmt) .MX_FORMAT
    needDs8 s [d]
    need (mulLimits (d.tileRows d.at_) (d.tileCols d.at_)) .MX_SHAPE
    mxSubmit s x acc (.mxstore d) [] (d.tilePieces (d.ownPlace s.cur.coreKey) d.base.toNat d.at_ true))

/-- MXZERO (R317). -/
def execMxzero (acc : Bank) (x : SReg) (s : State) : Host.Outcome State Fault Refusal :=
  seq32 s (mxSubmit s x acc .mxzero [] [])

/-- MXWAIT (R318). -/
def execMxwait (x : SReg) (s : State) : Host.Outcome State Fault Refusal := jobWait .mxe x s
/-- MXPOLL (R318). -/
def execMxpoll (pd : PReg) (x : SReg) (s : State) : Host.Outcome State Fault Refusal := jobPoll .mxe pd x true s

/-- MXWGT (R320). -/
def execMxwgt (x : SReg) (s : State) : Host.Outcome State Fault Refusal :=
  let w := (s.me.rs x).toNat
  seq32 s (do
    needSup s
    need (decide (1 ≤ w) && decide (w ≤ 15)) .BAD_WEIGHT
    .ok (s.upCluster s.cur.clusterKey (fun k => { k with wgt := k.wgt.setIfInBounds (cposOf s.cur.core) (BitVec.ofNat 4 w) })))

/-! Steps of jobs. -/

/-- What a step leaves: the state, the job, and whether the job is over. -/
abbrev StepResult := State × Job × Bool

/-- A job fails with a cause and is over. -/
def failJob (s : State) (j : Job) (cause : Nat) : StepResult := (s, { j with fail := some cause }, true)

/-- The element of a bank entry stored in a format (R316): the bits of .i32, else a conversion from binary32. -/
def storeElem (fmt : BitVec 5) (fpm : BitVec 6) (v : Nat) : Nat × BitVec 5 :=
  match elemOf fmt.toNat with
  | some (.int ..) => (v, 0)
  | some k => convert (.flt binary32) k fpm false v
  | none => (v, 0)
/-- The bank entry of a loaded element (R316). -/
def loadElem (fmt : BitVec 5) (fpm : BitVec 6) (v : Nat) : Nat × BitVec 5 :=
  match elemOf fmt.toNat with
  | some (.int ..) => (v, 0)
  | some k => convert k (.flt binary32) fpm false v
  | none => (v, 0)

/-- The elements of a tile, in ascending row, then column. -/
def tileCells (m n : Nat) : List (Nat × Nat) := (List.range m).flatMap (fun i => (List.range n).map (fun k => (i, k)))

/-- Store the bank's rows and columns to a handle's current tile, and clear dirty (R316); a refused access fails the job, which has
written any subset of the other elements, each whole or not at all (R319). -/
def mxStoreTile (s : State) (j : Job) (h : TensorHandle) : State × Job :=
  let b := s.jobBank j
  let p := h.ownPlace j.owner.coreKey
  let ident := identity (h.fmt == 0x04)
  let elem := fun (c : Nat × Nat) => storeElem h.fmt j.fpm (b.get ident (64 * c.1 + c.2))
  let cells := tileCells (h.tileRows h.at_) (h.tileCols h.at_)
  let r := gather (fun s c =>
    s.jobOut j p (h.addr h.base.toNat (h.row0 h.at_ + c.1) (h.col0 h.at_ + c.2)) (leBytes h.eb (elem c).1)) cells s
  let kept := if r.2.2.isSome then anySubset r.1 r.2.1 else r.2.1
  let s := r.1.performAll j kept.flatten none
  let s := if r.2.2.isSome then { s with fresh := s.fresh + r.2.1.length } else s
  let j := { j with flags := cells.foldl (fun f c => f ||| (elem c).2) j.flags }
  match r.2.2 with
  | some c => (s, { j with fail := some c })
  | none => (s.upJobBank j (fun b => { b with dirty := false }), j)

/-- Load a tile into the bank (R316); a refused access poisons the bank (R319). -/
def mxLoadTile (s : State) (j : Job) (h : TensorHandle) : State × Job :=
  let p := h.ownPlace j.owner.coreKey
  let r := gather (fun s (c : Nat × Nat) => do
    let (s, v) ← s.jobRead j p (h.addr h.base.toNat (h.row0 h.at_ + c.1) (h.col0 h.at_ + c.2)) h.eb
    let e := loadElem h.fmt j.fpm v
    .ok (s, (64 * c.1 + c.2, e.1, e.2))) (tileCells (h.tileRows h.at_) (h.tileCols h.at_)) s
  let s := r.1
  let puts := if r.2.2.isSome then anySubset s r.2.1 else r.2.1
  let s := if r.2.2.isSome then { s with fresh := s.fresh + r.2.1.length } else s
  let s := s.upJobBank j (fun b => { (puts.foldl (fun b e => b.put e.1 e.2.1) (b.start (h.fmt == 0x04))) with
    dirty := true, poison := r.2.2.isSome })
  (s, { j with flags := r.2.1.foldl (fun f e => f ||| e.2.2) j.flags, fail := r.2.2 })

/-- The operands of a multiply job: M, K, N, the integer kind, the fused output, and the row and column that give a(i, k) and
b(k, j); MXRANK takes a(i, k) from the table. -/
structure MulJob where
  m : Nat
  k : Nat
  n : Nat
  int : Bool
  out : Option TensorHandle
  a : Option TensorHandle
  b : TensorHandle
  aAt : Nat → Nat → Nat × Nat
  bAt : Nat → Nat → Nat × Nat

/-- The multiply job of an operation (R311). -/
def Job.mul (j : Job) : Option MulJob :=
  match j.op with
  | .mxmul a b out =>
    some ⟨a.tileRows a.at_, a.tileCols a.at_, b.tileCols b.at_, decide (a.fmt.toNat < 2), out, some a, b,
      fun i k => (a.row0 a.at_ + i, a.col0 a.at_ + k), fun k c => (b.row0 b.at_ + k, b.col0 b.at_ + c)⟩
  | .mxgmul a b idx out =>
    some ⟨a.th, a.tileCols a.at_, b.tileCols b.at_, decide (a.fmt.toNat < 2), out, some a, b,
      fun i k => (idx.getD i 0, a.col0 a.at_ + k), fun k c => (b.row0 b.at_ + k, b.col0 b.at_ + c)⟩
  | .mxrank _ w out =>
    some ⟨1, j.idx.length, w.tileCols w.at_, false, out, none, w, fun i k => (i, k),
      fun k c => (j.idx.getD k 0, w.col0 w.at_ + c)⟩
  | _ => none

/-- An element of a scratch operand: its value, its signed integer, and the flag a poisoned scale raises. -/
def Core.operand (c : Core) (fpm : BitVec 6) (h : TensorHandle) (rc : Nat × Nat) : FVal × Int × BitVec 5 :=
  let x := c.scratchNum (h.addr h.base.toNat rc.1 rc.2) h.eb
  let sc := if h.isScaled then some (c.scratchNum (h.scaleAddr h.base.toNat rc.1 rc.2) 1) else none
  let v := elemVal h.fmt fpm x sc
  (v.1, match elemOf h.fmt.toNat with | some k => k.toInt x | none => 0, v.2)

/-- An element of a scratch operand, or its scale byte, is poisoned. -/
def Core.operandBad (c : Core) (h : TensorHandle) (rc : Nat × Nat) : Bool :=
  c.poisonedAt (h.addr h.base.toNat rc.1 rc.2) h.eb || (h.isScaled && c.poisonedAt (h.scaleAddr h.base.toNat rc.1 rc.2) 1)

/-- A step reads a poisoned operand into its latch (R308, R392). -/
def MulJob.poisoned (q : MulJob) (c : Core) (ks : List Nat) : Bool :=
  !c.poison.isEmpty && ks.any (fun k => (List.range q.m).any (fun i => q.a.any (fun h => c.operandBad h (q.aAt i k)))
    || (List.range q.n).any (fun n => c.operandBad q.b (q.bAt k n)))

/-- One step of a multiply job (R311): the group g of up to 16 consecutive K indices, added into every entry. -/
def mulStep (s : State) (j : Job) (q : MulJob) (g : Nat) : State × Job :=
  let c := s.core j.owner.coreKey
  let ks := (List.range 16).filterMap (fun i => if 16 * g + i < q.k then some (16 * g + i) else none)
  let av := fun i k => match q.a with
    | some h => c.operand j.fpm h (q.aAt i k)
    | none => (binary32.operand j.fpm (j.tab.getD k 0).toNat, 0, 0)
  let bv := fun k n => c.operand j.fpm q.b (q.bAt k n)
  let s := s.useByEngine j (q.poisoned c ks)
  let b := (s.jobBank j).start q.int
  let r := (tileCells q.m q.n).foldl (fun (acc : BankState × BitVec 5) x =>
    let i := 64 * x.1 + x.2
    let old := acc.1.get (identity q.int) i
    if ks.isEmpty then acc
    else if q.int then
      let sum := ks.foldl (fun t k => t + (av x.1 k).2.1 * (bv k x.2).2.1) (0 : Int)
      (acc.1.put i (ofInteger 32 (old + sum)), acc.2)
    else
      let ps := ks.map (fun k => productOf (av x.1 k).1 (bv k x.2).1)
      let fl := ks.foldl (fun f k => f ||| (av x.1 k).2.2 ||| (bv k x.2).2.2) (0 : BitVec 5)
      let e := accumulate j.fpm old (groupSum j.fpm ps)
      (acc.1.put i e.1, acc.2 ||| e.2 ||| fl)) (b, j.flags)
  (s.upJobBank j (fun _ => r.1), { j with flags := r.2 })

/-- MXRANK's first step reads a poisoned byte of its bead string. -/
def rankBad (s : State) (j : Job) : Bool :=
  match j.op with
  | .mxrank a _ _ =>
    let c := s.core j.owner.coreKey
    j.prog == 0 && (c.poisonedAt a.base.toNat 8 ||
      c.poisonedAt (a.base.toNat + 8) (2 * Nat.min (c.scratchNum (a.base.toNat + 4) 4) c.atten.length))
  | _ => false

/-- The header and indices that MXRANK reads at its first step, and the table as it stands (R314, R315); none on BEAD. -/
def rankStart (s : State) (j : Job) : Option Job :=
  match j.op with
  | .mxrank a w _ =>
    let c := s.core j.owner.coreKey
    let base := a.base.toNat
    let r := c.scratchNum (base + 4) 4
    let k := Nat.min r c.atten.length
    let idx := (List.range k).map (fun i => c.scratchNum (base + 8 + 2 * i) 2)
    if 65536 < r ∨ c.scratchSize < base + 8 + 2 * k then none
    else if idx.all (fun i => decide (i < w.rows.toNat)) then some { j with idx := idx, tab := c.atten } else none
  | _ => some j

/-- A job that adds into, or stores from, its bank fails when the bank is poisoned (R305). -/
def JobOp.usesBank : JobOp → Bool
  | .mxload _ | .mxzero => false
  | _ => true

/-- One step of a job at the head of its core's queue (R302, R311, R316, R317). -/
def mxStep (s : State) (j : Job) : StepResult :=
  if j.prog = 0 && j.op.usesBank && (s.jobBank j).poison then failJob s j 2
  else
    match j.op with
    | .mxzero => (s.upJobBank j BankState.zeroed, j, true)
    | .mxload h => let r := mxLoadTile s j h; (r.1, r.2, true)
    | .mxstore h => let r := mxStoreTile s j h; (r.1, r.2, true)
    | _ =>
      match if j.prog = 0 then rankStart s j else some j with
      | none => failJob s j 3
      | some j =>
        match j.mul with
        | none => (s, j, true)
        | some q =>
          let r := mulStep (s.useByEngine j (rankBad s j)) j q j.prog
          let j := { r.2 with prog := j.prog + 1 }
          if 16 * j.prog < q.k then (r.1, j, false)
          else
            let s := r.1.upJobBank j (fun b => { b with dirty := true })
            match q.out with
            | some h => let r := mxStoreTile s j h; (r.1, r.2, true)
            | none => (s, j, true)

/-! The arbiter (R307). -/

/-- A position's weight: WGT of its core's CPOS in its own cluster's MXWGT. -/
def State.weightAt (s : State) (cl p : Nat) : Nat :=
  ((s.cluster (if p < 8 then cl else borrower cl)).wgt.toList.getD (p % 8) 1).toNat
/-- The first eligible position at or after the pointer. -/
def State.firstEligible (s : State) (cl ptr : Nat) : Option Nat :=
  let n := s.arbSpan cl
  ((List.range n).map (fun i => (ptr + i) % n)).find? (fun p => (headFor (s.core (posCore cl p)).mxq cl).isSome)

/-- The position that has the turn, and the steps left of it with this one: the turn given stands while its core is eligible, else
the next eligible core at or after the pointer takes one (R307). -/
def State.turn (s : State) (cl : Nat) : Option (Nat × Nat) :=
  let k := s.cluster cl
  let ptr := if k.ptr < s.arbSpan cl then k.ptr else 0
  if k.left ≠ 0 ∧ ptr = k.ptr ∧ (headFor (s.core (posCore cl ptr)).mxq cl).isSome then some (ptr, k.left)
  else
    let start := if k.left ≠ 0 then (ptr + 1) % s.arbSpan cl else ptr
    (s.firstEligible cl start).map (fun p => (p, s.weightAt cl p))

/-- MXE_STEP (R307): the arbiter runs one step of the job at the head of the queue of the core that has the turn. -/
def execMxeStep (cl : Nat) (s : State) : Host.Outcome State Fault Refusal :=
  match s.turn cl with
  | none => noEvent s
  | some (p, left) =>
    let c := posCore cl p
    match headFor (s.core c).mxq cl with
    | none => noEvent s
    | some j =>
      let s0 := s
      let r := mxStep s j
      let s := if r.2.2 then r.1.completeJob c .mxe r.2.1 cl
        else r.1.upCore c (fun k => { k with mxq := r.2.1 :: k.mxq.tail })
      let turnOver := left = 1 || (headFor (s.core c).mxq cl).isNone
      let s := s.upCluster cl (fun k =>
        if turnOver then { k with ptr := (p + 1) % s.arbSpan cl, left := 0 } else { k with ptr := p, left := left - 1 })
      let s := match (s.core c).mxq.head? with | some j => s.postOnce (.mxeStep j.cl) | none => s
      .next (s0.unlessPoisoned (if (s.firstEligible cl 0).isSome then s.postOnce (.mxeStep cl) else s))

end Sys2Proof.Machine
end

