-- ==== Sys2Proof/Machine/Rsu.lean ====
section
/-! DEFINITION. The rank and select unit (R321 to R333): rank order, bead strings, tables, reconstruction. -/

namespace Sys2Proof.Machine

/-! Rank order (R323 to R325). -/

/-- A key as ranking reads it: none for a NaN. -/
def rankKey (fmt : BitVec 5) (fpm : BitVec 6) (x : Nat) : Option FVal :=
  match elemOf fmt.toNat with
  | some k => let v := k.value fpm x; if v.isNan then none else some v
  | none => none

/-- Key a at index i precedes key b at index j (R324). -/
def precedes (a b : Option FVal × Nat) : Bool :=
  match a.1, b.1 with
  | none, none => decide (a.2 < b.2)
  | none, some _ => false
  | some _, none => true
  | some x, some y => y.lt x || (x.eq y && decide (a.2 < b.2))

/-- Put a key at its rank. -/
def rankInsert (x : Option FVal × Nat) : List (Option FVal × Nat) → List (Option FVal × Nat)
  | [] => [x]
  | y :: r => if precedes x y then x :: y :: r else y :: rankInsert x r

/-- CUT as a rank: 0 means 65,536 (R325). -/
def rkCut (cfg : Word) : Nat := if field cfg 0 17 = 0 then 65536 else field cfg 0 17
/-- A key is admitted (R325). -/
def admitted (cfg : Word) (fpm : BitVec 6) (v : Option FVal) : Bool :=
  !cfg.getLsbD 17 ||
    (match v, binary32.operand fpm (field cfg 32 32) with
      | some _, .nan .. => false
      | some x, t => t.lt x
      | none, _ => false)

/-- The source indices kept, in rank order: the first R := min(C, A) (R325, R327). -/
def rankRun (fmt : BitVec 5) (fpm : BitVec 6) (cfg : Word) (keys : List Nat) : List Nat :=
  let ks := keys.zipIdx.map (fun x => (rankKey fmt fpm x.1, x.2))
  let ranked := ks.foldl (fun l x => rankInsert x l) []
  let a := (ks.filter (fun x => admitted cfg fpm x.1)).length
  (ranked.take (Nat.min (rkCut cfg) a)).map Prod.snd

/-- The bytes of a bead string, with zeros up to a multiple of 16 (R326). -/
def beadBytes (n : Nat) (idx : List Nat) : List Byte :=
  let b := leBytes 4 n ++ leBytes 4 idx.length ++ idx.flatMap (leBytes 2)
  b ++ leBytes (roundUp b.length 16 - b.length) 0

/-! Submission (R322). -/

/-- Formats of keys (R323). -/
def keyFormat (f : BitVec 5) : Bool :=
  decide (f.toNat ≤ 0x05) || f == 0x08 || f == 0x09 || f == 0x0A || f == 0x0C

/-- UNIT_ABSENT when the part has no RSU (R4). -/
def needRsu (s : State) : Except Stop Unit := need (s.pkg.units.getLsbD 13) .UNIT_ABSENT

/-- Steps 5 to 7 of R322, the hold and the queue; the hold also waits for the bytes of `read`, which a header fixes (R283). -/
def rkSubmit (s : State) (x : SReg) (op : JobOp) (read ps : List Piece) : Except Stop State := do
  needRange s ps
  needWindow s ps
  needStage s ps
  holdStaging s (read ++ ps)
  submit s .rsu x (s.newJob op (s.engineCluster s.cur) none)

/-- RKSORT and RKTOPK (R327): `columns` makes one run of each column. -/
def rkRank (columns : Bool) (hd ha : HReg) (x : SReg) (s : State) : Host.Outcome State Fault Refusal :=
  let d := s.me.rh hd
  let k := s.me.rh ha
  let n := if columns then k.rows.toNat else k.rows.toNat * k.cols.toNat
  let runs := if columns then k.cols.toNat else 1
  let cfg := s.me.rkcfg
  let c := s.cur.coreKey
  seq32 s (do
    needRsu s
    needNoGlobalOut s (!d.space)
    needArray d
    needArray k
    need (d.fmt == 0x03 && keyFormat k.fmt) .RK_FORMAT
    need (k.base.toNat % k.eb == 0 && k.stride.toNat % k.eb == 0
      && d.base.toNat % 16 == 0 && decide (n ≤ 65536) && d.rows.toNat == runs
      && decide (4 + Nat.min (rkCut cfg) n ≤ d.cols.toNat)
      && (!columns || (d.stride.toNat % 16 == 0 && decide (2 * d.cols.toNat ≤ d.stride.toNat)))) .RK_SHAPE
    let out := (List.range runs).map (fun j => (⟨d.ownPlace c, d.base.toNat + j * d.stride.toNat, 2 * d.cols.toNat, true⟩ : Piece))
    rkSubmit s x (if columns then .rktopk d k cfg else .rksort d k cfg) []
      (k.arrayPieces (k.ownPlace c) k.base.toNat false ++ out))

/-- RKSORT (R327). -/
def execRksort (hd ha : HReg) (x : SReg) (s : State) : Host.Outcome State Fault Refusal := rkRank false hd ha x s
/-- RKTOPK (R327). -/
def execRktopk (hd ha : HReg) (x : SReg) (s : State) : Host.Outcome State Fault Refusal := rkRank true hd ha x s

/-- RKTAB (R329). -/
def execRktab (ha : HReg) (x : SReg) (s : State) : Host.Outcome State Fault Refusal :=
  let t := s.me.rh ha
  seq32 s (do
    needRsu s
    need (!t.badFmt) .BAD_FORMAT
    need (t.fmt == 0x09 || t.fmt == 0x0A) .RK_FORMAT
    need (t.base.toNat % 16 == 0) .RK_SHAPE
    let l := s.myCore.scratchNum (t.base.toNat + 2) 2 % 1024 + 1
    let read := if t.space then [(⟨.scratch s.cur.coreKey, t.base.toNat + 16, l * t.eb, false⟩ : Piece)] else []
    rkSubmit s x (.rktab t) read [⟨t.ownPlace s.cur.coreKey, t.base.toNat, 16, false⟩])

/-- RKVAL (R330). -/
def execRkval (hd ha : HReg) (x : SReg) (s : State) : Host.Outcome State Fault Refusal :=
  let d := s.me.rh hd
  let b := s.me.rh ha
  let c := s.cur.coreKey
  seq32 s (do
    needRsu s
    needNoGlobalOut s (!d.space)
    needArray d
    needArray b
    need (b.fmt == 0x03 && (d.fmt == 0x0A || d.fmt == 0x09 || d.fmt == 0x08 || d.fmt == 0x0C)) .RK_FORMAT
    need (b.base.toNat % 16 == 0 && decide (d.rows.toNat * d.cols.toNat ≤ 65536)
      && d.base.toNat % d.eb == 0 && d.stride.toNat % d.eb == 0) .RK_SHAPE
    rkSubmit s x (.rkval d b) (beadPieces s b 65536)
      (⟨b.ownPlace c, b.base.toNat, 8, false⟩ :: d.arrayPieces (d.ownPlace c) d.base.toNat true))

/-- RKWAIT (R331). -/
def execRkwait (x : SReg) (s : State) : Host.Outcome State Fault Refusal :=
  if s.pkg.units.getLsbD 13 then jobWait .rsu x s else seq32 s (trap .UNIT_ABSENT)

/-! Jobs. -/

/-- Read n elements of w bytes each, in order; the first refusal. -/
def State.readRun (s : State) (j : Job) (p : Place) (w : Nat) (as : List Nat) : State × List Nat × Option Nat :=
  gather (fun s a => s.jobRead j p a w) as s

/-- The bytes of strings to write: the granules are any subset when the job fails, or has failed before (R332). -/
def State.writeStrings (s : State) (j : Job) (p : Place) (l : List (Nat × List Byte)) (fail : Option Nat) : State × Option Nat :=
  let r := gather (fun s (x : Nat × List Byte) => s.jobOut j p x.1 x.2)
    (l.flatMap (fun x => (List.range (x.2.length / 16)).map (fun g => (x.1 + 16 * g, (x.2.drop (16 * g)).take 16)))) s
  let f := fail.or r.2.2
  (r.1.performAll j r.2.1.flatten f, f)

/-- The addresses of the keys of a run (R323, R327). -/
def keyAddrs (k : TensorHandle) (columns : Bool) (run : Nat) : List Nat :=
  if columns then (List.range k.rows.toNat).map (fun r => k.addr k.base.toNat r run)
  else (List.range (k.rows.toNat * k.cols.toNat)).map (fun i => k.addr k.base.toNat (i / k.cols.toNat) (i % k.cols.toNat))

/-- A ranking job (R327). -/
def rankJob (s : State) (j : Job) (columns : Bool) (d k : TensorHandle) (cfg : Word) : State × Job :=
  let c := j.owner.coreKey
  let runs := List.range (if columns then k.cols.toNat else 1)
  let r := gather (fun s run =>
    let x := s.readRun j (k.ownPlace c) k.eb (keyAddrs k columns run)
    match x.2.2 with
    | some e => .error e
    | none => .ok (x.1, (d.base.toNat + run * d.stride.toNat,
        beadBytes x.2.1.length (rankRun k.fmt j.fpm cfg x.2.1)))) runs s
  let w := r.1.writeStrings j (d.ownPlace c) r.2.1 r.2.2
  (w.1, { j with fail := w.2 })

/-- A table image's header is valid (R329). -/
def tableHeaderOk (h : Nat) : Bool := decide (h % 4 < 2) && h / 4 % 2 ^ 14 == 0 && h / 2 ^ 26 % 64 == 0 && h / 2 ^ 64 == 0

/-- RKTAB's job (R329). -/
def tableJob (s : State) (j : Job) (t : TensorHandle) : State × Job :=
  let c := j.owner.coreKey
  let p := t.ownPlace c
  let base := t.base.toNat
  match s.jobRead j p base 16 with
  | .error e => (s, { j with fail := some e })
  | .ok (s, h) =>
    let l := h / 2 ^ 16 % 2 ^ 10 + 1
    let beyond := t.space && decide ((s.core c).scratchSize < base + 16 + l * t.eb)
    if !tableHeaderOk h || beyond then (s, { j with fail := some 2 })
    else
      let r := s.readRun j p t.eb ((List.range l).map (fun i => base + 16 + i * t.eb))
      match r.2.2 with
      | some e => (r.1, { j with fail := some e })
      | none =>
        let tab := r.2.1.map (fun x => BitVec.ofNat 32 (if t.fmt = 0x09 then x * 65536 else x))
        (r.1.upCore c (fun k =>
          if h % 4 = 0 then { k with atten := tab } else { k with recon := tab, reconFill := BitVec.ofNat 32 (h / 2 ^ 32) }), j)

/-- RKVAL's job (R330): the whole string is read before it is judged. -/
def valueJob (s : State) (j : Job) (d b : TensorHandle) : State × Job :=
  let c := j.owner.coreKey
  let p := b.ownPlace c
  let base := b.base.toNat
  let k := s.core c
  match s.jobRead j p base 8 with
  | .error e => (s, { j with fail := some e })
  | .ok (s, h) =>
    let n := h % 2 ^ 32
    let r := h / 2 ^ 32
    let len := d.rows.toNat * d.cols.toNat
    if b.space ∧ k.scratchSize < base + 8 + 2 * r then (s, { j with fail := some 3 })
    else
      let x := s.readRun j p 2 ((List.range r).map (fun i => base + 8 + 2 * i))
      match x.2.2 with
      | some e => (x.1, { j with fail := some e })
      | none =>
        if n = 0 ∨ 65536 < n ∨ 65536 < r ∨ n ≠ len ∨ x.2.1.any (fun i => decide (n ≤ i)) then (x.1, { j with fail := some 3 })
        else
          let v := ((x.2.1.zip k.recon).foldl (fun (l : List (BitVec 32)) e => l.set e.1 e.2) (List.replicate n k.reconFill))
          let out := v.zipIdx.map (fun e =>
            (d.addr d.base.toNat (e.2 / d.cols.toNat) (e.2 % d.cols.toNat), storeElem d.fmt j.fpm e.1.toNat))
          let w := gather (fun s (e : Nat × Nat × BitVec 5) => s.jobOut j (d.ownPlace c) e.1 (leBytes d.eb e.2.1)) out x.1
          (w.1.performAll j w.2.1.flatten w.2.2,
            { j with flags := out.foldl (fun f e => f ||| e.2.2) j.flags, fail := w.2.2 })

/-- Passes of a job: one for each 256 keys of each run, at least one (log entry 18). -/
def JobOp.passes : JobOp → Nat
  | .rksort _ k _ => Nat.max 1 (ceilDiv (k.rows.toNat * k.cols.toNat) 256)
  | .rktopk _ k _ => Nat.max 1 (k.cols.toNat * ceilDiv k.rows.toNat 256)
  | _ => 1

/-- The effect of a job, at its last pass. -/
def rkJob (s : State) (j : Job) : State × Job :=
  match j.op with
  | .rksort d k cfg => rankJob s j false d k cfg
  | .rktopk d k cfg => rankJob s j true d k cfg
  | .rktab t => tableJob s j t
  | .rkval d b => valueJob s j d b
  | _ => (s, j)

/-- The next core in round-robin order with a job for these engines (R321, R401). -/
def State.rkNext (s : State) (cl : Nat) : Option Nat :=
  let ptr := (s.cluster cl).rsPtr
  ((List.range 16).map (fun i => (ptr + i) % 16)).find? (fun p => (headFor (s.core (posCore cl p)).rsq cl).isSome)

/-- RSU_PASS (R321): a pass of the job at the head of the queue of the next core in round-robin order. -/
def execRsuPass (cl : Nat) (s : State) : Host.Outcome State Fault Refusal :=
  match s.rkNext cl with
  | none => noEvent s
  | some p =>
    let c := posCore cl p
    match headFor (s.core c).rsq cl with
    | none => noEvent s
    | some j =>
      let s0 := s
      let s := s.upCluster cl (fun k => { k with rsPtr := (p + 1) % 16 })
      let j := { j with prog := j.prog + 1 }
      let s := if j.prog < j.op.passes then s.upCore c (fun k => { k with rsq := j :: k.rsq.tail })
        else let r := rkJob s j; r.1.completeJob c .rsu r.2 cl
      let s := match (s.core c).rsq.head? with | some j => s.postOnce (.rsuPass j.cl) | none => s
      .next (s0.unlessPoisoned (if (s.rkNext cl).isSome then s.postOnce (.rsuPass cl) else s))

end Sys2Proof.Machine
end

