-- ==== Sys2Proof/Machine/Btu.lean ====
section
/-! DEFINITION. The block transfer unit (R334 to R341): tile copies, gathers, fills and circular-buffer transfers. -/

namespace Sys2Proof.Machine

/-- The place a handle names in a BTU job (R335): global memory, the submitter's scratchpad, or that of a core of its cluster; none
when the selector or a high bit of BASE is not one of these. -/
def TensorHandle.btuPlace (h : TensorHandle) (t : Tid) : Option Place :=
  let sel := field h.base 19 4
  if !h.space then some .global
  else if field h.base 23 32 ≠ 0 then none
  else if sel = 0 then some (.scratch t.coreKey)
  else if 8 ≤ sel then some (.scratch (t.die * 256 + (coresOfCluster (clusterOf t.core)).getD (sel - 8) 0))
  else none
/-- The base within the place: a byte offset for a scratchpad. -/
def TensorHandle.btuBase (h : TensorHandle) : Nat := if h.space then field h.base 0 19 else h.base.toNat
/-- The place, when the submission has checked it. -/
def TensorHandle.btuAt (h : TensorHandle) (t : Tid) : Place := (h.btuPlace t).getD .global

/-- The conversions of a copy (R337). -/
def copyFormats (src dst : BitVec 5) : Bool :=
  src == dst || (decide (src.toNat ≤ 0x0D) && decide (dst.toNat ≤ 0x0D))
    || ((src == 0x0E || src == 0x0F) && (dst == 0x09 || dst == 0x0A || dst == 0x0B))

/-- HANDLE_CURSOR and the other checks of a handle over P planes (R336, R337). -/
def needPlanes (h : TensorHandle) (p : Nat) : Except Stop Unit := do
  need (!h.empty?) .HANDLE_EMPTY
  need (!h.badFmt) .BAD_FORMAT
  need (h.curOk (h.at_ + p - 1)) .HANDLE_CURSOR

/-- The span of pieces, from the first to past the last byte. -/
def span (ps : List Piece) : Nat × Nat :=
  match ps with
  | [] => (0, 0)
  | p :: r => r.foldl (fun a q => (Nat.min a.1 q.at_, Nat.max a.2 (q.at_ + q.n))) (p.at_, p.at_ + p.n)
/-- Source and destination overlap: the same place, and their spans meet (R337). -/
def overlaps (src dst : List Piece) : Bool :=
  match src.head?, dst.head? with
  | some a, some b => a.place == b.place && decide ((span src).1 < (span dst).2) && decide ((span dst).1 < (span src).2)
  | _, _ => false

/-- The bytes of P planes of a handle. -/
def TensorHandle.planes (h : TensorHandle) (t : Tid) (p : Nat) (write : Bool) : List Piece :=
  (List.range p).flatMap (fun q => h.tilePieces (h.btuAt t) h.btuBase (h.at_ + q) write)

/-- Steps 6 to 8 of R336, the hold and the queue. -/
def btSubmit (s : State) (x : SReg) (op : JobOp) (ps : List Piece) : Except Stop State := do
  needRange s ps
  needWindow s ps
  needStage s ps
  holdStaging s ps
  submit s .btu x (s.newJob op (s.engineCluster s.cur) none)

/-- CPY (R337). -/
def execCpy (hd ha : HReg) (x : SReg) (s : State) : Host.Outcome State Fault Refusal :=
  let d := s.me.rh hd
  let a := s.me.rh ha
  let n := field (s.me.rs x) 0 16
  let p := if n = 0 then 1 else n
  seq32 s (do
    needNoGlobalOut s (!d.space)
    needPlanes d p
    needPlanes a p
    need (copyFormats a.fmt d.fmt) .BTU_FORMAT
    need ((d.btuPlace s.cur).isSome && (a.btuPlace s.cur).isSome) .BTU_SHAPE
    need ((List.range p).all (fun q => d.tileRows (d.at_ + q) == a.tileRows (a.at_ + q)
      && d.tileCols (d.at_ + q) == a.tileCols (a.at_ + q))) .BTU_SHAPE
    need (!overlaps (a.planes s.cur p false) (d.planes s.cur p true)) .BTU_SHAPE
    btSubmit s x (.cpy d a p) (d.planes s.cur p true ++ a.planes s.cur p false))

/-- The source that a gather's checks test: every row of the array over the columns of the current tile (R337). -/
def gatherPieces (a : TensorHandle) (t : Tid) : List Piece :=
  a.pieces (a.btuAt t) a.btuBase 0 a.rows.toNat (a.col0 a.at_) (a.tileCols a.at_) false
/-- The index list of a gather: the first m elements of the first row of the tile (R337). -/
def indexPieces (ix : TensorHandle) (t : Tid) (m : Nat) : List Piece :=
  ix.pieces (ix.btuAt t) ix.btuBase (ix.row0 ix.at_) 1 (ix.col0 ix.at_) m false

/-- CPYG (R337). -/
def execCpyg (hd ha hb : HReg) (x : SReg) (s : State) : Host.Outcome State Fault Refusal :=
  let d := s.me.rh hd
  let a := s.me.rh ha
  let ix := s.me.rh hb
  let m := d.tileRows d.at_
  seq32 s (do
    needNoGlobalOut s (!d.space)
    needPlanes d 1
    needPlanes a 1
    needPlanes ix 1
    need (copyFormats a.fmt d.fmt && (ix.fmt == 0x03 || ix.fmt == 0x05)) .BTU_FORMAT
    need ((d.btuPlace s.cur).isSome && (a.btuPlace s.cur).isSome && (ix.btuPlace s.cur).isSome) .BTU_SHAPE
    need (decide (m ≤ ix.tileCols ix.at_) && a.tileCols a.at_ == d.tileCols d.at_
      && !overlaps (gatherPieces a s.cur) (d.planes s.cur 1 true)) .BTU_SHAPE
    btSubmit s x (.cpyg d a ix) (d.planes s.cur 1 true ++ gatherPieces a s.cur ++ indexPieces ix s.cur m))

/-- The fill pattern k[n], or k[n+1]·2^32 + k[n] (R337). -/
def Core.fillPattern (c : Core) (n : Nat) : Word := BitVec.ofNat 64 (c.scratchNum (4 * n) 8)

/-- CPYF (R337). -/
def execCpyf (hd : HReg) (x : SReg) (s : State) : Host.Outcome State Fault Refusal :=
  let d := s.me.rh hd
  let n := field (s.me.rs x) 0 8
  seq32 s (do
    needNoGlobalOut s (!d.space)
    needPlanes d 1
    need (!d.isScaled) .BTU_FORMAT
    need ((d.btuPlace s.cur).isSome && !(d.eb == 8 && n % 2 == 1)) .BTU_SHAPE
    btSubmit s x (.cpyf d (s.myCore.fillPattern n)) (d.planes s.cur 1 true))

/-- Bytes of the tile that CPYW moves. -/
def TensorHandle.streamSize (h : TensorHandle) : Nat := h.tileRows h.at_ * h.tileCols h.at_ * h.eb
/-- The element bytes of the tile that CPYW moves; a scale plane takes no part (R338). -/
def TensorHandle.streamPieces (h : TensorHandle) (t : Tid) (write : Bool) : List Piece :=
  (List.range (h.tileRows h.at_)).map (fun i =>
    ⟨h.btuAt t, h.addr h.btuBase (h.row0 h.at_ + i) (h.col0 h.at_), h.tileCols h.at_ * h.eb, write⟩)

/-- CPYW.FILL (R338). -/
def execCpywFill (c : CReg) (ha : HReg) (x : SReg) (s : State) : Host.Outcome State Fault Refusal :=
  let k := s.me.rc c
  let a := s.me.rh ha
  seq32 s (do
    need k.valid .CB_INVALID
    needPlanes a 1
    need ((a.btuPlace s.cur).isSome && decide (ceilDiv a.streamSize k.slotsz.toNat ≤ k.count.toNat)) .BTU_SHAPE
    btSubmit s x (.cpywFill c a)
      (⟨.scratch s.cur.coreKey, k.base.toNat, k.ringSize, true⟩ :: a.streamPieces s.cur false))

/-- CPYW.DRAIN (R338). -/
def execCpywDrain (hd : HReg) (c : CReg) (x : SReg) (s : State) : Host.Outcome State Fault Refusal :=
  let k := s.me.rc c
  let d := s.me.rh hd
  seq32 s (do
    needNoGlobalOut s (!d.space)
    need k.valid .CB_INVALID
    needPlanes d 1
    need ((d.btuPlace s.cur).isSome && decide (ceilDiv d.streamSize k.slotsz.toNat ≤ k.count.toNat)) .BTU_SHAPE
    btSubmit s x (.cpywDrain d c)
      (⟨.scratch s.cur.coreKey, k.base.toNat, k.ringSize, false⟩ :: d.streamPieces s.cur true))

/-- CPYP (R340). -/
def execCpyp (pd : PReg) (x : SReg) (s : State) : Host.Outcome State Fault Refusal := jobPoll .btu pd x false s

/-! Jobs. -/

/-- An element converted for a copy (R337): equal formats copy bits; a scaled source is read under R41 and rounded once. -/
def copyElem (src dst : BitVec 5) (fpm : BitVec 6) (x : Nat) (sc : Option Nat) : Nat × BitVec 5 :=
  if src = dst then (x, 0)
  else
    match elemOf src.toNat, elemOf dst.toNat, sc with
    | some _, some (.flt G), some n => let v := elemVal src fpm x (some n); G.finish fpm v
    | some k, some l, _ => convert k l fpm false x
    | _, _, _ => (x, 0)

/-- One element of a copy: its source row and column, and its destination's. -/
structure CopyElem where
  src : Nat × Nat
  dst : Nat × Nat

/-- Read and convert an element, which carries its poison (R392), and take the grants of its destination bytes and of its scale byte
when that is copied. The scale byte goes with every element: where source and destination cut their blocks at different columns, the
destination's byte is that of its block's last column, of which R337 says nothing (DESIGN CHOICE, log entry 83). -/
def copyOne (t : Tid) (j : Job) (d a : TensorHandle) (s : State) (e : CopyElem) : Except Nat (State × List EWrite × BitVec 5) := do
  let (s, x, sc, bad) ← s.jobElem j a (a.btuAt t) a.btuBase e.src.1 e.src.2
  let v := copyElem a.fmt d.fmt j.fpm x sc
  let (s, w) ← s.jobOutMarked j (d.btuAt t) (d.addr d.btuBase e.dst.1 e.dst.2) (leBytes d.eb v.1) bad
  match d.isScaled, sc with
  | true, some n => do
    let (s, w2) ← s.jobOutMarked j (d.btuAt t) (d.scaleAddr d.btuBase e.dst.1 e.dst.2) (leBytes 1 n) bad
    .ok (s, w ++ w2, v.2)
  | _, _ => .ok (s, w, v.2)

/-- A job that writes the elements of a list. -/
def copyAll (s : State) (j : Job) (d a : TensorHandle) (es : List CopyElem) : State × Job :=
  let r := gather (copyOne j.owner j d a) es s
  let p := d.btuAt j.owner
  let lost := if r.2.2.isNone then [] else es.flatMap (fun e => match copyOne j.owner j d a s e with
    | .ok _ => []
    | .error _ => s.outGranules j p (d.addr d.btuBase e.dst.1 e.dst.2) d.eb
        ++ (if d.isScaled then s.outGranules j p (d.scaleAddr d.btuBase e.dst.1 e.dst.2) 1 else []))
  let s := r.1.performAll j (r.2.1.flatMap (fun x => x.1)) r.2.2 lost
  (s, { j with flags := r.2.1.foldl (fun f x => f ||| x.2) j.flags, fail := r.2.2 })

/-- The elements of a tile copy over planes. -/
def copyElems (d a : TensorHandle) (p : Nat) : List CopyElem :=
  (List.range p).flatMap (fun q =>
    (tileCells (d.tileRows (d.at_ + q)) (d.tileCols (d.at_ + q))).map (fun c =>
      ⟨(a.row0 (a.at_ + q) + c.1, a.col0 (a.at_ + q) + c.2), (d.row0 (d.at_ + q) + c.1, d.col0 (d.at_ + q) + c.2)⟩))

/-- CPYG's job: every index is read before anything is written (R337). -/
def gatherJob (s : State) (j : Job) (d a ix : TensorHandle) : State × Job :=
  let m := d.tileRows d.at_
  let r := s.readRun j (ix.btuAt j.owner) ix.eb ((List.range m).map (fun i => ix.addr ix.btuBase (ix.row0 ix.at_) (ix.col0 ix.at_ + i)))
  match r.2.2 with
  | some e => (r.1, { j with fail := some e })
  | none =>
    if r.2.1.any (fun i => decide (a.rows.toNat ≤ i)) then (r.1, { j with fail := some 2 })
    else copyAll r.1 j d a ((tileCells m (d.tileCols d.at_)).map (fun c =>
      ⟨(r.2.1.getD c.1 0, a.col0 a.at_ + c.2), (d.row0 d.at_ + c.1, d.col0 d.at_ + c.2)⟩))

/-- The granules of the elements of a tile that a refused grant leaves unwritten, in part or whole. -/
def State.tileLost (s : State) (j : Job) (d : TensorHandle) : List Nat :=
  let p := d.btuAt j.owner
  (tileCells (d.tileRows d.at_) (d.tileCols d.at_)).flatMap (fun c =>
    let a := d.addr d.btuBase (d.row0 d.at_ + c.1) (d.col0 d.at_ + c.2)
    match s.jobOut j p a (leBytes d.eb 0) with
    | .ok _ => []
    | .error _ => s.outGranules j p a d.eb)

/-- CPYF's job. -/
def fillJob (s : State) (j : Job) (d : TensorHandle) (pat : Word) : State × Job :=
  let r := gather (fun s (c : Nat × Nat) =>
    s.jobOut j (d.btuAt j.owner) (d.addr d.btuBase (d.row0 d.at_ + c.1) (d.col0 d.at_ + c.2)) (leBytes d.eb pat.toNat))
    (tileCells (d.tileRows d.at_) (d.tileCols d.at_)) s
  (r.1.performAll j r.2.1.flatten r.2.2 (if r.2.2.isNone then [] else s.tileLost j d), { j with fail := r.2.2 })

/-- The bytes of an element of a stream, with their poison; none for each byte of one whose read was refused. -/
def streamElem (j : Job) (p : Place) (w : Nat) (s : State) (a : Nat) : State × List (Option (Byte × Bool)) × Option Nat :=
  match s.jobMove j p a w with
  | .ok (r, v) => (r, (leBytes w v).map (fun b => some (b, s.jobPoison j p a w)), none)
  | .error e => (s, List.replicate w none, some e)

/-- The writes of a stream into a ring, byte by byte: it wraps at the ring's end, and between slots its place is contiguous (R155). -/
def ringWrites (k : CbHandle) (core : Nat) (bs : List (Option (Byte × Bool))) : List EWrite :=
  bs.zipIdx.filterMap (fun b => b.1.map (fun x => .scratch core (k.ringAddr k.tail.toNat b.2) [x.1] true x.2))
/-- The granules of a ring that lack a byte of a stream. -/
def ringLost (k : CbHandle) (core : Nat) (bs : List (Option (Byte × Bool))) : List Nat :=
  bs.zipIdx.filterMap (fun b => if b.1.isNone then some (scratchGranule core (k.ringAddr k.tail.toNat b.2)) else none)

/-- A fill's transfer (R338): RING unless the buffer has room. -/
def ringFill (s : State) (j : Job) (c : CReg) (a : TensorHandle) : State × Job :=
  let k := (s.thread j.owner).rc c
  if k.count.toNat - k.fill.toNat < ceilDiv a.streamSize k.slotsz.toNat then (s, { j with fail := some 3 })
  else
    let cells := tileCells (a.tileRows a.at_) (a.tileCols a.at_)
    let r := cells.foldl (fun (acc : State × List (Option (Byte × Bool)) × Option Nat) e =>
      let x := streamElem j (a.btuAt j.owner) a.eb acc.1 (a.addr a.btuBase (a.row0 a.at_ + e.1) (a.col0 a.at_ + e.2))
      (x.1, acc.2.1 ++ x.2.1, acc.2.2.or x.2.2)) (s, [], none)
    let c := j.owner.coreKey
    (r.1.performAll j (ringWrites k c r.2.1) r.2.2 (ringLost k c r.2.1), { j with fail := r.2.2 })

/-- A drain's transfer (R338): RING unless the slots are filled. -/
def ringDrain (s : State) (j : Job) (d : TensorHandle) (c : CReg) : State × Job :=
  let k := (s.thread j.owner).rc c
  if k.fill.toNat < ceilDiv d.streamSize k.slotsz.toNat then (s, { j with fail := some 3 })
  else
    let core := s.core j.owner.coreKey
    let cells := tileCells (d.tileRows d.at_) (d.tileCols d.at_)
    let r := gather (fun s (e : (Nat × Nat) × Nat) =>
      let from_ := tabulate d.eb (fun b => k.ringAddr k.head.toNat (e.2 * d.eb + b))
      s.jobOutMarked j (d.btuAt j.owner) (d.addr d.btuBase (d.row0 d.at_ + e.1.1) (d.col0 d.at_ + e.1.2))
        (from_.map core.scratch.read) (from_.any (fun a => core.poisonedAt a 1))) cells.zipIdx s
    (r.1.performAll j r.2.1.flatten r.2.2 (if r.2.2.isNone then [] else s.tileLost j d), { j with fail := r.2.2 })

/-- The transfer of a job, made when it begins. -/
def btJob (s : State) (j : Job) : State × Job :=
  match j.op with
  | .cpy d a p => copyAll s j d a (copyElems d a p)
  | .cpyg d a ix => gatherJob s j d a ix
  | .cpyf d pat => fillJob s j d pat
  | .cpywFill c a => ringFill s j c a
  | .cpywDrain d c => ringDrain s j d c
  | _ => (s, j)

/-- The circular buffer that a job names. -/
def Job.buffer (j : Job) : Option (Tid × CReg) :=
  match j.op with
  | .cpywFill c _ | .cpywDrain _ c => some (j.owner, c)
  | _ => none

/-- A queued job may begin: those before it have begun, and of those none that names its buffer is still to advance it (R334). -/
def mayBegin (before : List Job) (j : Job) : Bool :=
  j.prog == 0 && before.all (fun b => b.prog != 0)
    && (j.buffer.isNone || before.all (fun b => b.buffer != j.buffer || b.fail.isSome))

/-- The job of a queue with an id, and those before it. -/
def splitQueue (q : List Job) (id : BitVec 16) : Option (List Job × Job) :=
  match q.dropWhile (fun j => j.id != id) with
  | [] => none
  | j :: _ => some (q.takeWhile (fun j => j.id != id), j)

/-- The next job that has not begun is due. -/
def State.nextStart (s : State) (core : Nat) : State :=
  match (s.core core).btq.find? (fun j => j.prog == 0) with
  | some j => s.postOnce (.btuJobStart core j.id)
  | none => s

/-- BTU_JOB_START (R334, R337, R338): a job begins and makes its reads and writes. -/
def execBtuJobStart (core : Nat) (id : BitVec 16) (s : State) : Host.Outcome State Fault Refusal :=
  match splitQueue (s.core core).btq id with
  | none => noEvent s
  | some (before, j) =>
    if mayBegin before j then
      let r := btJob s { j with prog := 1 }
      let after := r.1.upCore core (fun k => { k with btq := k.btq.map (fun x => if x.id = id then r.2 else x) })
      .next (s.unlessPoisoned (after.nextStart core))
    else noEvent s

/-- The advance of a circular buffer by a job that has not failed (R338, R158). -/
def State.advanceBuffer (s : State) (j : Job) : State :=
  if j.fail.isSome then s
  else
    match j.op with
    | .cpywFill c a => s.upThread j.owner (fun t => t.wc c ((t.rc c).push (ceilDiv a.streamSize (t.rc c).slotsz.toNat)))
    | .cpywDrain d c => s.upThread j.owner (fun t => t.wc c ((t.rc c).pop (ceilDiv d.streamSize (t.rc c).slotsz.toNat)))
    | _ => s

/-- Jobs that have begun may complete in any order (R334). -/
def State.btuDue (s : State) : List Instr :=
  s.cores.flatMap (fun e => (e.2.btq.filter (fun j => j.prog != 0)).map (fun j => .btuJobComplete e.1 j.id))

/-- BTU_JOB_COMPLETE (R338): the job advances its buffer and completes. -/
def execBtuJobComplete (core : Nat) (id : BitVec 16) (s : State) : Host.Outcome State Fault Refusal :=
  match (s.core core).btq.find? (fun j => j.id == id) with
  | none => noEvent s
  | some j =>
    if j.prog = 0 then noEvent s
    else .next (((s.advanceBuffer j).completeJob core .btu j j.cl).nextStart core)

end Sys2Proof.Machine
end

