-- ==== Sys2Proof/Machine/Preempt.lean ====
section
/-! DEFINITION. Pre-emption and frames, as several meanings share them: cleavage points (R380, R383), draining (R384), the frame
region (R264), context frames (R386) and fault frames (R262, R263), and what a restored thread holds (R387). -/

namespace Sys2Proof.Machine

/-! The cleavage table (R84, R381). -/

/-- The code object a thread's launch runs: the image of its address space whose digest is the record's (R165). -/
def State.imageOf (s : State) (t : Thread) : Option Image :=
  match s.launch? t.bind.lid with
  | some l => s.pkg.images.find? (fun i => i.asid == l.asid && i.digest == l.record.digest)
  | none => none
/-- Entry n of the cleavage table, unless it lies beyond the table or is unused (R84). -/
def State.cleaveEntry (s : State) (t : Thread) (n : Nat) : Option (Word × BitVec 32) :=
  match s.imageOf t with
  | some i => (i.cleave[n]?).filter (fun e => !(e.1 == 0 && e.2 == 0xFFFFFFFF))
  | none => none
/-- VA of the first TEXT section. -/
def Image.textBase (i : Image) : Nat := match i.texts with | [] => 0 | x :: _ => x.1

/-! The frame region (R264). -/

/-- Units of the die's frame region. -/
def State.frameUnits (s : State) (d : Nat) : Nat := field (s.die d).ffrgn 0 16
/-- Physical base of the region. -/
def State.frameBase (s : State) (d : Nat) : Nat := field (s.die d).ffrgn 16 36 * 65536
/-- The first run of n free units, by fuel from unit i (R264: first fit). -/
def findRun (used : List (Nat × Nat)) (total n : Nat) : Nat → Nat → Option Nat
  | 0, _ => none
  | f + 1, i =>
    if total < i + n then none
    else if used.any (fun u => decide (u.1 < i + n) && decide (i < u.1 + u.2)) then findRun used total n f (i + 1)
    else some i
/-- A place for a frame of n units on a die. -/
def State.frameRoom (s : State) (d n : Nat) : Option Nat := findRun (s.die d).frames (s.frameUnits d) n (s.frameUnits d + 1) 0

/-! Context frames (R386). -/

/-- LIVE of an implicit point: the whole state (R380). -/
def liveAll : Word := 0x3FFFFFFFFFFFFFFF#64
/-- A bit of LIVE. -/
def liveBit (live : Word) (i : Nat) : Bool := live.getLsbD i

/-- The body of a context frame before the bank (R386): each item when its LIVE bit is set, queues always. -/
def Thread.contextBody (t : Thread) (live : Word) : List Byte :=
  ((List.range 31).flatMap (fun i => if liveBit live i then leBytes 8 (t.rs (Fin.ofNat 32 (i + 1))).toNat else []))
    ++ ((List.range 7).flatMap (fun i => if liveBit live (32 + i) then leBytes 16 (t.rm (Fin.ofNat 8 (i + 1))).toNat else []))
    ++ ((List.range 8).flatMap (fun j => if liveBit live (39 + j) then
        leBytes 32 (t.rh (Fin.ofNat 16 (2 * j))).toBits.toNat ++ leBytes 32 (t.rh (Fin.ofNat 16 (2 * j + 1))).toBits.toNat else []))
    ++ ((List.range 8).flatMap (fun n => if liveBit live (47 + n) then leBytes 16 (t.rc (Fin.ofNat 8 n)).toBits.toNat else []))
    ++ ((List.range 7).flatMap (fun n => if liveBit live (55 + n) then
        (match t.slots.toList.getD n none with | some b => blockBytes b | none => []) else []))
    ++ (t.ldq ++ t.sdq).flatMap (fun v => leBytes 128 v.toNat)

/-- The bytes of a bank: 8,192 entries of 32 bits, row by row. -/
def BankState.bytes (b : BankState) : List Byte :=
  (List.range 8192).flatMap (fun i => leBytes 4 ((Assoc.find i b.cells).getD b.ident).toNat)

/-- Bytes of a context frame: header and body padded to a multiple of 256, then the in-use bank (R386). -/
def frameSize (body : Nat) (bank : Bool) : Nat := roundUp (256 + body) 256 + (if bank then 32768 else 0)

/-- A job writes its bank: every MXE job but MXSTORE (R316). -/
def JobOp.writesBank : JobOp → Bool
  | .mxstore _ => false
  | _ => true
/-- A thread has a job that has not completed and writes a bank. -/
def State.bankWritten (s : State) (t : Tid) (cl b : Nat) : Bool :=
  (s.core t.coreKey).mxq.any (fun j => j.owner == t && j.cl == cl && j.bank == some (Fin.ofNat 8 b) && j.op.writesBank)
/-- The live banks of a thread at a point: in use, or written by a job that has not completed (R383). -/
def State.liveBanks (s : State) (t : Tid) : List (Nat × Nat × BankState) :=
  (s.ownedBanks t).filter (fun e => e.2.2.inuse || s.bankWritten t e.1 e.2.1)

/-- A launch whose gang is lost: its threads stop without a frame (R450). -/
def State.gangLost (s : State) (lid : Nat) : Bool :=
  match s.launch? lid with | some l => l.gang == 3 | none => false

/-- A pending request takes effect here: it is not deferred (R383, R450). -/
def State.canPreempt (s : State) (t : Tid) (live : Word) : Bool :=
  let th := s.thread t
  let banks := s.liveBanks t
  let size := frameSize (th.contextBody live).length (!banks.isEmpty)
  th.preempt && !th.bind.txn && th.rebuild.isNone && (s.gangLost th.bind.lid ||
    (decide (banks.length ≤ 1) && (s.frameRoom t.die ((size + 8191) / 8192)).isSome))

/-- The implicit cleavage points (R380). -/
def Wait.implicit : Wait → Bool
  | .bar _ | .barwt _ | .vrtake _ | .vrtaket .. | .lrwait .. | .job .cle _ => true
  | .ldfe _ _ _ _ mark => mark
  | _ => false

/-- A pre-emption takes effect at a point (R384, step 1): the thread stops issuing and drains; an implicit wait leaves its FIFO. -/
def State.startDrain (s : State) (t : Tid) (kind cidx : Nat) (live : Word) : State :=
  let th := s.thread t
  let w := th.waitFields
  let s := s.upThread t (fun x => { x with preempt := false, status := .waiting (.drain kind cidx live w.1 w.2) })
  let s := s.upCore t.coreKey (fun k => { k with fifo := k.fifo.filter (fun x => x.tnum != t.tnum) })
  let s := if (s.core t.coreKey).fifo.isEmpty then s else s.urge [.vrClaimGrant t.coreKey]
  s.post [.contextFrameWrite t]

/-- A thread that waits at an implicit point with a pending request is pre-empted at once, unless deferred (R383). -/
def State.tryPreempt (s : State) (t : Tid) : State :=
  match (s.thread t).status with
  | .waiting w => if w.implicit && s.canPreempt t liveAll then s.startDrain t 2 0 liveAll else s
  | _ => s

/-- The thread whose instructions a slot runs: the leader's for the slot of a second copy (R408). -/
def State.leaderOf (s : State) (t : Tid) : Tid := match (s.thread t).status with | .shadow l => l | _ => t

/-- Set a pending pre-emption request on a running kernel thread, by either copy of a paired one; a frozen thread receives none (R370,
R379, R408). -/
def State.askPreempt (s : State) (t : Tid) : State :=
  let t := s.leaderOf t
  let th := s.thread t
  match th.status with
  | .ready | .waiting _ =>
    if th.bind.txn then s else (s.setThread t { th with preempt := true }).tryPreempt t
  | _ => s

/-! Restored threads (R387). -/

/-- The cause held in JOBERR (R378). -/
def Thread.jobCause (t : Thread) : Cause :=
  let j := field t.joberr 0 8
  if j = 0x39 then .RK_JOB else if j = 0x3A then .BT_JOB else if j = 0x3B then .COL_JOB else .MX_JOB


/-- What a context frame gives back: items that are not live hold their binding values (R387). -/
def Thread.rebuilt (t : Thread) (live : Word) : Thread :=
  { t with
    s := Vector.ofFn (fun i => if i.val = 0 then 0 else if liveBit live (i.val - 1) then t.s[i] else 0)
    p := Vector.ofFn (fun i => if liveBit live 31 then t.p[i] else false)
    m := Vector.ofFn (fun i => if i.val ≠ 0 ∧ liveBit live (31 + i.val) then t.m[i] else BitVec.allOnes 128)
    h := Vector.ofFn (fun i => if liveBit live (39 + i.val / 2) then t.h[i] else TensorHandle.empty)
    c := Vector.ofFn (fun i => if liveBit live (47 + i.val) then t.c[i] else CbHandle.empty)
    slots := Vector.ofFn (fun i => (t.slots[i]).map (fun b => if liveBit live (55 + i.val) then b else Vector.replicate 4 0)) }

end Sys2Proof.Machine
end

