-- ==== Sys2Proof/Machine/Fetch.lean ====
section
/-! DEFINITION. Instruction fetch (R29, R62, R63, R256): the text sections, the core's instruction cache, and the halfwords of the
next instruction; and what a step does around the instruction: the free advance of the model's counter and the choice of the
thread that issues next (R175; log entry 5). -/

namespace Sys2Proof.Machine

/-- A halfword address that lies in a text section of the thread's code object (R29); an odd address is none. -/
def State.inText (s : State) (t : Thread) (va : Nat) : Bool :=
  va % 2 == 0 && (match s.imageOf t with
    | some i => i.texts.any (fun x => decide (x.1 ≤ va) && decide (va + 2 ≤ x.1 + x.2))
    | none => false)

/-- The halfword the core's instruction cache holds for an address. -/
def Core.iFind (c : Core) (asid : BitVec 16) (va : Nat) : Option (BitVec 16) :=
  (c.icache.find? (fun x => tagMatches x.asid asid && x.va == va)).map (·.half)

/-- A fetch that is refused: FETCH with the translation cause in INFO, but for PAGE_ABSENT, which takes the page-fault path
(R256); on a line of a registered array the walk never gives that cause (R265). -/
def fetchRefused {α : Type} (va : Word) (c : Cause) : Except Stop α :=
  match c with
  | .PAGE_ABSENT => .error (.page va 2)
  | c => .error (.trap ⟨.FETCH, va, BitVec.ofNat 64 c.code, 2⟩)

/-- Fetch one halfword for the current thread: FETCH outside the text sections; else from the instruction cache, or by a fetch grant
(R256). A debug window takes no fetch: PA_RANGE (R376); a device register that the spec does not name gives any halfword, which is
not held (log entry 29). -/
def fetchHalf (s : State) (va : Word) : Except Stop (State × BitVec 16) :=
  let t := s.me
  if !s.inText t va.toNat then .error (.trap ⟨.FETCH, va, 0, 2⟩)
  else
    match s.myCore.iFind t.bind.asid va.toNat with
    | some h => .ok (s, h)
    | none =>
      match s.grant t.bind.asid va.toNat .fetch (!t.bind.sup) with
      | .error c => fetchRefused va c
      | .ok (s, g) =>
        let pa := g.pline * 256 + va.toNat % 256
        if inWindows pa then fetchRefused va .PA_RANGE
        else if paDevice pa then .ok (s, (Config.word s.fresh).extractLsb' 0 16)
        else if g.tbl then do
          unpoisoned s (s.poisonedAt pa 2)
          .ok (s, BitVec.ofNat 16 (s.mem.num pa 2))
        else do
          unpoisoned s (s.linePoison s.cur.die t.bind.asid (va.toNat / 256) g.pline &&& BitVec.ofNat 256 (byteMask (va.toNat % 256) 2) != 0)
          let h : BitVec 16 := (s.lineData s.cur.die t.bind.asid (va.toNat / 256) g.pline).extractLsb' (8 * (va.toNat % 256)) 16
          let s := s.startFill s.cur.die (spaceKey t.bind.asid g.global) (va.toNat / 256)
          .ok (s.upMyCore (fun c => { c with icache := ⟨spaceKey t.bind.asid g.global, va.toNat, h⟩ :: c.icache }), h)

/-- The halfwords of the instruction at PC: one when bit 0 of the first is 0, else two (R62). -/
def fetchHalves (s : State) : Except Stop (State × List (BitVec 16)) := do
  let (s, lo) ← fetchHalf s s.me.pc
  if lo.getLsbD 0 then do
    let (s, hi) ← fetchHalf s (s.me.pc + 2)
    .ok (s, [lo, hi])
  else .ok (s, [lo])

/-- The instruction word of a fault packet (R373). -/
def halvesWord (hs : List (BitVec 16)) : Word := BitVec.ofNat 64 (hs.foldr (fun h n => h.toNat + 65536 * n) 0)

/-- A word that is no instruction: ILLEGAL, with the word in INFO (R74, R373). -/
def takeIllegal (s : State) (hs : List (BitVec 16)) : Host.Outcome State Fault Refusal :=
  .next (s.freeze s.cur ⟨.ILLEGAL, 0, halvesWord hs, 0⟩)

/-- A fetch that does not deliver an instruction. -/
def takeFetchStop (s : State) (e : Stop) : Host.Outcome State Fault Refusal := settle false s (.error e)

/-! The choice of the next thread. -/

/-- The majors of the execute half (R26, R64): vector integer, float, compare, convert, reduce, permute, fused multiply-add, special
functions and lane moves. -/
def executeMajor (m : Nat) : Bool := decide (0x20 ≤ m ∧ m ≤ 0x25) || decide (0x2A ≤ m ∧ m ≤ 0x2C)

/-- The next instruction of a thread belongs to the execute half: a 16-bit lane operation or one of a major above (R26). -/
def State.nextExec (s : State) (t : Tid) : Bool :=
  match fetchHalf { s with cur := t } (s.thread t).pc with
  | .ok (_, h) => !h.getLsbD 0 || executeMajor (field (h.setWidth 64) 1 6)
  | .error _ => false

/-- CLVCNT is near the limit: an urgent thread (R175). -/
def Thread.urgent (t : Thread) : Bool := decide (t.bind.clvmax - t.bind.clvmax / 8 ≤ t.clvcnt)

/-- The ready threads. -/
def State.readyTids (s : State) : List Tid :=
  (s.threads.filter (fun e => e.2.status == .ready)).map (fun e => Tid.ofKey e.1)

/-- The first thread after the pointer in thread-number order (R175). -/
def firstAfter (ptr : Nat) (l : List Tid) : Option Tid :=
  ((List.range 8).map (fun i => (ptr + 1 + i) % 8)).findSome? (fun n => l.find? (fun t => t.tnum == n))

/-- The choice of R175 in one half of a core among the threads ready in it: threads held by YIELD only when all are held (R122);
urgent ones first. -/
def State.halfChoice (s : State) (c : Nat) (exec : Bool) (ready : List Tid) : Option Tid :=
  let mine := ready.filter (fun t => t.coreKey == c && s.nextExec t == exec)
  let free := mine.filter (fun t => !(s.thread t).held)
  let l := if free.isEmpty then mine else free
  let u := l.filter (fun t => (s.thread t).urgent)
  firstAfter (if exec then (s.core c).rrx else (s.core c).rr) (if u.isEmpty then l else u)

/-- One of a list, which the spec leaves free. -/
def pickFrom {α : Type} (n : Nat) (l : List α) : Option α :=
  match l with
  | [] => none
  | [x] => some x
  | _ => l[Config.pick n % l.length]?

/-- The thread that issues next: of any half of any core with a ready thread, the one of R175. -/
def State.choice (s : State) : Option Tid :=
  match pickFrom s.fresh s.readyTids with
  | some t => s.halfChoice t.coreKey (s.nextExec t) s.readyTids
  | none => none

/-- The pointer of a half moves to the thread it has chosen (R175). -/
def Core.pointTo (c : Core) (exec : Bool) (n : Nat) : Core := if exec then { c with rrx := n } else { c with rr := n }

/-- Choose the thread that issues next; with none ready the current slot stays. -/
def State.chooseNext (s : State) : State := { s with cur := s.choice.getD s.cur }

/-- The chosen thread issues: the pointer of its half moves to it (R175). When an event of another agent comes first, no thread issues
and no pointer moves, so that a thread loses no turn. -/
def State.takeTurn (s : State) : State := s.upMyCore (fun c => c.pointTo (s.nextExec s.cur) s.cur.tnum)

end Sys2Proof.Machine
end

