-- ==== Sys2Proof/Machine/Fences.lean ====
section
/-! DEFINITION. Fences: FENCE (R247), XFENCE (R225, R248), IFENCE (R249), QUANT and the end of its wait (R250). -/

namespace Sys2Proof.Machine

/-- FENCE (R247): kind 0 full, 1 acquire, 2 release. A full fence performs every earlier store before any later access, since the
release comes first (R222). -/
def execFence (kind scope : BitVec 2) (s : State) : Host.Outcome State Fault Refusal :=
  let c := s.cur.coreKey
  seq32 s
    (let s := if kind = 1 then s else s.release c scope.toNat
     if kind = 2 then .ok s else acquireLast s scope.toNat)

/-- XFENCE (R225, R248). Engine, lock-manager, host and front-end accesses are performed at their homes when they are made, so that
only the CORE path, when it is named, holds writes back or serves older bytes. It meets another path only at the homes: with one
named beside it the core's L1 is written back and its clean bytes dropped at every scope, core scope too. With HOST or FE named beside
CORE the die's replicas are dropped as well, so that no update still to come hides a write those have performed. -/
def execXfence (scope : BitVec 2) (paths : BitVec 8) (s : State) : Host.Outcome State Fault Refusal :=
  let c := s.cur.coreKey
  let x := if paths >>> 1 = 0 then scope.toNat else Nat.max scopeDie scope.toNat
  let s' := s.release c x
  let s' := if paths >>> 6 = 0 then s' else s'.upDie s.cur.die (fun d => d.dropCopies (fun _ => true))
  seq32 s (if paths.getLsbD 0 then acquireLast s' x else .ok s)

/-- IFENCE (R249): a release at die scope, then the core's instruction cache is empty. -/
def execIfence (s : State) : Host.Outcome State Fault Refusal :=
  seq32 s (.ok ((s.release s.cur.coreKey scopeDie).upMyCore (fun c => { c with icache := [] })))

/-- QUANT (R250): in a kernel thread at D2 the quantum ends and the thread waits for the commit of its round; elsewhere no
effect. -/
def execQuant (s : State) : Host.Outcome State Fault Refusal :=
  seq32 s
    (if s.me.d2 && !s.me.qended && s.me.rebuild.isNone then .error (.wait (s.endQuantum s.cur) .quant) else .ok s)

/-- QUANT_WAIT_END (R250): the round has committed; the thread acquires and retires. -/
def execQuantWaitEnd (t : Tid) (s : State) : Host.Outcome State Fault Refusal :=
  match (s.thread t).status with
  | .waiting .quant =>
    if s.roundDone (s.thread t) then .next (s.endWaitAcquire t (s.thread t).d2Scope id) else noEvent s
  | _ => noEvent s

end Sys2Proof.Machine
end

