-- ==== Sys2Proof/Machine/TxnSet.lean ====
section
/-! DEFINITION. The sets of transactions: template slots (R271), distinct keys (R273) and the layout of a staging area (R274). -/

namespace Sys2Proof.Machine

/-- MODE of a template slot. -/
def TxSlot.kind (x : TxSlot) : Nat := field x.mode 0 2
/-- Registration index of a template slot. -/
def TxSlot.tareg (x : TxSlot) : Nat := field x.ta 0 10
/-- Tile row and column of a slot for transaction i (R271). -/
def TxSlot.tile (x : TxSlot) (i : Nat) : Int × Int :=
  (x.row0.toInt + x.drow.toInt * i, x.col0.toInt + x.dcol.toInt * i)
/-- The key of a slot for transaction i; a tile outside the array has no key of its own and is refused at arming (R272). -/
def TxSlot.key (x : TxSlot) (i : Nat) : TileKey := ⟨x.tareg, (x.tile i).1.toNat, (x.tile i).2.toNat⟩

/-- The non-empty slots of transaction i: slot number, key, and write mode. -/
def LaunchRec.slotKeys (r : LaunchRec) (i : Nat) : List (Nat × TileKey × Bool) :=
  r.txset.zipIdx.filterMap (fun e => if e.1.kind = 1 ∨ e.1.kind = 2 then some (e.2, e.1.key i, e.1.kind == 2) else none)

/-- The distinct keys of slots, in order of first appearance, each a write when some slot of it is one (R273). -/
def distinctKeys (l : List (Nat × TileKey × Bool)) : List (TileKey × Bool) :=
  l.foldl (fun acc e =>
    if acc.any (fun k => k.1 == e.2.1) then acc.map (fun k => if k.1 = e.2.1 then (k.1, k.2 || e.2.2) else k)
    else acc ++ [(e.2.1, e.2.2)]) []

/-- Bytes of a tile. -/
def State.tszOf (s : State) (k : TileKey) : Nat := match s.arrayOf k with | some a => a.tsz | none => 0

/-- Offsets of copies from the start of a staging area, each at the next multiple of its TSZ; and the end of the last (R274). -/
def layoutFrom (tsz : TileKey → Nat) : Nat → List TileKey → List (TileKey × Nat) × Nat
  | e, [] => ([], e)
  | e, k :: r =>
    let o := roundUp e (tsz k)
    let x := layoutFrom tsz (o + tsz k) r
    ((k, o) :: x.1, x.2)

/-- A computed set: slots with offsets from the start of the staging area, distinct keys, staging need and alignment. -/
structure TxSet where
  slots : Vector (Option SetSlot) 16
  keys : List (TileKey × Bool)
  need : Nat
  align : Nat
  deriving DecidableEq, Repr

/-- The set that slots give (R273, R274). -/
def State.setOf (s : State) (l : List (Nat × TileKey × Bool)) : TxSet :=
  let keys := distinctKeys l
  let lay := layoutFrom s.tszOf 0 (keys.map Prod.fst)
  let offOf := fun (k : TileKey) => ((lay.1.find? (fun x => x.1 == k)).map Prod.snd).getD 0
  { slots := l.foldl (fun v e => v.setIfInBounds e.1 (some ⟨e.2.1, e.2.2, offOf e.2.1⟩)) (Vector.replicate 16 none)
    keys := keys
    need := lay.2
    align := (keys.map (fun k => s.tszOf k.1)).foldl Nat.max 1 }

/-- The set of transaction i of a template launch (R271). -/
def State.templateSet (s : State) (r : LaunchRec) (i : Nat) : TxSet := s.setOf (r.slotKeys i)

/-- A reconnaissance launch: slot 0 has MODE 3 (R271). -/
def LaunchRec.isRecon (r : LaunchRec) : Bool := match r.txset with | x :: _ => x.kind == 3 | [] => false

/-- The slots of a set moved to a base. -/
def placeSlots (v : Vector (Option SetSlot) 16) (base : Nat) : Vector (Option SetSlot) 16 :=
  v.map (fun x => x.map (fun y => { y with off := y.off + base }))

end Sys2Proof.Machine
end

