-- ==== Sys2Proof/Machine/Arm.lean ====
section
/-! DEFINITION. Launch records and their arming: the layout of a record (R165), validation (R5, R166, R167, R272, R408, R444, R448),
the dispatch trace of a replay (R184), arming itself (R164, R167 to R170), and LRPATCH, LRARM, LRWAIT and LRSTAT (R196 to
R198). -/

namespace Sys2Proof.Machine

/-! The record (R165). -/

/-- The n-byte number at an offset of a record. -/
def recNum (bs : List Byte) (o n : Nat) : Nat := leNat ((bs.drop o).take n)

/-- A template slot of a record (R271). -/
def recSlot (bs : List Byte) (n : Nat) : TxSlot :=
  let o := 0x100 + 16 * n
  { mode := BitVec.ofNat 8 (recNum bs o 1)
    rsv1 := BitVec.ofNat 8 (recNum bs (o + 1) 1)
    ta := BitVec.ofNat 16 (recNum bs (o + 2) 2)
    row0 := BitVec.ofNat 16 (recNum bs (o + 4) 2)
    col0 := BitVec.ofNat 16 (recNum bs (o + 6) 2)
    drow := BitVec.ofNat 16 (recNum bs (o + 8) 2)
    dcol := BitVec.ofNat 16 (recNum bs (o + 10) 2)
    rsv2 := BitVec.ofNat 32 (recNum bs (o + 12) 4) }

/-- The record that 1,536 bytes give. -/
def LaunchRec.ofBytes (bs : List Byte) : LaunchRec where
  ctl := BitVec.ofNat 32 (recNum bs 0x000 4)
  nslice := recNum bs 0x004 4
  dgrp := recNum bs 0x008 4
  clvmax := recNum bs 0x00C 4
  txmax := recNum bs 0x010 4
  qlen := recNum bs 0x014 4
  entry := BitVec.ofNat 64 (recNum bs 0x018 8)
  stkbase := BitVec.ofNat 64 (recNum bs 0x020 8)
  stksz := recNum bs 0x028 4
  ntx := recNum bs 0x02C 4
  seed := BitVec.ofNat 64 (recNum bs 0x030 8)
  captgt := BitVec.ofNat 64 (recNum bs 0x038 8)
  poolVa := BitVec.ofNat 64 (recNum bs 0x040 8)
  poolN := recNum bs 0x048 4
  trlen := recNum bs 0x04C 4
  trva := BitVec.ofNat 64 (recNum bs 0x050 8)
  preds := tabulate 4 (fun i => BitVec.ofNat 64 (recNum bs (0x058 + 8 * i) 8))
  gang := BitVec.ofNat 64 (recNum bs 0x078 8)
  digest := BitVec.ofNat 512 (recNum bs 0x080 64)
  stkn := recNum bs 0x0C0 4
  txset := tabulate 16 (recSlot bs)
  const := tabulate 256 (fun i => BitVec.ofNat 32 (recNum bs (0x200 + 4 * i) 4))
  rsvZero := recNum bs 0x0C4 60 == 0

/-- TRMODE and CAPEV of CTL. -/
def LaunchRec.trmode (r : LaunchRec) : Nat := field r.ctl 15 2
/-- SUP. -/
def LaunchRec.supBit (r : LaunchRec) : Bool := r.ctl.getLsbD 2

/-! Validation. -/

/-- A template slot's reserved bits are zero (R271). -/
def TxSlot.rsvOk (x : TxSlot) : Bool := field x.mode 2 6 == 0 && x.rsv1 == 0 && field x.ta 10 6 == 0 && x.rsv2 == 0

/-- Reserved fields and ranges (R165, R166, R167). -/
def LaunchRec.rangesOk (r : LaunchRec) : Bool :=
  field r.ctl 26 6 == 0 && decide (field r.ctl 0 2 < 2) && decide (r.det < 3) && decide (1 ≤ r.level) && decide (r.level ≤ 5)
    && decide (r.trmode < 3) && decide (r.reserve ≤ 6) && decide (r.clvmax ≤ 65536)
    && (!r.isTxn || decide (r.txmax ≤ 1048576))
    && (r.qlen == 0 || (decide (64 ≤ r.qlen) && decide (r.qlen ≤ 65536)))
    && !r.entry.getLsbD 0 && r.stkbase.toNat % 16 == 0 && r.stksz % 16 == 0 && decide (r.poolN ≤ 4096)
    && r.trva.toNat % 8 == 0 && decide (r.stkn ≤ 1048576) && r.rsvZero && r.txset.all TxSlot.rsvOk
    && (if r.isTxn then r.nslice == 0 else decide (1 ≤ r.nslice) && r.ntx == 0)
    && !(r.trmode != 0 && decide (r.trlen < r.nslice))

/-- The stack regions end at or below 2^55 (R166). -/
def State.stacksOk (s : State) (r : LaunchRec) : Bool :=
  decide (r.stkbase.toNat + s.stackRegions r * r.stksz ≤ 2 ^ 55)

/-- The least staging window of the present dies (R272). -/
def State.leastStaging (s : State) : Nat :=
  (s.presentDies.map (fun d => Nat.max (s.die d).txstg.toNat 1 * 4096)).foldl Nat.min (64 * 4096)

/-- A slot of a template names a registered array of the launch's address space, writable for a write slot, and its tiles for the
first and the last transaction lie in it (R272). -/
def State.slotOk (s : State) (asid : BitVec 16) (ntx : Nat) (x : TxSlot) : Bool :=
  x.kind == 0 ||
    (match Assoc.find x.tareg s.pkg.arrays with
      | none => false
      | some a =>
        a.asid == asid && (x.kind != 2 || a.wr) &&
          [0, ntx - 1].all (fun i =>
            let t := x.tile i
            decide (0 ≤ t.1) && decide (t.1 < a.ntr) && decide (0 ≤ t.2) && decide (t.2 < a.ntc)))

/-- The checks of R272 and R444 on a transaction launch; slot 0 of a reconnaissance launch names an array as well (R444). -/
def State.txsetOk (s : State) (asid : BitVec 16) (r : LaunchRec) : Bool :=
  let kinds := r.txset.map TxSlot.kind
  decide (1 ≤ r.ntx) && kinds.headD 0 != 0 &&
    (if r.isRecon then kinds.tail.all (· == 0) && r.txset.head?.any (fun x =>
       match Assoc.find x.tareg s.pkg.arrays with | some a => a.asid == asid | none => false)
     else
      kinds.all (· != 3) && decide ((kinds.filter (· == 2)).length ≤ 8) && r.txset.all (s.slotOk asid r.ntx)
        && (List.range r.ntx).all (fun i => decide ((s.templateSet r i).need ≤ s.leastStaging))
        && ((r.txset.filter (fun x => x.kind != 0)).map (fun x => (Assoc.find x.tareg s.pkg.arrays).map (·.pod))).eraseDups.length == 1)

/-- The gang descriptor (R448). -/
def State.gangOk (s : State) (r : LaunchRec) : Bool :=
  if r.gangBit then
    !r.isTxn && r.level == 5 && field r.gang 53 11 == 0
      && decide (2 ≤ field r.gang 32 11) && decide (field r.gang 32 11 ≤ 1024)
      && decide (field r.gang 32 11 ≤ field s.pkg.podcfg 10 11) && decide (field r.gang 43 10 < field s.pkg.podcfg 10 11)
      && !s.pkg.launches.any (fun e => e.2.record.gangBit && !e.2.state.final && field e.2.record.gang 0 32 == field r.gang 0 32)
  else r.level != 5 && r.gang == 0

/-- Step 1 of R167: no reason for BAD_RECORD. -/
def State.recordOk (s : State) (asid : BitVec 16) (r : LaunchRec) : Bool :=
  r.rangesOk && s.stacksOk r && s.gangOk r && (!(r.paired && !r.isTxn) || r.det == 2)
    && (!r.isTxn || s.txsetOk asid r) && s.pkg.images.any (fun i => i.asid == asid && i.digest == r.digest)

/-- A unit the record needs is absent (R5). -/
def State.unitsLack (s : State) (r : LaunchRec) : Bool :=
  (r.paired && !s.pkg.units.getLsbD 16) ||
    ((r.gangBit || (r.isTxn && r.txset.any (fun x => x.kind != 0 &&
      (match Assoc.find x.tareg s.pkg.arrays with | some a => a.pod | none => false)))) && !s.pkg.units.getLsbD 17)

/-- Hardware threads of one domain instance of a launch (R162). -/
def State.instanceThreads (s : State) (r : LaunchRec) : Nat :=
  match r.level with
  | 1 => 8
  | 2 => 64
  | 3 => 2048
  | 4 => 2048 * s.presentDies.length
  | _ => 2048 * s.presentDies.length * field r.gang 32 11

/-- Codes of the reasons of R168 that arming gives. -/
def reasonUnitAbsent : Nat := 1
/-- PRIV. -/
def reasonPriv : Nat := 2
/-- BAD_RECORD. -/
def reasonBadRecord : Nat := 3
/-- BAD_DOMAIN. -/
def reasonBadDomain : Nat := 4
/-- NODE_FULL. -/
def reasonNodeFull : Nat := 5
/-- PRED_FAILED. -/
def reasonPredFailed : Nat := 6
/-- STALE_PRED. -/
def reasonStalePred : Nat := 7
/-- TRACE_MISMATCH. -/
def reasonTrace : Nat := 11

/-- A graph node is free: 16,384 nodes, one for each launch that is not final (R167, R168). -/
def State.nodeFree (s : State) : Bool := decide ((s.pkg.launches.filter (fun e => !e.2.state.final)).length < 16384)

/-- The trace entries of a replay (R184), read at their homes at the record's level; none where a grant is refused. -/
def State.readTrace (s : State) (asid : BitVec 16) (r : LaunchRec) : Option (State × List Word) :=
  match s.homeBytes asid r.supBit (linesFor (8 * r.nslice)) r.trva.toNat (8 * r.nslice) with
  | .ok (s, bs) => some (s, tabulate r.nslice (fun i => BitVec.ofNat 64 (recNum bs (8 * i) 8)))
  | .error _ => none

/-- The thread slot a trace entry names: core x + 48 · y of the package (R184). -/
def traceTid (e : Word) : Tid :=
  let c := field e 32 12
  let x := c % 48
  let y := c / 48
  ⟨x / 16 + 3 * (y / 16), x % 16 + 16 * (y % 16), field e 44 3⟩
/-- The trace entry of a slice on a thread slot. -/
def traceEntry (slice : Nat) (t : Tid) : Word :=
  let x := t.die % 3 * 16 + t.core % 16
  let y := t.die / 3 * 16 + t.core / 16
  BitVec.ofNat 64 (slice % 2 ^ 32 + (x + 48 * y) * 2 ^ 32 + t.tnum * 2 ^ 44)

/-- A trace names every slice once, on cores of the part (R184). An entry whose bits [63:47] are not zero is no entry of a trace, and is
refused as well (DESIGN CHOICE, log entry 61). -/
def State.traceOk (s : State) (n : Nat) (tr : List Word) : Bool :=
  let slices := tr.map (fun e => field e 0 32)
  decide (tr.length = n) && slices.all (fun i => decide (i < n)) && slices.eraseDups.length == n
    && tr.all (fun e => decide (field e 32 12 < 2304) && field e 47 17 == 0 && s.presentDies.contains (traceTid e).die)

/-- A kernel launch that replays a trace: TRMODE = 2 at D2 (R184). -/
def LaunchRec.replays (r : LaunchRec) : Bool := !r.isTxn && r.det == 2 && r.trmode == 2
/-- A kernel launch that records its trace: TRMODE = 1 at D2 (R184). -/
def LaunchRec.records (r : LaunchRec) : Bool := !r.isTxn && r.det == 2 && r.trmode == 1

/-- The trace a replay runs by, and the state after reading it: none when it is refused. A gang member's is checked with its ACK
(R454). -/
def State.traceFor (s : State) (asid : BitVec 16) (r : LaunchRec) : Option (State × List Word) :=
  if !r.replays then some (s, [])
  else (s.readTrace asid r).filter (fun x => r.gangBit || s.traceOk r.nslice x.2)

/-- STATE of a launch id. -/
def State.stateCode (s : State) (lid : Word) : Nat := field (s.statusWord lid) 0 4

/-- Who arms a record: a host queue, a thread of a level, or firmware (R24, R252). -/
inductive Armer where
  | queue
  | thread (sup : Bool)
  | firmware
  deriving DecidableEq, Repr

/-- It may ask for supervisor level (R24). -/
def Armer.mayAskSup : Armer → Bool
  | .queue => false
  | .thread sup => sup
  | .firmware => true

/-- The first reason of R167 to refuse a record, or none. A launch armed from a host queue or a thread never receives ASID 0 (R252): as
no user code object belongs there, BAD_RECORD refuses it (DESIGN CHOICE, log entry 61). TRACE_MISMATCH, to which R167 gives no place, is
tested last (DESIGN CHOICE, log entry 61). -/
def State.refusal (s : State) (asid : BitVec 16) (armer : Armer) (r : LaunchRec) : Option Nat :=
  let preds := r.predIds.map s.stateCode
  if !s.recordOk asid r || (asid == 0 && armer != .firmware) then some reasonBadRecord
  else if r.supBit && !armer.mayAskSup then some reasonPriv
  else if s.unitsLack r then some reasonUnitAbsent
  else if s.instanceThreads r < r.groupSize then some reasonBadDomain
  else if preds.any (fun c => c == 4 || c == 5 || c == 6) then some reasonPredFailed
  else if preds.any (· == 7) then some reasonStalePred
  else if !s.nodeFree then some reasonNodeFull
  else if (s.traceFor asid r).isNone then some reasonTrace
  else none

/-! Arming (R167). -/

/-- Launches whose status expires now, and the steps that count launch ids (R168, R170, R171). -/
def State.idEvents (s : State) : State :=
  let old := s.pkg.launches.filterMap (fun e => if e.2.expired s.pkg.lastLid then some (Instr.statusExpiry e.1) else none)
  let starved := s.pkg.launches.filterMap (fun e => if e.2.state = .ready then some (Instr.priorityPreemption e.1) else none)
  s.post (.ageingStep :: old ++ starved)

/-- Arm a record: it receives the next launch id; a refused one is REFUSED with its reason, an accepted one takes a node, counts
its predecessors that are not final, and becomes READY when there is none (R167 to R169), unless it is a member of a BUNDLE, whose
members become READY together (R354). -/
def State.armIn (s : State) (bundle : List Nat) (asid : BitVec 16) (armer : Armer) (signal : Option (Nat × Nat × Word))
    (bytes : List Byte) : State × Nat :=
  let r := LaunchRec.ofBytes bytes
  let why := s.refusal asid armer r
  let lid := s.pkg.lastLid + 1
  let s := s.upPkg (fun p => { p with lastLid := lid })
  let l : Launch := { Launch.blank with record := r, asid := asid, signal := signal, bundle := bundle, endedAt := lid, agedAt := lid }
  match why with
  | some reason =>
    let s := s.setLaunch lid { l with state := .refused, reason := reason }
    ((s.wakeWaiters lid).idEvents, lid)
  | none =>
    let live := r.predIds.filter (fun p => decide (s.stateCode p ≤ 2))
    let (s, tr) := (s.traceFor asid r).getD (s, [])
    let l := { l with state := .waiting, counter := live.length, trace := tr,
                      rsig := if r.isTxn then 0 else s.signature r 0 0 }
    let s := s.setLaunch lid l
    let s := live.foldl (fun s p => s.upLaunch (field p 0 54) (fun x => { x with succs := x.succs ++ [lid] })) s
    let s := if live.isEmpty && bundle.isEmpty then s.makeReady lid else s
    (s.idEvents, lid)

/-- Arm a record by itself. -/
def State.arm (s : State) (asid : BitVec 16) (armer : Armer) (signal : Option (Nat × Nat × Word)) (bytes : List Byte) : State × Nat :=
  s.armIn [] asid armer signal bytes

/-- Firmware arms the oldest record that it is to arm (R24): the way in which a launch at supervisor level comes to run from reset. -/
def State.firmwareArms (s : State) : State :=
  match s.pkg.fwRecords with
  | [] => s
  | (asid, bs) :: r => ((s.upPkg (fun p => { p with fwRecords := r })).arm asid .firmware none bs).1

/-! Instructions (R196 to R198). -/

/-- The address is a record of the launch's pool (R196). -/
def Thread.inPool (t : Thread) (a : Word) : Bool :=
  t.bind.poolVa != 0 && (List.range t.bind.poolN).any (fun i => a == t.bind.poolVa + BitVec.ofNat 64 (1536 * i))

/-- The patchable words of a record (R165, R196). -/
def patchable (w : Nat) : Bool :=
  w == 1 || w == 2 || (decide (11 ≤ w) && decide (w ≤ 13)) || (decide (22 ≤ w) && decide (w ≤ 29))
    || (decide (64 ≤ w) && decide (w ≤ 127)) || (decide (136 ≤ w) && decide (w ≤ 383))

/-- Read bytes of global memory, in pieces that lie in one line, by fuel. No set check applies: no condition but LR_POOL and the
translation faults stops an LRARM (R197), and it is not among the reads that R284 checks. -/
def globalBytes : Nat → State → Word → Nat → Except Stop (State × List Byte)
  | 0, s, _, _ => .ok (s, [])
  | f + 1, s, a, n =>
    if n = 0 then .ok (s, [])
    else do
      let k := Nat.min n (256 - a.toNat % 256)
      let (s, v) ← plainLoad s a.toNat k false
      let (s, r) ← globalBytes f s (a + BitVec.ofNat 64 k) (n - k)
      .ok (s, leBytes k v ++ r)

/-- Write bytes of global memory directly, in pieces that lie in one line, by fuel. -/
def directStore : Nat → State → Word → List Byte → Except Stop State
  | 0, s, _, _ => .ok s
  | f + 1, s, a, bs =>
    if bs.isEmpty then .ok s
    else do
      let k := Nat.min bs.length (256 - a.toNat % 256)
      let s ← l1Store s a.toNat k (leNat (bs.take k)) false
      directStore f s (a + BitVec.ofNat 64 k) (bs.drop k)

/-- LRPATCH (R196). -/
def execLrpatch (d a : SReg) (word : BitVec 12) (s : State) : Host.Outcome State Fault Refusal :=
  let base := s.me.rs a
  let va := base + BitVec.ofNat 64 (4 * word.toNat)
  seq32 s (do
    needAt (s.me.inPool base) .LR_POOL base 0
    needAt (patchable word.toNat) .LR_WORD base 0
    needStorable s va
    if s.me.inPass then .ok s
    else do
      let s ← directStore 2 s va (leBytes 4 (s.me.rs d).toNat)
      .ok (s.forgetBytes va.toNat 4))

/-- LRARM (R197): in a reconnaissance pass it arms nothing and s[d] := 0 (R289). -/
def execLrarm (d a : SReg) (s : State) : Host.Outcome State Fault Refusal :=
  let base := s.me.rs a
  seq32 s (do
    needAt (s.me.inPool base) .LR_POOL base 0
    let (s, bs) ← globalBytes 8 s base 1536
    if s.me.inPass then .ok (s.upMe (fun t => t.ws d 0))
    else
      let s := s.release s.cur.coreKey scopePkg
      let (s, lid) := s.arm s.me.bind.asid (.thread s.me.bind.sup) none bs
      .ok (s.upMe (fun t => t.ws d (s.lidWord lid))))

/-- LRWAIT (R198): TXN_WAIT; at D2 the quantum ends first; a final STATE is written with a package-scope acquire, else it waits. -/
def execLrwait (d a : SReg) (s : State) : Host.Outcome State Fault Refusal :=
  let lid := s.me.rs a
  seq32 s (do
    need (!s.me.bind.txn) .TXN_WAIT
    let s ← quantumFirst s
    if 3 ≤ s.stateCode lid then acquireLast (s.upMe (fun t => t.ws d (s.statusWord lid))) scopePkg
    else .error (.wait s (.lrwait d lid)))

/-- LRWAIT_END (R198). -/
def execLrwaitEnd (t : Tid) (s : State) : Host.Outcome State Fault Refusal :=
  match (s.thread t).status with
  | .waiting (.lrwait d lid) =>
    if 3 ≤ s.stateCode lid then .next (s.endWaitAcquire t scopePkg (fun s => s.upThread t (fun x => x.ws d (s.statusWord lid))))
    else noEvent s
  | _ => noEvent s

/-- LRSTAT (R198). -/
def execLrstat (d a : SReg) (s : State) : Host.Outcome State Fault Refusal :=
  seq32 s (.ok (s.upMe (fun t => t.ws d (s.statusWord (t.rs a)))))

/-- STATUS_EXPIRY (R168): a final status is held no longer, once its signal word has been written (R354). -/
def execStatusExpiry (lid : Nat) (s : State) : Host.Outcome State Fault Refusal :=
  match s.launch? lid with
  | some l =>
    if l.expired s.pkg.lastLid && l.signal.isNone then .next (s.upPkg (fun p => { p with launches := Assoc.erase lid p.launches })) else noEvent s
  | none => noEvent s

end Sys2Proof.Machine
end

