-- ==== Sys2Proof/Machine/MemEvents.lean ====
section
/-! DEFINITION. The memory system's own events: grants and walks as rows of the table (R205, R256), fills and write-backs of an L1
(R203), the causal propagation of updates and read replicas (R210, R428 to R430), and package-scope acquires (R432). -/

namespace Sys2Proof.Machine

/-! Grants, fills and write-backs. -/

/-- LINE_GRANT_REQUEST (R205): the home slice answers from its record or through the TLB; a refusal changes nothing here, and
reaches the thread that asked with its own access. -/
def execLineGrantRequest (_core : Nat) (asid : BitVec 16) (va : BitVec 64) (kind : AccessKind) (user : Bool) (s : State) :
    Host.Outcome State Fault Refusal :=
  match s.grant asid va.toNat kind user with
  | .ok (s, _) => .next s
  | .error _ => noEvent s

/-- TABLE_WALK_COMPLETE (R256 to R258): a walk sets A and D, and its leaf enters the TLB and the L2 record; one that refuses leaves
nothing. -/
def execTableWalkComplete (asid : BitVec 16) (va : BitVec 64) (kind : AccessKind) (user : Bool) (s : State) :
    Host.Outcome State Fault Refusal :=
  if 2 ^ 55 ≤ va.toNat then noEvent s
  else
    match s.walkGrant asid va.toNat kind user with
    | .ok (s, _) => .next s
    | .error _ => noEvent s

/-- SECTOR_FILL (R203): a sector of a line held for reading is fetched and merged under the line's dirty bytes. -/
def execSectorFill (core : Nat) (asid : BitVec 16) (va : BitVec 64) (s : State) : Host.Outcome State Fault Refusal :=
  match (s.core core).lineIx asid va.toNat with
  | some i =>
    if ((s.core core).lineAt i).rd then .next (s.fillSectors core i asid (sectorsOf (va.toNat % 256) 1)) else noEvent s
  | none => noEvent s

/-- WRITE_BACK (R203, R206): the dirty bytes of a line go to its home by its token, without translation. -/
def execWriteBack (core : Nat) (asid : BitVec 16) (va : BitVec 64) (s : State) : Host.Outcome State Fault Refusal :=
  match (s.core core).lineIx asid va.toNat with
  | some i => .next (s.writeBackLine core i)
  | none => noEvent s

/-! Updates (R428, R429). -/

/-- An update can be applied on a die (R429). -/
def Die.canApply (d : Die) (u : Update) : Bool :=
  (List.range 9).all (fun k =>
    if k = u.src then d.count k + 1 == u.v.getD k 0 else decide (u.v.getD k 0 ≤ d.count k))

/-- The cells of a line written into its 256 bytes. -/
def patchLine (pline : Nat) (data : BitVec 2048) (cells : List Host.Cell) : BitVec 2048 :=
  cells.foldl (fun d c =>
    if c.1 / 256 = pline then
      let o := 8 * (c.1 % 256)
      (d &&& ~~~(BitVec.ofNat 2048 (255 * 2 ^ o))) ||| BitVec.ofNat 2048 (c.2.toNat * 2 ^ o)
    else d) data

/-- A replica after an update's bytes have been written into it: a mark on it stands until every byte under it has been written, and the
bytes that an update brings poisoned mark their half-sectors, as at the home (R392). -/
def Replica.patched (r : Replica) (u : Update) : Replica :=
  { r with
    data := patchLine r.pline r.data u.cells
    half := (u.bad.filter (fun a => a / 256 == r.pline)).foldl (fun p a => markHalves p a 1) (poisonWritten r.half u.cells)
    whole := poisonWritten r.whole u.cells }

/-- Apply an update on a die: its bytes enter the die's replicas and those fills read before it, and the count moves on (R429,
R430). -/
def State.applyUpdate (s : State) (d : Nat) (u : Update) : State :=
  s.upDie d (fun x => { x with
    replicas := x.replicas.map (·.patched u)
    fills := x.fills.map (fun f =>
      if f.2.getD u.src 0 < u.v.getD u.src 0 then (f.1.patched u, f.2) else f)
    vclk := x.vclk.setIfInBounds u.src (BitVec.ofNat 48 (u.v.getD u.src 0))
    updates := x.updates.erase u })

/-- The oldest update of a die that can be applied. -/
def Die.nextUpdate (d : Die) : Option Update := d.updates.find? d.canApply

/-- Apply every update that can be applied on a die, by fuel. -/
def State.applyAllFrom (d : Nat) : Nat → State → State
  | 0, s => s
  | n + 1, s =>
    match (s.die d).nextUpdate with
    | some u => State.applyAllFrom d n (s.applyUpdate d u)
    | none => s
/-- Apply every update that can be applied on a die: every update issued so far. -/
def State.applyAll (s : State) (d : Nat) : State := State.applyAllFrom d (s.die d).updates.length s

/-- Threads of a die whose package acquire may now end, and fills that may now be installed. -/
def State.clockEvents (s : State) (d : Nat) : State :=
  let ts := s.boundTids.filter (fun t => t.die == d && (s.thread t).status == .waiting .acquire)
  s.post (ts.map .packageAcquireEnd ++
    (s.die d).fills.map (fun f => .replicaFillInstall d (f.1.asid.getD 0) (BitVec.ofNat 64 (f.1.vline * 256))))

/-- UPDATE_APPLY (R429): the oldest update of a home that a die has received is applied when it is causally ready; updates of other
homes that wait on it can then be looked at. -/
def execUpdateApply (die src : Nat) (s : State) : Host.Outcome State Fault Refusal :=
  match (s.die die).updates.find? (fun u => u.src == src) with
  | none => noEvent s
  | some u =>
    if (s.die die).canApply u then
      let s := (s.applyUpdate die u).clockEvents die
      .next (s.post (((s.die die).updates.map (·.src)).eraseDups.map (fun h => .updateApply die h)))
    else noEvent s

/-! Replicas (R210, R430). -/

/-- A die's clock covers that of a fill, but for its own count (R430). -/
def Die.covers (d : Die) (own : Nat) (v : List Nat) : Bool :=
  (List.range 9).all (fun k => k == own || decide (v.getD k 0 ≤ d.count k))

/-- Make room for a replica in a slice of a die: 1 MiB, so 4,096 lines, of each slice hold replicas; when they are taken, one, which
the spec does not choose, is dropped (R210). -/
def Die.dropOne (d : Die) (slice pick : Nat) : Die :=
  let mine := d.replicas.filter (fun q => q.slice == slice)
  if mine.length < 4096 then d
  else { d with replicas := match mine[pick % mine.length]? with | some q => d.replicas.erase q | none => d.replicas }

/-- The address space whose lines an event names: the L2's record tells whether the page is global (R207). -/
def State.tagOf (s : State) (asid : BitVec 16) (vline : Nat) : Option (BitVec 16) :=
  match s.l2Find asid vline with
  | some r => r.asid
  | none => some asid

/-- REPLICA_FILL_INSTALL (R430): a fill waiting on a die is installed once the die's clock covers it; with none waiting, the line
is read at its home, with the home's clock, and then waits or is installed. -/
def execReplicaFillInstall (die : Nat) (asid : BitVec 16) (va : BitVec 64) (s : State) : Host.Outcome State Fault Refusal :=
  match s.replicaHome (s.tagOf asid (va.toNat / 256)) (va.toNat / 256) with
  | none => noEvent s
  | some (r, h) =>
    if s.sliceDie h = die || !s.presentDies.contains die then noEvent s
    else
      let mine := fun (f : Replica × List Nat) => f.1.vline == r.vline && f.1.asid == r.asid
      let s := if (s.die die).fills.any mine then s
        else s.upDie die (fun x => { x with fills := x.fills ++ [s.fillOf r h] })
      match (s.die die).fills.find? mine with
      | some f =>
        if (s.die die).covers die f.2 then
          .next (s.upDie die (fun x =>
            let x := { x with fills := x.fills.filter (fun g => !mine g), replicas := x.replicas.filter (fun q => !mine (q, [])) }
            let x := x.dropOne f.1.slice (Config.pick s.fresh)
            { x with replicas := f.1 :: x.replicas }))
        else .next s
      | none => .next s

/-- REPLICA_DROP (R210). -/
def execReplicaDrop (die : Nat) (asid : BitVec 16) (va : BitVec 64) (s : State) : Host.Outcome State Fault Refusal :=
  .next (s.upDie die (fun x => { x with
    replicas := x.replicas.filter (fun r => !(r.vline == va.toNat / 256 && tagMatches r.asid asid)) }))

/-! Package-scope acquires (R432). -/

/-- CLOCK_REQUEST (R432): a die answers an acquire's request with its own count. -/
def execClockRequest (t : Tid) (die : Nat) (s : State) : Host.Outcome State Fault Refusal :=
  if (s.thread t).status == .waiting .acquire && !s.pkg.clockAns.any (fun a => a.1 == t && a.2.1 == die) then
    .next ((s.upPkg (fun p => { p with clockAns := p.clockAns ++ [(t, die, (s.die die).count die)] })).post [.packageAcquireEnd t])
  else noEvent s

/-- PACKAGE_ACQUIRE_END (R432): every die has answered and its count is applied here; the clean bytes of the core's L1 are
invalidated and the thread goes on. -/
def execPackageAcquireEnd (t : Tid) (s : State) : Host.Outcome State Fault Refusal :=
  let ans := s.pkg.clockAns.filter (fun a => a.1 == t)
  if (s.thread t).status == .waiting .acquire && s.presentDies.all (fun d => ans.any (fun a => a.2.1 == d))
      && ans.all (fun a => decide (a.2.2 ≤ (s.die t.die).count a.2.1)) then
    let s := s.upPkg (fun p => { p with clockAns := p.clockAns.filter (fun a => a.1 != t) })
    .next ((s.invalidateClean t.coreKey).leaveWait t id)
  else noEvent s

/-- An acquire at a scope in one step, for a thread that is not executing an instruction: the package's acquire applies every
update issued so far (R220, R432). -/
def State.acquireNow (s : State) (c scope : Nat) : State :=
  if scope = 0 then s
  else (if 2 ≤ scope then s.applyAll (c / 256) else s).invalidateClean c

end Sys2Proof.Machine
end

