-- ==== Sys2Proof/Machine/Bind.lean ====
section
/-! DEFINITION. Binding a thread to a slot: the change of a core's resident launch (R21, R180, R201, R315, R328), the state of a
thread at binding (R28, R164, R190), and the second copy of a paired thread (R408). -/

namespace Sys2Proof.Machine

/-! A core's resident launch. -/

/-- Apply a new L1 quota (R201): the L1 is written back and emptied, scratch bytes that come from it read zero with empty
full-empty bits, those that go to it are lost with their marks. -/
def State.applySplit (s : State) (c : Nat) : State :=
  if (s.core c).l1next = (s.core c).l1q then s
  else
    let s := s.writeBackAll c
    s.upCore c (fun k =>
      let k' := { k with l1 := [], l1q := k.l1next }
      let keep := Nat.min k.scratchSize k'.scratchSize
      { k' with scratch := k.scratch.zero keep 524288, fe := k.fe.filter (fun g => decide (16 * g < keep)),
                poison := k.poison.filter (fun e => decide (8 * e.1 < keep)) })

/-- Package mesh coordinates of a package-wide core (R21, R184). -/
def meshX (c : Nat) : Nat := c / 256 % 3 * 16 + c % 16
/-- Package mesh row. -/
def meshY (c : Nat) : Nat := c / 256 / 3 * 16 + c % 256 / 16

/-- The 1,024 bytes of a core's constant window (R21): the identity words, then words 8–255 of the constant block. -/
def State.windowBytes (s : State) (c lid first : Nat) (r : LaunchRec) : List Byte :=
  let kernel := fun (n : Nat) => if r.isTxn then 0 else n
  ([meshX c + 256 * meshY c, clusterOf (c % 256), c / 256, s.pkgId, kernel first, kernel r.nslice, lid, 0].flatMap (leBytes 4))
    ++ (r.const.drop 8).flatMap (fun w => leBytes 4 w.toNat)

/-- A launch becomes resident on a core (R21): the L1 split is applied first (R201), the constant window is filled with its 64
full-empty bits set, the reserve is set aside (R180), and the core's tables take their first values (R315, R328). -/
def State.makeResident (s : State) (c lid first : Nat) (r : LaunchRec) : State :=
  let s := s.applySplit c
  let bytes := s.windowBytes c lid first r
  s.upCore c (fun k =>
    { (k.scratchWrite 0 bytes) with
      fe := (List.range 64).foldl (fun f g => insertNat g f) k.fe
      resident := some lid
      reserve := r.reserve
      freeBlocks := 48 - 8 * r.reserve
      atten := List.replicate 1024 0x3F800000#32
      recon := List.replicate 1024 0x3F800000#32
      reconFill := 0 })

/-! The state at binding. -/

/-- A field where 0 stands for a default (R165). -/
def orElseNat (n d : Nat) : Nat := if n = 0 then d else n

/-- The binding of a slice or transaction of a launch (R23, R28, R164, R190). -/
def State.bindingOf (s : State) (lid : Nat) (l : Launch) (unit : Nat) : Binding :=
  let r := l.record
  let span := r.groupSpan (r.groupOf unit)
  { lid := lid
    lidReg := s.lidWord lid
    unit := unit
    asid := l.asid
    sup := r.ctl.getLsbD 2
    txn := r.isTxn
    clvmax := orElseNat r.clvmax 65536
    level := r.level
    det := r.det
    paired := r.paired
    restart := r.restart
    nslice := r.nslice
    dgrp := r.groupSize
    gsize := if r.isTxn then 0 else span.2 - span.1
    seed := r.seed
    rsig := l.rsig
    reserve := r.reserve
    poolVa := r.poolVa
    poolN := r.poolN
    capev := r.ctl.getLsbD 11
    captgt := r.captgt
    qlen := orElseNat r.qlen 4096
    txmax := orElseNat r.txmax 1048576 }

/-- s31 at binding (R28, R166). -/
def LaunchRec.stackTop (r : LaunchRec) (region : Option Nat) : Word :=
  match region with
  | some j => r.stkbase + BitVec.ofNat 64 ((j + 1) * r.stksz)
  | none => r.stkbase

/-- A thread as it is bound (R28), ready at the entry of its launch. -/
def State.freshThread (s : State) (lid : Nat) (l : Launch) (unit : Nat) (region : Option Nat) (txn : Option TxnBinding) : Thread :=
  let r := l.record
  let t : Thread := { Thread.reset with
    pc := r.entry
    slots := Vector.ofFn (fun i => if i.val < r.reserve then some (Vector.replicate 4 0) else none)
    fpm := r.ctl.extractLsb' 17 6
    evm := l.capSeq
    region := region
    txn := txn
    bind := s.bindingOf lid l unit
    status := .ready }
  (t.ws 1 (if r.isTxn then 0 else BitVec.ofNat 64 unit)).ws 31 (r.stackTop region)

/-- Seat a thread on a slot; a core without threads takes the launch as resident first. A D2 slice begins its quantum with an acquire at
package scope, whatever the scope of its level, so that no replica hides from it what was written before the launch (R230, R231). -/
def State.seat (s : State) (t : Tid) (th : Thread) : State :=
  let s := match s.launch? th.bind.lid with
    | some l => if (s.core t.coreKey).resident = some th.bind.lid then s
                else s.makeResident t.coreKey th.bind.lid th.bind.unit l.record
    | none => s
  let s := if th.d2 then s.acquireNow t.coreKey scopePkg else s
  s.setThread t th

/-! Paired execution (R408). -/

/-- Mesh distance of two die-local cores. -/
def coreDistance (a b : Nat) : Nat :=
  let d := fun (x y : Nat) => (x - y) + (y - x)
  d (a % 16) (b % 16) + d (a / 16) (b / 16)
/-- A slot can hold the second copy of a thread: on the same die, on a core of higher index, at distance 2 or more. -/
def pairOk (a b : Tid) : Bool := a.die == b.die && decide (a.core < b.core) && decide (2 ≤ coreDistance a.core b.core)
/-- Seat the second copy of a thread: its core takes the launch, and the slot is held. -/
def State.seatShadow (s : State) (leader t : Tid) : State :=
  let th := s.thread leader
  s.seat t { Thread.reset with bind := th.bind, status := .shadow leader }
/-- The first slot of the die that can hold the second copy of a thread. -/
def State.partnerFor (s : State) (lid : Nat) (t : Tid) : Option Tid :=
  ((tabulate 256 (fun c => t.die * 256 + c)).flatMap (fun c => s.freeSlots c lid)).find? (fun p => pairOk t p)
/-- Both copies of a thread that a resumption or re-run seats; none when no slot can hold the second. -/
def State.seatBoth (s : State) (t : Tid) (th : Thread) : Option State :=
  if th.bind.paired then
    match s.partnerFor th.bind.lid t with
    | some p => some ((s.seat t th).seatShadow t p)
    | none => none
  else some (s.seat t th)

end Sys2Proof.Machine
end

