-- ==== Sys2Proof/Machine/Txn.lean ====
section
/-! DEFINITION. The transaction instructions (R292 to R297), and the commit and release of a transaction (R281, R287, R289, R413). -/

namespace Sys2Proof.Machine

/-- TX_ONLY outside a transaction; else the transaction's binding (R292). -/
def needTxn (s : State) : Except Stop TxnBinding :=
  match s.me.txn with
  | some b => if s.me.bind.txn then .ok b else trap .TX_ONLY
  | none => trap .TX_ONLY

/-- A set slot of a binding. -/
def TxnBinding.slot (b : TxnBinding) (n : BitVec 4) : Option SetSlot := b.slots.toList.getD n.toNat none

/-- The handle onto a staging copy (R293). -/
def stagingHandle (a : TileArray) (k : SetSlot) : TensorHandle where
  base := BitVec.ofNat 55 k.off
  space := true
  fmt := a.fmt
  rows := BitVec.ofNat 16 (2 ^ a.ltr)
  cols := BitVec.ofNat 16 (2 ^ a.ltc)
  stride := BitVec.ofNat 32 (fmtBytes a.fmt.toNat * 2 ^ a.ltc)
  ltr := BitVec.ofNat 4 a.ltr
  ltc := BitVec.ofNat 4 a.ltc
  cur := 0
  spoff := 0
  tareg := BitVec.ofNat 10 k.key.ta

/-- TXH (R293). -/
def execTxh (hd : HReg) (slot : BitVec 4) (s : State) : Host.Outcome State Fault Refusal :=
  seq32 s (do
    let b ← needTxn s
    match b.slot slot with
    | none => trap .TX_SLOT
    | some k =>
      match s.arrayOf k.key with
      | some a => .ok (s.upMe (fun t => t.wh hd (stagingHandle a k)))
      | none => trap .TX_SLOT)

/-- Lowest offset and span of the copies a binding has placed (R295, item 5). -/
def State.copySpan (s : State) (b : TxnBinding) : Nat × Nat :=
  let l := b.slots.toList.filterMap id
  match l with
  | [] => (0, 0)
  | k :: r =>
    let lo := r.foldl (fun m x => Nat.min m x.off) k.off
    let hi := l.foldl (fun m x => Nat.max m (x.off + s.tszOf x.key)) 0
    (lo, hi - lo)

/-- The items of TXINFO (R295). -/
def State.txItem (s : State) (t : Thread) (b : TxnBinding) (item : BitVec 4) : Option Nat :=
  match item.toNat with
  | 0 => some b.rn.toNat
  | 1 => some b.idx
  | 2 => some b.recon.toNat
  | 3 => some b.restarts
  | 4 => some (bitsNat (b.slots.toList.map Option.isSome)
      + 65536 * bitsNat (b.slots.toList.map (fun x => match x with | some k => k.write | none => false)))
  | 5 =>
    let x := if b.recon then s.copySpan b else (b.stgBase, b.stgNeed)
    some (x.1 + 2 ^ 20 * x.2)
  | 6 => some t.bind.lidReg.toNat
  | 7 => some b.retired
  | _ => none

/-- TXINFO (R295). -/
def execTxinfo (d : SReg) (item : BitVec 4) (s : State) : Host.Outcome State Fault Refusal :=
  seq32 s (do
    let b ← needTxn s
    match s.txItem s.me b item with
    | some v => .ok (s.upMe (fun t => t.ws d (BitVec.ofNat 64 v)))
    | none => trap .TX_ITEM)

/-! Staging areas (R274). -/

/-- A run of n bytes from o lies in the window and meets no area in use. -/
def runFree (used : List (Nat × Nat × Nat)) (hi o n : Nat) : Bool :=
  decide (o + n ≤ hi) && !used.any (fun u => decide (u.2.1 < o + n) && decide (o < u.2.1 + u.2.2))
/-- The lowest free run of a window that fits, aligned: it starts at the window or at the end of an area in use. -/
def lowestRun (used : List (Nat × Nat × Nat)) (lo hi n al : Nat) : Option Nat :=
  (((lo :: used.map (fun u => u.2.1 + u.2.2)).filter (fun x => decide (lo ≤ x))).map (fun x => roundUp x al)).filter (runFree used hi · n) |>.min?
/-- A place for a staging area of n bytes on a core. -/
def State.stagingRoom (s : State) (c n al : Nat) : Option Nat :=
  lowestRun (s.core c).staging (s.stagingBase c) (s.core c).scratchSize n al
/-- Take a staging area for a thread: its granules' full-empty bits are empty (R274). -/
def State.takeStaging (s : State) (t : Tid) (o n : Nat) : State :=
  s.upCore t.coreKey (fun k =>
    { k with staging := (t.tnum, o, n) :: k.staging
             fe := k.fe.filter (fun g => !(decide (o / 16 ≤ g) && decide (g < (o + n + 15) / 16))) })

/-! TXTOUCH and TXCHECK. -/

/-- Distinct keys with a write slot. -/
def TxnBinding.writeKeys (b : TxnBinding) : List TileKey :=
  (b.slots.toList.filterMap (fun x => match x with | some k => if k.write then some k.key else none | none => none)).eraseDups

/-- A new write would be the ninth (R273, R296). -/
def TxnBinding.ninth (b : TxnBinding) (k : TileKey) : Bool := !b.writeKeys.contains k && decide (8 ≤ b.writeKeys.length)

/-- Record a slot of the current thread's set. -/
def State.recordSlot (s : State) (slot : BitVec 4) (k : SetSlot) : State :=
  s.upMe (fun t => { t with txn := t.txn.map (fun b => { b with slots := b.slots.setIfInBounds slot.toNat (some k) }) })

/-- The pass places a copy of a key: TX_STAGE when it could fit only without the thread's own copies, a wait when other areas stand
in the way; the unlocked snapshot of the tile arrives, with its full bits (R289). -/
def placeCopy (s : State) (k : TileKey) : Except Stop (State × Nat) :=
  let n := s.tszOf k
  let c := s.cur.coreKey
  let own := s.myCore.staging.filter (fun u => u.1 == s.cur.tnum)
  match s.stagingRoom c n n with
  | some o =>
    let (s, d) := (s.takeStaging s.cur o n).tileRead k
    let put := fun (x : Core) (g : Nat) => x.pushGranule (o + 16 * g) ((d.bytes.drop (16 * g)).take 16) (d.bad.contains g)
    .ok (s.upCore c (fun x => (List.range ((d.bytes.length + 15) / 16)).foldl put x), o)
  | none =>
    match lowestRun own (s.stagingBase c) s.myCore.scratchSize n n with
    | none => trap .TX_STAGE
    | some _ => .error (.wait s .touch)

/-- TXTOUCH in a reconnaissance pass (R289, R296). -/
def touchPass (s : State) (b : TxnBinding) (va : Word) (k : TileKey) (slot : BitVec 4) (w : Bool) : Except Stop State :=
  match b.slot slot with
  | none =>
    if w && b.ninth k then trapAt .TX_SET va 0
    else
      match b.copyOf k with
      | some c => .ok (s.recordSlot slot ⟨k, w, c.off⟩)
      | none => do
        let (s, o) ← placeCopy s k
        .ok (s.recordSlot slot ⟨k, w, o⟩)
  | some c =>
    if c.key ≠ k then trapAt .TX_SLOT va 0
    else if w && !c.write then
      if b.ninth k then trapAt .TX_SET va 0 else .ok (s.recordSlot slot { c with write := true })
    else .ok s

/-- TXTOUCH in a real run (R290, R296). -/
def touchRun (s : State) (b : TxnBinding) (va : Word) (k : TileKey) (slot : BitVec 4) (w : Bool) : Except Stop State :=
  let ok := match b.slot slot with
    | some c => c.key == k && (!w || c.write)
    | none => false
  if ok then .ok s
  else if b.reconLaunch then .error (.leave (s.checkedRestart s.cur))
  else trapAt .TX_SET va 0

/-- The scope of a launch's arrays differs from a key's (R444). -/
def State.otherScope (s : State) (t : Thread) (k : TileKey) : Bool :=
  match s.launch? t.bind.lid with
  | some l => s.launchPod l != s.keyPod k
  | none => false

/-- TXTOUCH (R296): TX_NOTILE, TX_RDONLY, TX_SET for an array of the other scope (R444), then the pass or the check. -/
def execTxtouch (a : SReg) (slot : BitVec 4) (w : Bool) (s : State) : Host.Outcome State Fault Refusal :=
  let va := s.me.rs a
  seq32 s (do
    let b ← needTxn s
    match s.keyOf s.me.bind.asid va.toNat with
    | none => trapAt .TX_NOTILE va 0
    | some k =>
      if w && !(match s.arrayOf k with | some a => a.wr | none => false) then trapAt .TX_RDONLY va 0
      else if b.reconLaunch && s.otherScope s.me k then trapAt .TX_SET va 0
      else if b.recon then touchPass s b va k slot w
      else touchRun s b va k slot w)

/-- TXCHECK (R297). -/
def execTxcheck (pd : PReg) (a : SReg) (slot : BitVec 4) (w : Bool) (s : State) : Host.Outcome State Fault Refusal :=
  seq32 s (do
    let b ← needTxn s
    let r := match b.slot slot, s.keyOf s.me.bind.asid (s.me.rs a).toNat with
      | some c, some k => c.key == k && (!w || c.write)
      | _, _ => false
    .ok (s.upMe (fun t => t.wp pd r)))

/-! The end of a run (R287, R289). -/

/-- The staging copy of a key in a transaction, with the granules of it that are poisoned (R392). -/
def State.copyBytes (s : State) (t : Tid) (k : TileKey) : TileData :=
  match (s.thread t).txn.bind (fun b => b.copyOf k) with
  | some c =>
    let n := s.tszOf k
    ⟨(s.core t.coreKey).scratch.bytes c.off n,
      (List.range ((n + 15) / 16)).filter (fun g => (s.core t.coreKey).poisonedAt (c.off + 16 * g) (Nat.min 16 (n - 16 * g)))⟩
  | none => ⟨[], []⟩

/-- The commit begins: every lock manager reads its write copy before any tile is written (R413); commits and releases are due. -/
def State.beginCommit (s : State) (t : Tid) (lid idx : Nat) : State :=
  match s.txn? lid idx with
  | none => s
  | some x =>
    let reqs := x.reqs.map (fun q => if q.write then { q with copy := some (s.copyBytes t q.key), clk := (s.die t.die).vclk } else q)
    let s := s.setTxn lid idx { x with state := .committing, reqs := reqs }
    let ix := List.range reqs.length
    let commits := (ix.filter (fun i => match reqs[i]? with | some q => q.write | none => false)).map (fun i => Instr.lkmCommit lid idx i)
    s.post (commits ++ ix.map (fun i => Instr.lkmRelease lid idx i))

/-- The pass ends: staging is discarded, the set goes to the sequencer, and the thread ends; its stack region stays (R166, R289). -/
def State.endPass (s : State) (t : Tid) (lid idx : Nat) : State :=
  match s.txn? lid idx with
  | none => s
  | some x =>
    let slots := match (s.thread t).txn with | some b => b.slots | none => x.slots
    let s := s.setTxn lid idx { x with slots := slots, passed := true, state := .numbered, landing := none }
    (s.freeSlot t).stagingEvents t.coreKey

/-- A transaction without a request, or with every request released, ends (R287, step 4). -/
def State.finishTxn (s : State) (lid idx : Nat) : State :=
  match s.txn? lid idx with
  | some x => if x.state == .committing && x.reqs.all (·.released) then s.endTxn lid idx true else s
  | none => s

/-- Every grant's push to a transaction has arrived: its LKM path is in order before the commit (R287, step 1). -/
def State.pushesDone (s : State) (lid idx : Nat) : Bool :=
  match s.txn? lid idx with
  | some x => x.reqs.all KeyReq.allPushed
  | none => true

/-- TXEND (R287, R289, R294, R462): it waits for the thread's jobs and pushes, observes the jobs, and raises their failure at the
TXEND; its CORE accesses are released; then the commit begins, or the pass ends. -/
def execTxend (s : State) : Host.Outcome State Fault Refusal :=
  match needTxn s with
  | .error e => settle false s (.error e)
  | .ok b =>
    let t := s.cur
    if s.hasJobs t || !s.pushesDone s.me.bind.lid b.idx then settle false s (.error (.wait s .txend))
    else
      let (s, f) := s.observeOr t (s.myCore.doneOf t)
      match f, s.me.retireFault false with
      | some f, _ => .next (s.freeze t f)
      | none, some c => .next (s.freeze t (Freeze.of c))
      | none, none =>
        let lid := s.me.bind.lid
        let s := s.release t.coreKey scopePkg
        if b.recon then .next (s.endPass t lid b.idx)
        else
          let s := s.upThread t (fun x => { x with status := .waiting .txend })
          .next ((s.beginCommit t lid b.idx).finishTxn lid b.idx)

/-- The copy of a write key is written to its tile, by the lock manager that holds the key, be it in another package (R287, R444). -/
def State.commitTile (s : State) (clk : Vector (BitVec 48) 9) (die rn : Nat) (k : TileKey) (d : TileData) : State :=
  match s.arrayOf k with
  | some a => if a.owner = s.pkgId then s.writeTile clk die k d else s.sendPod a.owner (.commit s.pkgId rn k d)
  | none => s

/-- LKM_COMMIT (R287, R288): a write key's copy is written to its tile at the home slice, whole. -/
def execLkmCommit (lid idx slot : Nat) (s : State) : Host.Outcome State Fault Refusal :=
  match s.txn? lid idx with
  | none => noEvent s
  | some x =>
    match x.reqs[slot]? with
    | some q =>
      match q.copy with
      | some d =>
        if x.state != .committing || q.committed then noEvent s
        else .next ((s.commitTile q.clk x.seqDie x.rn q.key d).upReq lid idx slot (fun q => { q with committed := true }))
      | none => noEvent s
    | none => noEvent s

/-- LKM_RELEASE (R281, R287): a grant of a committing transaction is released, a write's after its tile is written, and its copy is
forwarded to the requests the release lets be granted; after the last the transaction ends. -/
def execLkmRelease (lid idx slot : Nat) (s : State) : Host.Outcome State Fault Refusal :=
  match s.txn? lid idx with
  | none => noEvent s
  | some x =>
    match x.reqs[slot]? with
    | some q =>
      if x.state != .committing || q.released || (q.write && !q.committed) then noEvent s
      else .next ((s.releaseReq lid idx slot true).finishTxn lid idx)
    | none => noEvent s

end Sys2Proof.Machine
end

