-- ==== Sys2Proof/Machine/Landing.lean ====
section
/-! DEFINITION. Where a sequencer stands and where its transactions can land: the transaction it handles next (R276), the landing rule
(R174), and whether a transaction launch can bind work now (R171). -/

namespace Sys2Proof.Machine

/-! Which transaction a sequencer handles. -/

/-- The transaction of the lowest RN among some. -/
def lowestTxn (l : List (Nat × Txn)) : Option (Nat × Txn) :=
  l.foldl (fun b x => match b with
    | none => some x
    | some y => if x.2.rn < y.2.rn then some x else some y) none

/-- The lowest transaction of a sequencer, of the package space first, then of the pod space, among those that satisfy `among`, if
it also satisfies `now` (R276: ascending RN order). -/
def State.seqTarget (s : State) (d : Nat) (among now : Txn → Bool) : Option (Nat × Txn) :=
  [false, true].findSome? (fun pod =>
    (lowestTxn ((s.unsent d pod).filter (fun x => among x.2))).filter (fun x => now x.2))

/-- The record of a launch. -/
def State.recordOf (s : State) (lid : Nat) : LaunchRec := ((s.launch? lid).map (·.record)).getD LaunchRec.blank

/-! Landing (R174). -/

/-- The set of a transaction whose slots are known: its keys with their modes, staging need and alignment (R273, R274). -/
def State.setOfSlots (s : State) (slots : Vector (Option SetSlot) 16) : TxSet :=
  s.setOf (slots.toList.zipIdx.filterMap (fun e => e.1.map (fun k => (e.2, k.key, k.write))))

/-- The home cluster, within the sequencer's die (R174): beside the slice of the first write tile, else of the first read tile, else
RN mod 32. -/
def State.homeCluster (s : State) (x : Txn) : Nat :=
  let l := x.slots.toList.filterMap id
  match (l.find? (·.write)).orElse (fun _ => l.head?) with
  | some k => s.keySlice k.key % 32
  | none => x.rn % 32

/-- Where a core would put a staging area of a launch, if it can take a landing: its resident launch is this one or none, a thread is
free, and the area fits (R174, R274). -/
def State.landingRoom (s : State) (lid c need al : Nat) : Option Nat :=
  if (s.freeSlots c lid).isEmpty then none
  else
    let s := if (s.core c).resident = some lid then s else s.applySplit c
    s.stagingRoom c need al

/-- The first slot of the die that can hold the second copy of a landing, with room for its staging area (R174, R408). -/
def State.landingPartner (s : State) (lid : Nat) (t : Tid) (need al : Nat) : Option Tid :=
  ((tabulate 256 (fun c => t.die * 256 + c)).flatMap (fun c => if (s.landingRoom lid c need al).isSome then s.freeSlots c lid else [])).find?
    (fun p => pairOk t p)

/-- The slots of the first cluster, from the home cluster on in ring order, that can take a landing (R174), with its second copy when the
launch is paired (R408). -/
def State.landingSlots (s : State) (lid d home need al : Nat) : List Tid :=
  let i := (ringOrder.findIdx? (· == home)).getD 0
  let clusters := tabulate 32 (fun j => ringOrder.getD ((i + j) % 32) 0)
  let slots := fun (k : Nat) => ((coresOfCluster k).map (fun c => d * 256 + c)).flatMap (fun c =>
    if (s.landingRoom lid c need al).isSome then
      (s.freeSlots c lid).filter (fun t => !(s.recordOf lid).paired || (s.landingPartner lid t need al).isSome)
    else [])
  ((clusters.map slots).find? (fun l => !l.isEmpty)).getD []

/-- The transaction whose pass a sequencer binds next, if it is of a reconnaissance launch (R276, R289). -/
def State.passTarget (s : State) (d : Nat) : Option (Nat × Txn) :=
  (s.seqTarget d (fun x => x.state == .numbered && !x.passed) (fun _ => true)).filter (fun e => (s.recordOf e.1).isRecon)
/-- The transaction that a sequencer reserves for next (R276, step 2). -/
def State.reserveTarget (s : State) (d : Nat) : Option (Nat × Txn) :=
  s.seqTarget d (fun x => x.state != .reserved) (fun x => x.passed && x.state == .numbered)
/-- The slots on which a pass can be bound now. -/
def State.passSlots (s : State) (lid d : Nat) (x : Txn) : List Tid := s.landingSlots lid d (x.rn % 32) 0 1
/-- The slots on which a transaction can land now. -/
def State.reserveSlots (s : State) (lid d : Nat) (x : Txn) : List Tid :=
  let set := s.setOfSlots x.slots
  s.landingSlots lid d (s.homeCluster x) set.need set.align

/-- A transaction has its stack region, or there is a free one (R166). -/
def State.hasRegion (s : State) (lid : Nat) (x : Txn) : Bool :=
  x.region.isSome || (match s.launch? lid with | some l => (s.stackFor l).isSome | none => false)

/-- A transaction launch can bind work now: a sequencer whose next transaction is one of it finds a landing, and for a pass a stack region
(R166, R171, R276). -/
def State.canLand (s : State) (lid : Nat) : Bool :=
  s.presentDies.any (fun d =>
    (match s.passTarget d with | some (k, x) => k == lid && s.hasRegion lid x && !(s.passSlots lid d x).isEmpty | none => false)
      || (match s.reserveTarget d with | some (k, x) => k == lid && !(s.reserveSlots lid d x).isEmpty | none => false))

end Sys2Proof.Machine
end

