-- ==== Sys2Proof/Machine/Parallel.lean ====
section
/-! DEFINITION. Parallel work: barriers (R176 to R179, R186 to R189), domain queries (R190), sleep and wake (R191), the release
step (R192), and the vector register pool (R180 to R182, R193 to R195). -/

namespace Sys2Proof.Machine

/-! Barriers. -/

/-- The barrier group of a thread's slice (R163). -/
def Thread.group (t : Thread) : Nat := if t.bind.dgrp = 0 then 0 else t.bind.unit / t.bind.dgrp

/-- A launch's barrier group. -/
def Launch.group (l : Launch) (g : Nat) : Group := (Assoc.find g l.groups).getD ⟨[], [], 0⟩

/-- M of a released generation (R177), or none while it has not released. -/
def State.releasedM (s : State) (lid g k : Nat) : Option (BitVec 5) :=
  match s.launch? lid with
  | some l => ((l.group g).released.find? (fun r => r.1 == k)).map Prod.snd
  | none => none

/-- Arrive at a slice's next barrier generation (R176 to R178): its number, with FPF captured, after a release at the level's
scope. -/
def State.arrive (s : State) (tid : Tid) : State × Nat :=
  let t := s.thread tid
  let k := t.barCount + 1
  let s := s.release tid.coreKey (levelScope t.bind.level)
  let s := s.upThread tid (fun x => { x with barCount := k })
  let s := s.upLaunch t.bind.lid (fun l =>
    { l with groups := Assoc.update t.group ⟨[], [], 0⟩ (fun g => { g with arrivals := g.arrivals ++ [(k, t.bind.unit, t.fpf)] }) l.groups })
  (s.post [.barrierRelease t.bind.lid t.group], k)

/-- The registers of a thread that leaves a barrier: M is merged, and no arrival stands (R177, R188). -/
def Thread.leftBarrier (t : Thread) (m : BitVec 5) : Thread := { t.orFlags m with barOut := none, barStand := none }

/-- A waiting thread leaves its barrier: flags, the acquire at the level's scope (R178), and it retires. -/
def State.leaveBarrier (s : State) (tid : Tid) (m : BitVec 5) : State :=
  let sc := levelScope (s.thread tid).bind.level
  let s := s.upThread tid (fun t => t.leftBarrier m)
  if 2 ≤ sc then (s.upThread tid (fun t => { t with status := .waiting .acquire })).askClocks tid
  else (s.acquireNear tid.coreKey sc).leaveWait tid id

/-- Wait for a generation, or leave at once when it has released and the core's delay has passed (R179). -/
def barrierWait (s : State) (k : Nat) (w : Wait) : Except Stop State :=
  match s.releasedM s.me.bind.lid s.me.group k with
  | some m =>
    if s.myCore.leaving.contains (s.me.bind.lid, s.me.group) then .error (.wait s w)
    else acquireLast (s.upMe (fun t => t.leftBarrier m)) (levelScope s.me.bind.level)
  | none => .error (.wait s w)

/-- BAR (R186): TXN_WAIT, BAR_SEQ; at D2 the quantum ends at the arrival; a standing arrival is not made again (R188). -/
def execBar (s : State) : Host.Outcome State Fault Refusal :=
  seq32 s (do
    need (!s.me.bind.txn) .TXN_WAIT
    need s.me.barOut.isNone .BAR_SEQ
    let s ← quantumFirst s
    match s.me.barStand with
    | some k => barrierWait s k (.bar k)
    | none =>
      let (s, k) := s.arrive s.cur
      let s := s.upMe (fun t => { t with barStand := some k })
      barrierWait s k (.bar k))

/-- BARARV (R187). -/
def execBararv (d : SReg) (s : State) : Host.Outcome State Fault Refusal :=
  seq32 s (do
    need (!s.me.bind.txn) .TXN_WAIT
    need s.me.barOut.isNone .BAR_SEQ
    let s ← quantumFirst s
    let (s, k) := s.arrive s.cur
    .ok (s.upMe (fun t => { t with barOut := some k }.ws d (BitVec.ofNat 64 (k % 2 ^ 32)))))

/-- BARWT (R187, R188). -/
def execBarwt (a : SReg) (s : State) : Host.Outcome State Fault Refusal :=
  seq32 s (do
    need (!s.me.bind.txn) .TXN_WAIT
    match s.me.barOut with
    | none => trap .BAR_SEQ
    | some k =>
      need (s.me.rs a == BitVec.ofNat 64 (k % 2 ^ 32)) .BAR_SEQ
      let s ← quantumFirst s
      barrierWait s k (.barwt k))

/-- Slices of a group in this package that have neither ended nor failed (R176, R415). -/
def Launch.liveIn (l : Launch) (g : Nat) : List Nat :=
  let span := l.record.groupSpan g
  (tabulate (span.2 - span.1) (fun i => span.1 + i)).filter (fun i => decide (l.share.1 ≤ i) && decide (i < l.share.2) &&
    match Assoc.find i l.units with
    | some .ended => false
    | some (.failed _) => false
    | _ => true)

/-- The generation a group releases next. -/
def Group.nextGen (g : Group) : Nat := g.released.length + 1

/-- The cores with a thread of a group. -/
def State.groupCores (s : State) (lid g : Nat) : List Nat :=
  (s.boundTids.filterMap (fun t =>
    let x := s.thread t
    if x.bind.lid = lid ∧ x.bind.txn = false ∧ x.group = g then some t.coreKey else none)).eraseDups

/-- The delay with which a release reaches a core (R179), in cycles of its die's clock. -/
def State.stagger (s : State) (level c : Nat) : Nat :=
  if level ≤ 1 then 0 else (s.die (c / 256)).bstep.toNat * ((32 * (c / 256) + clusterOf (c % 256)) % 288)

/-- One core's delay ends before another's, each on its own die's clock. -/
def State.soonerCore (s : State) (level a b : Nat) : Bool :=
  decide (s.stagger level a * (s.die (b / 256)).clock < s.stagger level b * (s.die (a / 256)).clock)

/-- Insert a core into a list in the order in which its delay ends. -/
def State.insertCore (s : State) (level c : Nat) : List Nat → List Nat
  | [] => [c]
  | x :: r => if s.soonerCore level c x then c :: x :: r else x :: s.insertCore level c r

/-- The release of a generation reaches the cores of its group: those without a delay at once and together, the others in the order in
which their delays, by the step in force now, end (R179, R192). The delays of one core are equal, so that the groups it waits for end
theirs in the order of their releases. -/
def State.reachCores (s : State) (lid g level : Nat) : State :=
  let cs := s.groupCores lid g
  let now := cs.filter (fun c => s.stagger level c == 0)
  let later := (cs.filter (fun c => s.stagger level c != 0)).foldl (fun l c => s.insertCore level c l) []
  let s := now.foldl (fun s c => s.upCore c (fun k => { k with leaving := (lid, g) :: k.leaving })) s
  let s := later.foldl (fun s c => s.upCore c (fun k => { k with leaving := k.leaving ++ [(lid, g)] })) s
  (s.urge (now.map .barrierLeave)).post (later.map .barrierLeave)

/-- A slice of a launch has failed. -/
def Launch.hasFailed (l : Launch) (i : Nat) : Bool := match Assoc.find i l.units with | some (.failed _) => true | _ => false

/-- Some slice of a group lies in another package of the gang. -/
def Launch.spread (l : Launch) (g : Nat) : Bool :=
  let span := l.record.groupSpan g
  decide (span.1 < l.share.1) || decide (l.share.2 < span.2)

/-- BARRIER_RELEASE (R176, R177): the next generation releases when every live slice of the group has arrived at it; M is the OR
of the captured flags, a failed slice's left out (R415). Those that a BARARV of a slice captured before the slice ended by HALT are
merged: R177 merges every captured value, R176 none of a slice that has ended (DESIGN CHOICE, log entry 76). The cores' threads then
leave (R179). Whether the slices of other
packages have arrived, and the flags they bring, is open (log entry 20). -/
def execBarrierRelease (lid grp : Nat) (s : State) : Host.Outcome State Fault Refusal :=
  match s.launch? lid with
  | none => noEvent s
  | some l =>
    let g := l.group grp
    let k := g.nextGen
    let here := g.arrivals.filter (fun a => a.1 == k)
    let far := l.spread grp
    if here.isEmpty || !(l.liveIn grp).all (fun i => here.any (fun a => a.2.1 == i)) then noEvent s
    else if far && !Config.chosen .farBrings s.fresh 0 then .next (s.post [.barrierRelease lid grp])
    else
      let brought := if far then BitVec.ofNat 5 (Config.pick (s.fresh + 3)) else 0
      let m := (here.filter (fun a => !l.hasFailed a.2.1)).foldl (fun (m : BitVec 5) a => m ||| a.2.2) brought
      let g' := { g with released := g.released ++ [(k, m)], arrivals := g.arrivals.filter (fun a => a.1 != k) }
      let s := s.setLaunch lid { l with groups := Assoc.put grp g' l.groups }
      .next ((s.reachCores lid grp l.record.level).post [.barrierRelease lid grp])

/-- The threads of a group on a core whose generation has released leave the barrier, and no other group's. -/
def State.leaveGroup (s : State) (core lid grp : Nat) : State :=
  (List.range 8).foldl (fun s n =>
    let t : Tid := ⟨core / 256, core % 256, n⟩
    let x := s.thread t
    let gen := match x.status with
      | .waiting (.bar k) => some k
      | .waiting (.barwt k) => some k
      | _ => none
    let gen := if x.bind.lid = lid ∧ x.bind.txn = false ∧ x.group = grp then gen else none
    match gen.bind (fun k => s.releasedM x.bind.lid x.group k) with
    | some m => s.leaveBarrier t m
    | none => s) s

/-- BARRIER_LEAVE (R179): the delay of a core has passed since the release of the first group that it waits for. -/
def execBarrierLeave (core : Nat) (s : State) : Host.Outcome State Fault Refusal :=
  match (s.core core).leaving with
  | [] => noEvent s
  | (lid, grp) :: r => .next ((s.upCore core (fun k => { k with leaving := r })).leaveGroup core lid grp)

/-- STAG (R192). -/
def execStag (a : SReg) (s : State) : Host.Outcome State Fault Refusal :=
  let v := s.me.rs a
  seq32 s (do
    needSup s
    need (decide (v.toNat ≤ 15)) .BAD_STEP
    .ok (s.upDie s.cur.die (fun d => { d with bstep := v.extractLsb' 0 4 })))

/-- The answer of a domain query (R190). -/
def State.domq (s : State) (tid : Tid) (sel : Nat) : Nat :=
  let t := s.thread tid
  let k := fun (x : Nat) => if t.bind.txn then 0 else x
  match sel with
  | 0 => t.bind.level
  | 1 => k t.group
  | 2 => k (t.bind.unit - t.group * t.bind.dgrp)
  | 3 => k t.bind.gsize
  | 4 => k t.barCount
  | 5 => s.instanceNum t.bind.level tid
  | 6 => k t.bind.dgrp
  | _ => 2 ^ 64 - 1

/-- DOMQ (R190). -/
def execDomq (d a : SReg) (s : State) : Host.Outcome State Fault Refusal :=
  seq32 s (.ok (s.upMe (fun t => t.ws d (BitVec.ofNat 64 (s.domq s.cur (s.me.rs a).toNat)))))

/-! Sleep and wake (R191). -/

/-- SLEEP: a set wake bit is cleared and the thread goes on; else it sleeps. At D2 the quantum ends first (R229). -/
def execSleep (a : SReg) (s : State) : Host.Outcome State Fault Refusal :=
  let _ := s.me.rs a
  seq32 s (do
    need (!s.me.bind.txn) .TXN_WAIT
    let s ← quantumFirst s
    if s.me.wake then .ok (s.upMe (fun t => { t with wake := false })) else .error (.wait s .sleep))

/-- Wake a thread: its bit is set; a sleeping one clears it and goes on, unless the limit on retired instructions stops it, with the
bit set (R382). -/
def State.wakeThread (s : State) (t : Tid) : State :=
  let awake := fun (b : Bool) (s : State) => s.upThread t (fun x => { x with wake := b })
  match (s.thread t).status with
  | .waiting .sleep => (awake true s).endWait t (awake false)
  | .free => s
  | .reserved => s
  | _ => awake true s

/-- WAKE (R191). -/
def execWake (a : SReg) (s : State) : Host.Outcome State Fault Refusal :=
  seq32 s (.ok (s.wakeThread ⟨s.cur.die, s.cur.core, field (s.me.rs a) 0 3⟩))

/-- SLEEP_TIMEOUT (R191): the time limit has passed. -/
def execSleepTimeout (t : Tid) (s : State) : Host.Outcome State Fault Refusal :=
  match (s.thread t).status with
  | .waiting .sleep => .next (s.endWait t id)
  | _ => noEvent s

/-! The register pool. -/

/-- The slots a 7-bit map names. -/
def slotsOf (m : BitVec 7) : List Nat := (List.range 7).filter (fun i => m.getLsbD i)

/-- Give a zeroed block to every named slot. -/
def Thread.takeBlocks (t : Thread) (m : BitVec 7) : Thread :=
  { t with slots := (slotsOf m).foldl (fun v i => v.setIfInBounds i (some (Vector.replicate 4 0))) t.slots }

/-- Blocks leave a core's shared part. -/
def State.useBlocks (s : State) (c n : Nat) : State := s.upCore c (fun k => { k with freeBlocks := k.freeBlocks - n })

/-- The faults of a claim (R193), then the end of the D2 quantum: an instruction's own faults come first (DESIGN CHOICE, log entry 60). -/
def vrStart (s : State) (slots : BitVec 7) : Except Stop State := do
  need ((slotsOf slots).all (fun i => (s.me.slots.toList.getD i none).isNone)) .VSLOT_FULL
  need (decide (popcount slots ≤ 48 - 8 * s.me.bind.reserve)) .VR_EXCEED
  quantumFirst s

/-- A claim of n blocks is granted in the cycle in which it is made: no claim waits, and its blocks are free (R181). -/
def Core.grantsNow (c : Core) (n : Nat) : Bool := c.fifo.isEmpty && decide (n ≤ c.freeBlocks)

/-- A resumer stands at the head of a core's FIFO: whether the last taker is to be pre-empted is looked at (R182). -/
def State.resumerEvents (s : State) (c : Nat) : State :=
  match (s.core c).fifo with
  | k :: _ => if k.resumer then s.post [.vrResumerPreempt c] else s
  | [] => s

/-- A claim is granted at once when no claim waits and its blocks are free; else it enters the FIFO (R181, R182). -/
def vrClaim (s : State) (slots : BitVec 7) (granted : Thread → Thread) (w : Wait) : Except Stop State :=
  let n := popcount slots
  if s.myCore.grantsNow n then
    .ok ((s.useBlocks s.cur.coreKey n).upMe (fun t => granted (t.takeBlocks slots)))
  else .error (.wait ((s.upMyCore (fun k => { k with fifo := k.fifo ++ [⟨s.cur.tnum, n, false⟩] })).resumerEvents s.cur.coreKey) w)

/-- VRTAKE (R193). -/
def execVrtake (slots : BitVec 7) (s : State) : Host.Outcome State Fault Refusal :=
  seq32 s (do
    let s ← vrStart s slots
    vrClaim s slots id (.vrtake slots))

/-- VRTAKET (R193): the limit in s[a] is a number of cycles, whose end VRTAKET_TIMEOUT is; with 0 the claim succeeds only if it is
granted when it is made. -/
def execVrtaket (pd : PReg) (a : SReg) (slots : BitVec 7) (s : State) : Host.Outcome State Fault Refusal :=
  seq32 s (do
    let s ← vrStart s slots
    if s.me.rs a = 0 ∧ s.myCore.grantsNow (popcount slots) = false then .ok (s.upMe (fun t => t.wp pd true))
    else vrClaim s slots (fun t => t.wp pd false) (.vrtaket pd slots))

/-- Grant the claim at the head of a core's FIFO. -/
def State.grantClaim (s : State) (c : Nat) (k : VrClaim) : State :=
  let tid : Tid := ⟨c / 256, c % 256, k.tnum⟩
  let s := (s.upCore c (fun x => { x with fifo := x.fifo.drop 1 })).useBlocks c k.blocks
  match (s.thread tid).status with
  | .waiting (.vrtake m) => s.leaveWait tid (fun t => t.takeBlocks m)
  | .waiting (.vrtaket pd m) => s.leaveWait tid (fun t => (t.takeBlocks m).wp pd false)
  | .waiting .resumer => startResumed s tid
  | _ => s
where
  /-- A resumer's claim is granted: its stub or continuation begins after an acquire (R181, R387); a pending JOBERR is raised at a
  continuation without a stub (R385). -/
  startResumed (s : State) (tid : Tid) : State :=
    let t := s.thread tid
    let s := s.acquireNow tid.coreKey (if t.d2 then t.d2Scope else levelScope t.bind.level)
    let s := s.setThread tid { t with status := .ready }
    if t.rebuild.isNone && t.joberr != 0 then
      let f : Freeze := ⟨t.jobCause, 0, zext64 (t.joberr.extractLsb' 8 16), 0⟩
      (s.setThread tid { t with joberr := 0, status := .ready }).freeze tid f
    else s

/-- Serve a FIFO from the head for as long as the head fits, by fuel. -/
def State.serveFifo (c : Nat) : Nat → State → State
  | 0, s => s
  | n + 1, s =>
    match (s.core c).fifo with
    | k :: _ => if k.blocks ≤ (s.core c).freeBlocks then State.serveFifo c n (s.grantClaim c k) else s
    | [] => s

/-- VR_CLAIM_GRANT (R181). -/
def execVrClaimGrant (core : Nat) (s : State) : Host.Outcome State Fault Refusal :=
  .next ((State.serveFifo core 9 s).resumerEvents core)

/-- A thread of a core that holds shared blocks and is not blocked in VRTAKE. -/
def State.holdsFreely (s : State) (t : Tid) : Bool :=
  let x := s.thread t
  x.status != .free && decide (0 < x.sharedBlocks) && (match x.status with | .waiting (.vrtake _) => false | .waiting .resumer => false | _ => true)

/-- VR_RESUMER_PREEMPT (R182): a resumer stands at the head and every other holder of shared blocks is blocked in VRTAKE; the taker
that entered the FIFO last is pre-empted. -/
def execVrResumerPreempt (core : Nat) (s : State) : Host.Outcome State Fault Refusal :=
  let tid := fun (n : Nat) => (⟨core / 256, core % 256, n⟩ : Tid)
  match (s.core core).fifo with
  | k :: r =>
    if !k.resumer || decide (k.blocks ≤ (s.core core).freeBlocks) || (List.range 8).any (fun n => n != k.tnum && s.holdsFreely (tid n)) then
      noEvent s
    else
      match r.reverse.find? (fun x => !x.resumer && decide (0 < (s.thread (tid x.tnum)).sharedBlocks)) with
      | some x => .next (s.askPreempt (tid x.tnum))
      | none => noEvent s
  | [] => noEvent s

/-- VRTAKET_TIMEOUT (R193): the FIFO is served first; a claim still waiting leaves it, and p[d] is true. -/
def execVrtaketTimeout (t : Tid) (s : State) : Host.Outcome State Fault Refusal :=
  let s := State.serveFifo t.coreKey 9 s
  match (s.thread t).status with
  | .waiting (.vrtaket pd _) =>
    let s := s.upCore t.coreKey (fun k => { k with fifo := k.fifo.filter (fun x => x.tnum != t.tnum) })
    .next (State.serveFifo t.coreKey 9 (s.leaveWait t (fun x => x.wp pd true)))
  | _ => .next s

/-- VRGIVE (R194): every older instruction is complete, and no job reads a slot after its submission (R313). -/
def execVrgive (slots : BitVec 7) (s : State) : Host.Outcome State Fault Refusal :=
  let l := slotsOf slots
  seq32 s (do
    need (l.all (fun i => (s.me.slots.toList.getD i none).isSome)) .VSLOT_EMPTY
    need (l.all (fun i => decide (s.me.bind.reserve ≤ i))) .VR_RESERVE
    let s := s.upMe (fun t => { t with slots := l.foldl (fun v i => v.setIfInBounds i none) t.slots })
    .ok (s.giveBlocks s.cur.coreKey l.length))

/-- VRQUERY (R195). -/
def execVrquery (d : SReg) (s : State) : Host.Outcome State Fault Refusal :=
  let c := s.myCore
  seq32 s (.ok (s.upMe (fun t => t.ws d (BitVec.ofNat 64
    (t.slotMap + 2 ^ 10 * c.freeBlocks + 2 ^ 16 * c.fifo.length + 2 ^ 22 * t.bind.reserve)))))

end Sys2Proof.Machine
end

