-- ==== Sys2Proof/Machine/Place.lean ====
section
/-! DEFINITION. Kernel placement: priorities (R170, R171), where a group can be bound (R163, R166, R172, R174, R184, R400), binding
it (R28, R172, R184), stealing (R173), and the re-run of a failed slice (R416). -/

namespace Sys2Proof.Machine

/-! Priorities (R170). -/

/-- The effective priority of a launch: its own, its aged level, and what its WAITING successors donate, transitively, by fuel. -/
def State.prioFrom (s : State) : Nat → Nat → Nat
  | 0, _ => 0
  | n + 1, lid =>
    match s.launch? lid with
    | none => 0
    | some l =>
      let own := Nat.max (field l.record.ctl 12 3) l.aged
      l.succs.foldl (fun m x =>
        match s.launch? x with
        | some d => if d.state = .waiting then Nat.max m (s.prioFrom n x) else m
        | none => m) own
/-- Effective priority. -/
def State.prio (s : State) (lid : Nat) : Nat := s.prioFrom (s.pkg.launches.length + 1) lid
/-- A launch comes before another in the order of binding (R171). -/
def State.before (s : State) (a b : Nat) : Bool := decide (s.prio b < s.prio a) || (s.prio a == s.prio b && decide (a < b))

/-! Unbound work (R172). -/

/-- Remove units a to b − 1 from ranges. -/
def cutRanges (rs : List (Nat × Nat × Nat)) (a b : Nat) : List (Nat × Nat × Nat) :=
  rs.flatMap (fun r =>
    let lo := r.2.1
    let hi := r.2.2
    (if lo < Nat.min hi a then [(r.1, lo, Nat.min hi a)] else []) ++ (if Nat.max lo b < hi then [(r.1, Nat.max lo b, hi)] else []))

/-- The lowest unbound unit of a die. -/
def Launch.firstUnit (l : Launch) (d : Nat) : Option Nat :=
  (l.ranges.filter (fun r => r.1 == d)).foldl (fun m r => match m with
    | none => some r.2.1
    | some u => some (Nat.min u r.2.1)) none
/-- The die whose range holds a unit. -/
def Launch.unitDie (l : Launch) (u : Nat) : Option Nat :=
  (l.ranges.find? (fun r => decide (r.2.1 ≤ u) && decide (u < r.2.2))).map Prod.fst
/-- The number of unbound units of a die. -/
def Launch.unitsLeft (l : Launch) (d : Nat) : Nat :=
  ((l.ranges.filter (fun r => r.1 == d)).map (fun r => r.2.2 - r.2.1)).foldl (· + ·) 0

/-- The slices of a group that this package binds. -/
def Launch.ownSlices (l : Launch) (g : Nat) : List Nat :=
  let span := l.record.groupSpan g
  (tabulate (span.2 - span.1) (fun i => span.1 + i)).filter (fun i => decide (l.share.1 ≤ i) && decide (i < l.share.2))

/-! Where a group can be bound. -/

/-- The understudy of a core (R400): the next core in service in its cluster, else the first core in service of the following
clusters in ring order. -/
def State.understudy (s : State) (c : Nat) : Option Nat :=
  let d := c / 256
  let mates := coresOfCluster (clusterOf (c % 256))
  let p := cposOf (c % 256)
  let near := (tabulate 7 (fun i => mates.getD ((p + 1 + i) % 8) 0))
  let i := (ringOrder.findIdx? (· == clusterOf (c % 256))).getD 0
  let far := (tabulate 31 (fun j => ringOrder.getD ((i + 1 + j) % 32) 0)).flatMap coresOfCluster
  ((near ++ far).map (fun k => d * 256 + k)).find? s.coreUp

/-- The slots on which a replay may bind a slice (R184), of those that count as free: its traced unit, once the slices before it in the
unit's queue have ended; the understudy's slots when the unit's core is out of service. That the rest of a queue goes back to its unit,
once that is in service again, is DESIGN CHOICE (log entry 87). -/
def State.tracedSlots (s : State) (free : Nat → List Tid) (l : Launch) (slice : Nat) : List Tid :=
  match l.trace.findIdx? (fun e => field e 0 32 == slice) with
  | none => []
  | some i =>
    let u := traceTid (l.trace.getD i 0)
    let ready := (l.trace.take i).all (fun e => traceTid e != u || (match Assoc.find (field e 0 32) l.units with
      | some .ended => true
      | some (.failed _) => true
      | _ => false))
    if !ready then []
    else if s.coreUp u.coreKey then (free u.coreKey).filter (· == u)
    else match s.understudy u.coreKey with | some c => free c | none => []

/-- A stack region is free for n more slices (R166). -/
def State.regionsFor (s : State) (l : Launch) (n : Nat) : Bool :=
  l.record.stksz == 0 || decide (l.regions.length + n ≤ s.stackRegions l.record)

/-- A slot for each slice of a group, of those allowed to it, and one for its second copy when the launch is paired (R408), all distinct and
among those given; none when there is no such choice. -/
def placeGroup (paired : Bool) : List (Nat × List Tid) → List Tid → Option (List (Tid × Option Tid))
  | [], _ => some []
  | x :: r, free => (x.2.filter free.contains).findSome? (fun t =>
    if paired then (free.filter (pairOk t)).findSome? (fun p =>
      (placeGroup paired r (free.filter (fun u => u != t && u != p))).map ((t, some p) :: ·))
    else (placeGroup paired r (free.filter (· != t))).map ((t, none) :: ·))

/-- The package-wide cores of the part. -/
def State.allCores (s : State) : List Nat := s.presentDies.flatMap (fun d => tabulate 256 (fun c => d * 256 + c))

/-- The slices of a group with the slots allowed to each in one domain instance, if it can take the group whole on the slots that count as
free: a group is never split across instances (R163), so that a traced group that would be is never bound (log entry 61). At levels 4
and 5 the instance is the package, or this package's part of the pod, and a slice goes to the die that holds it (R172). -/
def State.placesIn (s : State) (free : Nat → List Tid) (l : Launch) (slices cores : List Nat) : Option (List (Nat × List Tid)) :=
  let own := cores.flatMap free
  let m := slices.map (fun i =>
    if l.record.replays then (i, (s.tracedSlots free l i).filter (fun t => cores.contains t.coreKey))
    else if l.record.level ≤ 3 then (i, own)
    else (i, own.filter (fun t => l.unitDie i == some t.die)))
  if decide (slices.length ≤ own.length) && (placeGroup l.record.paired m (s.allCores.flatMap free)).isSome then some m else none

/-- The domain instances of a launch's level on some dies, in ascending instance number. -/
def State.instancesFor (s : State) (level : Nat) (dies : List Nat) : List (List Nat) :=
  if level ≤ 3 then dies.flatMap (instancesOn level) else [s.allCores]

/-- Where the slots for a group are, whether or not it has stack regions: in the first instance that can take it whole, on the die that
holds it, and for a replay on any. At levels 4 and 5 it must be the next group of every die that holds a slice of it (R172). -/
def State.groupPlaces (s : State) (lid : Nat) (l : Launch) (g : Nat) : Option (List (Nat × List Tid)) :=
  let slices := l.ownSlices g
  let dies := if l.record.replays then s.presentDies else (l.unitDie g).toList
  let next := fun i => ((l.unitDie i).bind l.firstUnit).map l.record.groupOf == some g
  if slices.isEmpty || !(l.record.replays || decide (l.record.level ≤ 3) || slices.all next) then none
  else (s.instancesFor l.record.level dies).findSome? (s.placesIn (fun c => s.freeSlots c lid) l slices)

/-- Where each slice of a group can go, whatever else waits: the slices with the slots allowed to each; none when the group cannot
be bound whole now. -/
def State.groupSlots (s : State) (lid : Nat) (l : Launch) (g : Nat) : Option (List (Nat × List Tid)) :=
  if s.regionsFor l (l.ownSlices g).length then s.groupPlaces lid l g else none

/-- The groups of a die in the order of their units, the lowest alone but for a replay, which binds out of order (R172, R184). -/
def Launch.groupsOf (l : Launch) (d : Nat) : List Nat :=
  let groupOfUnit := fun u => if l.record.level ≤ 3 then u else l.record.groupOf u
  if l.record.replays then
    (l.ranges.filter (fun r => r.1 == d)).flatMap (fun r => tabulate (r.2.2 - r.2.1) (fun i => groupOfUnit (r.2.1 + i)))
  else ((l.firstUnit d).map groupOfUnit).toList

/-- The group a die binds next (R172): its lowest; in a replay, the lowest that its units can take. -/
def State.nextGroup (s : State) (lid : Nat) (l : Launch) (d : Nat) : Option Nat :=
  if l.record.replays then (l.groupsOf d).find? (fun g => (s.groupSlots lid l g).isSome) else (l.groupsOf d).head?

/-- A READY kernel launch that has passed its gang's START, if it is a gang (R449). -/
def Launch.bindable (l : Launch) : Bool :=
  l.state == .ready && l.killed.isNone && !l.record.isTxn && (!l.record.gangBit || l.gang == 2)

/-- A launch can bind a group, or one of its transactions can land, somewhere now. -/
def State.canBind (s : State) (lid : Nat) (l : Launch) : Bool :=
  if l.record.isTxn then l.state == .ready && l.killed.isNone && s.canLand lid
  else l.bindable && s.presentDies.any (fun d => match s.nextGroup lid l d with
    | some g => (s.groupSlots lid l g).isSome
    | none => false)

/-- No launch that comes before this one in the order of R171 can bind. -/
def State.firstInLine (s : State) (lid : Nat) : Bool :=
  s.pkg.launches.all (fun e => !(s.before e.1 lid && s.canBind e.1 e.2))

/-! Binding. -/

/-- Record a slice's first binding in the launch's dispatch trace (R184), in the order of binding. -/
def State.recordTrace (s : State) (lid slice : Nat) (t : Tid) : State :=
  match s.launch? lid with
  | none => s
  | some l =>
    if !l.record.records then s
    else
      let e := traceEntry slice t
      let va := l.record.trva.toNat + 8 * l.trace.length
      let s := s.setLaunch lid { l with trace := l.trace ++ [e] }
      match s.grant l.asid va .write (!l.record.supBit) with
      | .ok (s, g) =>
        let h := s.sliceDie (s.home (some l.asid) va g.tbl g.pline)
        s.homeWrite t.die h (cellsAt (g.pline * 256 + va % 256) (leBytes 8 e.toNat))
      | .error _ => s

/-- Bind one slice to a slot, and its second copy to another when the launch is paired (R28, R166, R408). -/
def State.bindSlice (s : State) (lid slice : Nat) (t : Tid) (partner : Option Tid) : State :=
  match s.launch? lid with
  | none => s
  | some l =>
    let region := (s.stackFor l).join
    let s := s.seat t (s.freshThread lid l slice region none)
    let s := match partner with | some p => s.seatShadow t p | none => s
    s.upLaunch lid (fun l => { l with
      units := Assoc.put slice (.bound t) l.units
      regions := match region with | some j => insertNat j l.regions | none => l.regions })

/-- Bind the slices of a group to the slots chosen for them: R172, with the trace of R184. -/
def State.bindGroup (s : State) (lid : Nat) : List (Nat × Tid × Option Tid) → State
  | [] => s
  | (slice, t, p) :: r => ((s.bindSlice lid slice t p).recordTrace lid slice t).bindGroup lid r

/-- The slots chosen for a group are allowed, distinct, and, for a paired launch, followed by as many for the second copies. -/
def State.chosenOk (s : State) (lid : Nat) (paired : Bool) (m : List (Nat × List Tid)) (ts : List Tid) : Bool :=
  let lead := ts.take m.length
  let part := ts.drop m.length
  decide (ts.eraseDups.length = ts.length) && decide (lead.length = m.length)
    && (m.zip lead).all (fun x => x.1.2.contains x.2)
    && (if paired then decide (part.length = m.length) &&
          (lead.zip part).all (fun x => pairOk x.1 x.2 && (s.freeSlots x.2.coreKey lid).contains x.2)
        else part.isEmpty)

/-- Dies of slots whose compute island is gated (R458, R459). -/
def State.gatedOf (s : State) (ts : List Tid) : List Nat := ((ts.map (·.die)).eraseDups).filter (fun d => (s.die d).gated)

/-- A launch that found no available cluster when it became READY. -/
def Launch.undivided (l : Launch) : Bool :=
  l.bindable && l.ranges.isEmpty && decide (l.units.isEmpty) && decide (l.share.1 < l.share.2)

/-- The slices that ranges span: first, past last. -/
def spanOf : List (Nat × Nat × Nat) → Nat × Nat
  | [] => (0, 0)
  | x :: r => (x.2.1, r.foldl (fun m y => Nat.max m y.2.2) x.2.2)
/-- A division takes effect; a gang member's share is what its own dies receive (R449). -/
def Launch.takeRanges (l : Launch) (rs : List (Nat × Nat × Nat)) : Launch :=
  { l with ranges := rs, share := if l.record.gangBit then spanOf rs else l.share }

/-- The divisions that found no available cluster are made at the first later moment at which there is one (R172). -/
def State.lateDivisions (s : State) : State :=
  s.pkg.launches.foldl (fun s e =>
    let rs := s.divide e.2.record.divided e.2.gangLo.2 e.2.gangHi.2
    if e.2.undivided && !rs.isEmpty then s.upLaunch e.1 (fun l => l.takeRanges rs) else s) s

/-- SLICE_BIND (R172): the next group of a die binds whole to the threads named, when no launch before it in priority can bind. A
gated island is powered first, and the binding waits for it (R459). Whether the other packages of a gang can bind their slices
of the group is open (log entry 20). -/
def execSliceBind (lid die : Nat) (threads : List Tid) (s : State) : Host.Outcome State Fault Refusal :=
  match s.launch? lid with
  | none => noEvent s
  | some l =>
    match if l.bindable && s.firstInLine lid then s.nextGroup lid l die else none with
    | none => noEvent s
    | some g =>
      match s.groupSlots lid l g with
      | none => noEvent s
      | some m =>
        if !s.chosenOk lid l.record.paired m threads then noEvent s
        else if l.spread g && !Config.chosen .farBrings s.fresh 0 then noEvent s
        else if !(s.gatedOf threads).isEmpty then
          .next (s.post ((s.gatedOf threads).map .islandPowerUp ++ [.sliceBind lid die threads]))
        else
          let lead := threads.take m.length
          let part := threads.drop m.length
          let rows := (m.zip lead).mapIdx (fun i x => (x.1.1, x.2, part[i]?))
          let s := s.bindGroup lid rows
          let units := if l.record.level ≤ 3 then [g] else m.map Prod.fst
          let s := s.upLaunch lid (fun l => { l with
            ranges := units.foldl (fun rs u => cutRanges rs u (u + 1)) l.ranges
            starvedAt := s.pkg.lastLid })
          .next (s.checkRunning lid)

/-! Stealing (R173). -/

/-- Take the upper n units of a die from its ranges, the highest first: the units taken, as ranges of the thief. -/
def takeUpper (thief : Nat) : List (Nat × Nat × Nat) → Nat → List (Nat × Nat × Nat) × List (Nat × Nat × Nat)
  | [], _ => ([], [])
  | (d, lo, hi) :: r, n =>
    if n = 0 then ((d, lo, hi) :: r, [])
    else if hi - lo ≤ n then
      let x := takeUpper thief r (n - (hi - lo))
      (x.1, (thief, lo, hi) :: x.2)
    else ((d, lo, hi - n) :: r, [(thief, hi - n, hi)])

/-- Insert a range in the order of its units, highest first. -/
def insertRange (x : Nat × Nat × Nat) : List (Nat × Nat × Nat) → List (Nat × Nat × Nat)
  | [] => [x]
  | y :: r => if y.2.1 < x.2.1 then x :: y :: r else y :: insertRange x r

/-- WORK_STEAL (R173): a die with nothing left unbound takes the upper half of the die with the most unbound units, if that has two
or more; a replay steals nothing. -/
def execWorkSteal (lid thief : Nat) (s : State) : Host.Outcome State Fault Refusal :=
  match s.launch? lid with
  | none => noEvent s
  | some l =>
    let victim := s.presentDies.foldl (fun b d => if l.unitsLeft b < l.unitsLeft d then d else b) (s.presentDies.headD 0)
    let n := l.unitsLeft victim
    if !l.bindable || l.record.replays || !s.presentDies.contains thief || l.unitsLeft thief != 0 || decide (n < 2) then noEvent s
    else
      let theirs := (l.ranges.filter (fun r => r.1 == victim)).foldl (fun a r => insertRange r a) []
      let x := takeUpper thief theirs (n / 2)
      .next (s.setLaunch lid { l with ranges := l.ranges.filter (fun r => r.1 != victim) ++ x.1.reverse ++ x.2.reverse })

/-! Re-runs (R416). -/

/-- The failed slice of a group that is re-run next: fewest re-runs first, then the lowest index. -/
def Launch.rerunNext (l : Launch) (g : Nat) : Option Nat :=
  let runs := fun i => (Assoc.find i l.reruns).getD 0
  ((l.ownSlices g).filter (fun i => match Assoc.find i l.units with | some (.failed _) => l.rerunnable i | _ => false)).foldl
    (fun b i => match b with
      | none => some i
      | some x => if runs i < runs x then some i else some x) none

/-- RESTART_RERUN (R416): once every other slice of its group is over, and holds no slot, a failed slice is bound again, alone, from
the state of R28; its barriers and rounds count from the start. -/
def execRestartRerun (lid idx : Nat) (t : Tid) (s : State) : Host.Outcome State Fault Refusal :=
  match s.launch? lid with
  | none => noEvent s
  | some l =>
    let g := l.record.groupOf idx
    if l.state.final || l.killed.isSome || l.gang == 3 || l.rerunNext g != some idx || !(l.liveIn g).isEmpty || !(s.freeSlots t.coreKey lid).contains t
        || !s.regionsFor l 1 || (s.threadsOf lid).any (fun x => l.record.groupOf (s.thread x).bind.unit == g) then noEvent s
    else if !(s.gatedOf [t]).isEmpty then .next (s.post ((s.gatedOf [t]).map .islandPowerUp ++ [.restartRerun lid idx t]))
    else
      let partner := if l.record.paired then s.partnerFor lid t else none
      if l.record.paired && partner.isNone then noEvent s
      else
        let s := s.setLaunch lid { l with
          reruns := Assoc.put idx ((Assoc.find idx l.reruns).getD 0 + 1) l.reruns
          groups := Assoc.put g ⟨[], [], 0⟩ l.groups }
        .next (s.bindSlice lid idx t partner)

/-! Priority pre-emption (R171). -/

/-- The slots of a core that a launch would find free once the kernel threads of launches at least two levels below it had gone. -/
def State.slotsWithout (s : State) (lid c : Nat) : List Tid :=
  let ts := (List.range 8).map (fun n => (⟨c / 256, c % 256, n⟩ : Tid))
  let held := ts.filter (fun t => (s.thread t).status != .free)
  if s.coreUp c && held.all (fun t => (s.thread t).bind.lid != lid && !(s.thread t).bind.txn && (s.thread t).status != .reserved
      && decide (s.prio (s.thread t).bind.lid + 2 ≤ s.prio lid)) then ts
  else s.freeSlots c lid

/-- The slices of a launch's lowest unbound group for each die that must bind some of it. -/
def Launch.lowestGroup (l : Launch) : Option (Nat × Nat) :=
  (l.ranges.map (fun r => (r.2.1, r.1))).foldl (fun b x => match b with
    | none => some x
    | some y => if x.1 < y.1 then some x else some y) none

/-- The instance chosen for the pre-emption requests of R171: first on the die of the group, then on the others in ascending id. -/
def State.starvedInstance (s : State) (lid : Nat) (l : Launch) : Option (List Nat) :=
  match l.lowestGroup with
  | none => none
  | some (u, d) =>
    let slices := l.ownSlices (if l.record.level ≤ 3 then u else l.record.groupOf u)
    (s.instancesFor l.record.level (d :: s.presentDies.filter (· != d))).find? (fun cores =>
      (s.placesIn (fun c => if cores.contains c then s.slotsWithout lid c else s.freeSlots c lid) l slices cores).isSome)

/-- A launch lacks threads, not only stack regions (R166): no group that a die may bind now finds its slots. -/
def State.lacksThreads (s : State) (lid : Nat) (l : Launch) : Bool :=
  s.presentDies.all (fun d => (l.groupsOf d).all (fun g => (s.groupPlaces lid l g).isNone))

/-- PRIORITY_PREEMPTION (R171): a launch that has been unable to bind for AGEQ.N launch ids while lower ones hold threads it needs asks
for the threads of one instance; N = 0 never does. A transaction launch has no group to place, and never asks: the spec describes
the choice by groups alone (DESIGN CHOICE, log entry 75). -/
def execPriorityPreemption (lid : Nat) (s : State) : Host.Outcome State Fault Refusal :=
  match s.launch? lid with
  | none => noEvent s
  | some l =>
    if !l.bindable || !l.unbound || s.pkg.ageq == 0 then noEvent s
    else
      let lower := s.boundTids.filter (fun t =>
        let x := s.thread t
        !x.bind.txn && x.bind.lid != lid && decide (s.prio x.bind.lid + 2 ≤ s.prio lid))
      if s.canBind lid l || !s.lacksThreads lid l || lower.isEmpty then .next (s.setLaunch lid { l with starvedAt := s.pkg.lastLid })
      else if s.pkg.lastLid - l.starvedAt < s.pkg.ageq.toNat then noEvent s
      else
        let s := s.setLaunch lid { l with starvedAt := s.pkg.lastLid }
        match s.starvedInstance lid l with
        | none => .next s
        | some cores => .next ((lower.filter (fun t => cores.contains t.coreKey)).foldl (fun s t => s.askPreempt t) s)

/-! What the scheduler may do now. -/

/-- Slots for a group and its second copies, in an order the spec leaves open: the leaders, then the second copies. -/
def State.chooseSlots (s : State) (lid k : Nat) (paired : Bool) (m : List (Nat × List Tid)) : List Tid :=
  let turn := fun (ts : List Tid) => ts.rotateLeft (k % (ts.length + 1))
  let rows := (placeGroup paired (m.map (fun x => (x.1, turn x.2))) (turn (s.allCores.flatMap (fun c => s.freeSlots c lid)))).getD []
  rows.map Prod.fst ++ rows.filterMap Prod.snd

/-- A slot on which a re-run can be bound, with room for its second copy when the launch is paired (R408, R416). -/
def State.rerunSlot (s : State) (lid : Nat) (l : Launch) : Option Tid :=
  s.allCores.findSome? (fun c => (s.freeSlots c lid).find? (fun t => !l.record.paired || (s.partnerFor lid t).isSome))

/-- Bindings, steals and re-runs that may happen now. -/
def State.schedDue (s : State) : List Instr :=
  s.pkg.launches.flatMap (fun e =>
    let lid := e.1
    let l := e.2
    (if l.bindable then s.presentDies.flatMap (fun d =>
      (match s.nextGroup lid l d with
        | some g => (match s.groupSlots lid l g with
          | some m => [.sliceBind lid d (s.chooseSlots lid (Config.pick s.fresh) l.record.paired m)]
          | none => [])
        | none => [])
      ++ (if l.unitsLeft d = 0 && !l.ranges.isEmpty then [.workSteal lid d] else []))
     else [])
    ++ (if l.record.restart && !l.state.final && l.killed.isNone && l.gang != 3 then
      l.failedSlices.flatMap (fun i =>
        match s.rerunSlot lid l with
        | some t => [.restartRerun lid i t]
        | none => [])
     else []))

end Sys2Proof.Machine
end

