-- ==== Sys2Proof/Machine/Rounds.lean ====
section
/-! DEFINITION. The quanta and rounds of D2 (R229, R230). -/

namespace Sys2Proof.Machine

/-- D2_QUANTUM_EXPIRY (R229): after QLEN retired instructions the quantum ends, and the next instruction begins another. -/
def execD2QuantumExpiry (t : Tid) (s : State) : Host.Outcome State Fault Refusal :=
  let th := s.thread t
  if th.d2 && th.status != .free && decide (th.bind.qlen ≤ th.qretired) then
    .next ((s.endQuantum t).upThread t (fun x => { x with qended := false }))
  else noEvent s

/-- The quanta a slice of a launch has ended; none while it is not bound. -/
def State.quantaOf (s : State) (l : Launch) (slice : Nat) : Option Nat :=
  match Assoc.find slice l.units with
  | some (.bound t) => some (s.thread t).quanta
  | some (.saved f) => some f.thread.quanta
  | _ => none

/-- A round has committed: a thread of the group that waits for it begins its next quantum with the acquire of R230, or looks at
what it waits for. -/
def State.beginQuantum (s : State) (t : Tid) : State :=
  let th := s.thread t
  if !s.roundDone th then s
  else
    match th.status with
    | .waiting .round =>
      if th.bind.qlen ≤ th.qretired then s else (s.acquireNow t.coreKey th.d2Scope).upThread t (fun x => { x with status := .ready })
    | .waiting .quant => s.post [.quantWaitEnd t]
    | .waiting .halt => s.post [.sliceComplete t]
    | .waiting (.drain ..) => s.post [.contextFrameWrite t]
    | _ => s

/-- D2_ROUND_COMMIT (R230): every live slice of the group has ended its quantum; the buffers are committed in ascending slice index,
and the slices go on. Whether the slices of other packages have ended theirs is open (log entry 20). -/
def execD2RoundCommit (lid grp : Nat) (s : State) : Host.Outcome State Fault Refusal :=
  match s.launch? lid with
  | none => noEvent s
  | some l =>
    let g := l.group grp
    let live := l.liveIn grp
    if l.record.isTxn || l.record.det != 2 || live.isEmpty
        || !live.all (fun i => match s.quantaOf l i with | some q => decide (g.rounds < q) | none => false) then noEvent s
    else if l.spread grp && !Config.chosen .farBrings s.fresh 0 then .next (s.post [.d2RoundCommit lid grp])
    else
      let ts := live.filterMap (fun i => match Assoc.find i l.units with | some (.bound t) => some t | _ => none)
      let s := ts.foldl (fun s t => s.commitBuffer t) s
      let s := s.upLaunch lid (fun l => { l with groups := Assoc.put grp { g with rounds := g.rounds + 1 } l.groups })
      let s := ts.foldl (fun s t => s.beginQuantum t) s
      .next (s.post [.barrierRelease lid grp, .d2RoundCommit lid grp])

end Sys2Proof.Machine
end

