-- ==== Sys2Proof/Machine/Frames.lean ====
section
/-! DEFINITION. Fault packets (R372 to R375), debug windows and DCTL (R376 to R379), page faults and fault frames (R262 to R264,
R452), and pre-emption's context frames and resumption (R383 to R387, R400, R450). -/

namespace Sys2Proof.Machine

/-! Fault packets. -/

/-- The 64 bytes of a packet (R373). -/
def State.packetBytes (s : State) (h : HeldPacket) (seq : Nat) : List Byte :=
  let bit := fun (b : Bool) (n : Nat) => if b then 2 ^ n else 0
  leBytes 4 (h.code.code + h.tid.tnum * 2 ^ 8 + h.tid.core * 2 ^ 11 + bit h.sup 19 + bit h.txn 20)
    ++ leBytes 4 (h.tid.die + s.pkgId * 2 ^ 4) ++ leBytes 8 h.pc.toNat ++ leBytes 8 h.va.toNat ++ leBytes 8 h.info.toNat
    ++ leBytes 8 h.lid.toNat ++ leBytes 8 h.unit.toNat ++ leBytes 8 seq ++ leBytes 8 0

/-- The supervisor thread of a die (R372). -/
def State.supervisor (s : State) (d : Nat) : Option Tid :=
  let v := (s.die d).supv
  if v.getLsbD 11 then some ⟨d, field v 0 8, field v 8 3⟩ else none

/-- A packet goes to the firmware complex: no supervisor thread, no ring, or the supervisor thread's own packet (R375). -/
def State.toFirmware (s : State) (die : Nat) (h : HeldPacket) : Bool :=
  match s.supervisor die with
  | none => true
  | some t => (field (s.die die).fring 0 4 == 0 && field (s.die die).fring 12 40 == 0) || h.tid == t
/-- The die's ring has room for a packet (R374). -/
def Die.ringRoom (d : Die) : Bool := decide ((d.prod - d.cons).toNat < 2 ^ field d.fring 0 4)
/-- Write a packet to the ring, advance PROD and wake the supervisor thread (R374). -/
def State.ringWrite (s : State) (die : Nat) (h : HeldPacket) : State :=
  let d := s.die die
  let pa := field d.fring 12 40 * 4096 + 64 * (d.prod.toNat % 2 ^ field d.fring 0 4)
  let s := (s.firmwareWrite pa (s.packetBytes h d.prod.toNat)).upDie die (fun d => { d with prod := d.prod + 1 })
  match s.supervisor die with | some t => s.wakeThread t | none => s

/-- FAULT_PACKET_WRITE (R374, R375): the oldest held packet of a die that can be delivered, in freeze order, goes to the firmware
complex, or to the ring when there is room, with PROD advanced and the supervisor thread woken; the next one follows. -/
def execFaultPacketWrite (die : Nat) (s : State) : Host.Outcome State Fault Refusal :=
  let d := s.die die
  match d.held.findIdx? (fun h => s.toFirmware die h || d.ringRoom) with
  | none => noEvent s
  | some i =>
    match d.held[i]? with
    | none => noEvent s
    | some h =>
      let s := s.upDie die (fun d => { d with held := d.held.eraseIdx i })
      let s := if s.toFirmware die h then s.upDie die (fun d => { d with firmware := d.firmware ++ [h] }) else s.ringWrite die h
      .next (s.post (if d.held.length ≤ 1 then [] else [.faultPacketWrite die]))

/-! Debug windows. -/

/-- DEBUG_WINDOW_ACCESS (R376, R377): an aligned access of eight bytes to a window of a present die; one into a contained rectangle is
refused (R412). -/
def execDebugWindowAccess (t : Tid) (off : Nat) (data : Option (BitVec 64)) (s : State) : Host.Outcome State Fault Refusal :=
  match data with
  | some v => if off % 8 = 0 ∧ off < 8192 ∧ s.presentDies.contains t.die ∧ s.windowReachable t then .next (s.windowWrite t off v) else noEvent s
  | none => noEvent s

/-- A thread of a launch whose gang is lost stops as soon as it is no longer frozen (R450). -/
def State.stopIfLost (s : State) (t : Tid) : State :=
  if s.gangLost (s.thread t).bind.lid then s.startDrain t 2 0 liveAll else s

/-- DCTL_RESUME (R379, R385, R450): an acquire at die scope, at D2 at that of the quantum (R230), then the thread goes on at its PC; a
pending JOBERR freezes it again, unless a rebuild stub has still to close. -/
def execDctlResume (t : Tid) (clr : Bool) (s : State) : Host.Outcome State Fault Refusal :=
  match (s.thread t).status.freeze? with
  | some f =>
    if f.cause = .TX_UNSTABLE then noEvent s
    else
      let s := (s.acquireNow t.coreKey (if (s.thread t).d2 then (s.thread t).d2Scope else scopeDie)).resume t clr
      let th := s.thread t
      if s.gangLost th.bind.lid then .next (s.stopIfLost t)
      else if th.rebuild.isNone && th.joberr != 0 then
        .next ((s.setThread t { th with joberr := 0 }).freeze t ⟨th.jobCause, 0, zext64 (th.joberr.extractLsb' 8 16), 0⟩)
      else .next s
  | none => noEvent s

/-- A terminated thread whose jobs have completed is freed, and so are its banks, blocks and region; a transaction ends without commit
(R285, R303, R379). -/
def State.finishTerminated (s : State) (t : Tid) : State :=
  let th := s.thread t
  match th.txn with
  | some b =>
    if (s.txn? th.bind.lid b.idx).bind (·.landing) = some t then s.endTxn th.bind.lid b.idx false
    else (s.freeSlot t).checkLaunchOver th.bind.lid
  | none => (s.freeSlot t).checkLaunchOver th.bind.lid

/-- A frozen thread is terminated (R285, R379, R415): it never runs again; a kernel slice has failed, and leaves its group at once; the
launch of a transaction will end FAILED. What the thread holds is freed when its jobs have completed. -/
def State.terminate (s : State) (t : Tid) : State :=
  let th := s.thread t
  let s := s.upThread t (fun x => { x with status := .waiting .terminated, d2buf := [] })
  let s := match th.txn with
    | some _ => s.upLaunch th.bind.lid (fun l => { l with reason := if l.reason = 0 then reasonFault else l.reason })
    | none => (s.writeBackAll t.coreKey).endSlice th.bind.lid th.bind.unit th.region (some reasonFault)
  if s.hasJobs t then s else s.finishTerminated t

/-- The slice or transaction of a thread is still its own, in a launch that goes on. -/
def State.holdsUnit (s : State) (t : Tid) : Bool :=
  let th := s.thread t
  match s.launch? th.bind.lid with
  | none => false
  | some l => l.killed.isNone && !l.state.final &&
    (match th.txn with
     | some _ => l.reason != reasonFault
     | none => Assoc.find th.bind.unit l.units == some (.bound t))

/-- DCTL_TERMINATE_SLICE (R379): a frozen thread never runs again, and is freed when its jobs have completed. -/
def execDctlTerminateSlice (t : Tid) (s : State) : Host.Outcome State Fault Refusal :=
  match (s.thread t).status with
  | .frozen _ => if s.gangLost (s.thread t).bind.lid then .next (s.stopIfLost t) else .next (s.terminate t)
  | .waiting .terminated =>
    if s.gangLost (s.thread t).bind.lid then .next (s.stopIfLost t)
    else if s.holdsUnit t then .next (s.terminate t)
    else if s.hasJobs t then noEvent s
    else .next (s.finishTerminated t)
  | _ => noEvent s

/-- DCTL_TERMINATE_LAUNCH (R379): the launch of a frozen thread ends FAILED with reason FAULT. -/
def execDctlTerminateLaunch (t : Tid) (s : State) : Host.Outcome State Fault Refusal :=
  match (s.thread t).status with
  | .frozen _ | .waiting .condemned => .next (s.killLaunch (s.thread t).bind.lid reasonFault none)
  | _ => noEvent s

/-- DCTL_PREEMPT (R379): a pending pre-emption request on a running kernel thread. -/
def execDctlPreempt (t : Tid) (s : State) : Host.Outcome State Fault Refusal := .next (s.askPreempt t)

/-! Saving a thread. -/

/-- The size of a fault frame (R262): 8 KiB, and 32 KiB for each in-use bank. -/
def State.faultFrameSize (s : State) (t : Tid) : Nat :=
  8192 + 32768 * ((s.ownedBanks t).filter (fun e => e.2.2.inuse)).length
/-- The pieces of a fault frame by offset (R262, R263): the first 8 KiB, in which empty vector slots are not written, then the in-use
banks. -/
def State.faultFrame (s : State) (t : Tid) : List (Nat × List Byte) :=
  let banks := s.ownedBanks t
  let used := banks.filter (fun e => e.2.2.inuse)
  let img := (s.thread t).image banks ⟨0, 0, 0, 0, s.faultFrameSize t⟩
  (0, img.take 0xD00)
    :: (List.range 7).filterMap (fun n => ((s.thread t).slots.toList.getD n none).map (fun b => (0xD00 + 512 * n, blockBytes b)))
    ++ [(0x1B00, img.drop 0x1B00 ++ used.flatMap (fun e => e.2.2.bytes))]

/-- The bytes of a context frame (R386): the header shows p1–p7 only when they are live. -/
def State.contextFrame (s : State) (t : Tid) (kind cidx : Nat) (live : Word) : List Byte :=
  let th := s.thread t
  let banks := s.ownedBanks t
  let used := banks.filter (fun e => e.2.2.inuse)
  let body := th.contextBody live
  let size := frameSize body.length (!used.isEmpty)
  let shown := if liveBit live 31 then th else { th with p := Vector.replicate 8 false }
  let head := shown.header banks ⟨kind, live.toNat, th.pc.toNat, cidx, size⟩
  let pad := roundUp (256 + body.length) 256 - (256 + body.length)
  head ++ body ++ leBytes pad 0 ++ (used.take 1).flatMap (fun e => e.2.2.bytes)

/-- The banks a frame keeps: in use with their contents, any other in the cleared state with its poison flag (R387). -/
def savedBanks (l : List (Nat × Nat × BankState)) : List (Bank × BankState) :=
  l.map (fun e => (Fin.ofNat 8 e.2.1, if e.2.2.inuse then e.2.2 else { BankState.cleared with poison := e.2.2.poison }))

/-- Put a thread into a frame: the bytes go to the frame region of its die, its slice waits there, its slot is freed (R264, R384). -/
def State.saveThread (s : State) (t : Tid) (at_ units kind cidx : Nat) (live : Word) (page : Option (BitVec 16 × Nat))
    (pieces : List (Nat × List Byte)) : State :=
  let th := s.thread t
  let saved : Saved :=
    { thread := { th with status := .ready, preempt := false, wake := false, held := false }
      frameAt := at_, units := units, die := t.die, kind := kind, live := live, cidx := cidx, cont := th.pc
      banks := savedBanks (s.ownedBanks t), core := t.coreKey, page := page, leased := kind != 0 && !s.coreUp t.coreKey }
  let s := pieces.foldl (fun s x => s.firmwareWrite (s.frameBase t.die + 8192 * at_ + x.1) x.2) s
  let s := s.upDie t.die (fun d => { d with frames := d.frames ++ [(at_, units)] })
  let s := s.upLaunch th.bind.lid (fun l => { l with units := Assoc.put th.bind.unit (.saved saved) l.units })
  s.freeSlot t

/-- Observe every job of a thread, keeping the failure in JOBERR for its resumption (R384, step 4). -/
def State.observeAll (s : State) (t : Tid) : State :=
  let r := s.observeOr t ((s.core t.coreKey).doneOf t)
  match r.2 with
  | some f => r.1.upThread t (fun x => { x with joberr := BitVec.ofNat 24 (f.cause.code + 256 * field f.info 0 16) })
  | none => r.1

/-- A launch whose gang is lost ends once every thread of it has stopped (R450). -/
def State.checkLost (s : State) (lid : Nat) : State := if s.gangLost lid then s.checkLaunchOver lid else s

/-- A thread of a launch whose gang is lost has drained: no frame is written, its commit buffer is discarded, all it holds is freed
(R450): steps 1, 3 and 4 of R384 alone. The dirty bytes of its core go home here, for the end of its launch, which is a release (R220). -/
def State.stopThread (s : State) (t : Tid) : State :=
  let th := s.thread t
  let s := (s.observeAll t).writeBackAll t.coreKey
  let s := s.upLaunch th.bind.lid (fun l =>
    { l.freeRegion th.region with units := Assoc.put th.bind.unit (.failed 10) l.units })
  (s.freeSlot t).checkLost th.bind.lid

/-- CONTEXT_FRAME_WRITE (R384): the draining thread's round has committed and its jobs have completed; it observes them, its dirty
bytes are written back at every scope, since it may resume on another core, and its frame is written; everything it holds is freed.
A thread with a request that is not draining looks whether it waits at a cleavage point. -/
def execContextFrameWrite (t : Tid) (s : State) : Host.Outcome State Fault Refusal :=
  let th := s.thread t
  match th.status with
  | .waiting (.drain kind cidx live _ _) =>
    if s.hasJobs t then noEvent s
    else if s.gangLost th.bind.lid then .next (s.stopThread t)
    else if !s.roundDone th then noEvent s
    else
      let bytes := (s.observeAll t).contextFrame t kind cidx live
      let units := (bytes.length + 8191) / 8192
      match s.frameRoom t.die units with
      | none => noEvent s
      | some i =>
        .next (((s.observeAll t).writeBackAll t.coreKey).saveThread t i units kind cidx live none [(0, bytes)])
  | .waiting _ => if th.preempt then .next (s.tryPreempt t) else noEvent s
  | _ => noEvent s

/-! Resumption. -/

/-- Every recorded bank number is free on the MXE that serves a cluster (R263, R387). -/
def State.banksFree (s : State) (cl : Nat) (banks : List (Bank × BankState)) : Bool :=
  banks.all (fun e => (s.bank cl e.1.val).owner.isNone)

/-- The other slices of a saved thread's group that have not ended stand, or wait in frames, in the domain instance of a core: a group is
never split when it migrates (R163). -/
def State.groupStays (s : State) (f : Saved) (c : Nat) : Bool :=
  match s.launch? f.thread.bind.lid with
  | none => true
  | some l =>
    let here := s.instanceOf f.thread.bind.level c
    l.units.all (fun e => e.1 == f.thread.bind.unit || l.record.groupOf e.1 != l.record.groupOf f.thread.bind.unit || (match e.2 with
      | .bound t => here.contains t.coreKey
      | .saved g => here.contains g.core
      | _ => true))

/-- A core on which a saved thread may be restored (R163, R263, R387): of its own cluster with its banks free, its group not being split,
or of its domain instance. -/
def State.resumeCore (s : State) (f : Saved) (c : Nat) : Bool :=
  if f.banks.isEmpty then (s.instanceOf f.thread.bind.level f.core).contains c
  else clusterOfCore c == clusterOfCore f.core && s.groupStays f c && s.banksFree (s.serving (clusterOfCore c)) f.banks

/-- A slot on which a saved thread may be restored; one that was pre-empted for a lease of its core goes to the understudy when that has
a slot for it (R400). -/
def State.resumeSlot (s : State) (f : Saved) (t : Tid) : Bool :=
  let lid := f.thread.bind.lid
  let ok := (s.freeSlots t.coreKey lid).contains t && s.resumeCore f t.coreKey
  let only := if !f.leased then none
    else (s.understudy f.core).filter (fun u => s.resumeCore f u && !(s.freeSlots u lid).isEmpty)
  ok && (match only with | some u => u == t.coreKey | none => true)

/-- The parts of a frame that a restoration reads: offset and length (R262, R263, R386). -/
def Saved.spans (f : Saved) : List (Nat × Nat) :=
  let used := (f.banks.filter (fun e => e.2.inuse)).length
  if f.kind = 0 then
    (0, 0xD00) :: (List.range 7).filterMap (fun n => (f.thread.slots.toList.getD n none).map (fun _ => (0xD00 + 512 * n, 512)))
      ++ [(0x1B00, 8192 - 0x1B00 + 32768 * used)]
  else [(0, frameSize (f.thread.contextBody f.live).length (used != 0))]

/-- A restoration of a frame reads a poisoned value into the core (R392). -/
def State.frameBad (s : State) (f : Saved) : Bool :=
  f.spans.any (fun x => s.poisonedAt (s.frameBase f.die + 8192 * f.frameAt + x.1) x.2)

/-- Seat a saved thread again: its banks are claimed, its frame is freed, and its claim for the blocks above the reserve enters the
FIFO behind the other resumers (R181, R263, R387). On another core than it left, the clean bytes of the L1 go, which may be older than
its own stores (R27). A frame that holds poison is consumed as it is read (R392). -/
def State.restore (s : State) (lid idx : Nat) (f : Saved) (t : Tid) (th : Thread) : Option State :=
  let cl := s.serving t.clusterKey
  let bad := s.frameBad f
  let th := if bad then { th with slots := Vector.replicate 7 none, status := .waiting .poison } else { th with status := .waiting .resumer }
  match s.seatBoth t th with
  | none => none
  | some s =>
    let s := if t.coreKey = f.core then s else s.invalidateClean t.coreKey
    if bad then
      some (((s.freeFrame f).upLaunch lid (fun l => { l with units := Assoc.put idx (.bound t) l.units })).useBy t)
    else
    let s := f.banks.foldl (fun s e => s.upBank cl e.1.val (fun _ => { e.2 with owner := some t, releasing := false })) s
    let s := s.freeFrame f
    let s := s.upLaunch lid (fun l => { l with units := Assoc.put idx (.bound t) l.units })
    let claim : VrClaim := ⟨t.tnum, th.sharedBlocks, true⟩
    let s := s.upCore t.coreKey (fun k =>
      { k with fifo := k.fifo.filter (·.resumer) ++ [claim] ++ k.fifo.filter (fun x => !x.resumer) })
    some (s.post [.vrClaimGrant t.coreKey])

/-- The saved thread of a slice. -/
def State.savedOf (s : State) (lid idx : Nat) : Option Saved :=
  match (s.launch? lid).bind (fun l => Assoc.find idx l.units) with
  | some (.saved f) => some f
  | _ => none

/-- The state of a resumed thread (R387): its frame's live items; at a CLEAVE point its stub comes first. -/
def State.resumedThread (s : State) (f : Saved) : Thread :=
  let t := f.thread.rebuilt f.live
  if f.kind = 1 then
    let stub := match s.imageOf f.thread, s.cleaveEntry f.thread f.cidx with
      | some i, some e => BitVec.ofNat 64 (i.textBase + e.2.toNat)
      | _, _ => f.cont
    { t with pc := stub, rebuild := some ⟨f.cidx, f.cont⟩ }
  else { t with pc := f.cont, rebuild := none }

/-- CONTEXT_RESUME (R387): a pre-empted thread takes a free slot; a gated island is powered first (R459). -/
def execContextResume (lid idx : Nat) (t : Tid) (s : State) : Host.Outcome State Fault Refusal :=
  match s.savedOf lid idx with
  | none => noEvent s
  | some f =>
    if f.kind = 0 || !s.resumeSlot f t then noEvent s
    else if !(s.gatedOf [t]).isEmpty then .next (s.post ((s.gatedOf [t]).map .islandPowerUp ++ [.contextResume lid idx t]))
    else
      match s.restore lid idx f t (s.resumedThread f) with
      | some s => .next s
      | none => noEvent s

/-- FAULT_FRAME_RESTORE (R263): a thread whose page is resident takes a free slot, with its whole state, and its instruction
executes again. One whose gang is lost comes back with the pre-emption request that every thread of its launch has (R450). -/
def execFaultFrameRestore (lid idx : Nat) (t : Tid) (s : State) : Host.Outcome State Fault Refusal :=
  match s.savedOf lid idx with
  | none => noEvent s
  | some f =>
    if f.kind ≠ 0 || f.page.isSome || !s.resumeSlot f t then noEvent s
    else if !(s.gatedOf [t]).isEmpty then .next (s.post ((s.gatedOf [t]).map .islandPowerUp ++ [.faultFrameRestore lid idx t]))
    else
      match s.restore lid idx f t { f.thread with preempt := s.gangLost lid } with
      | some s => .next s
      | none => noEvent s

/-! Page faults (R262, R452). -/

/-- The owner of a page: the package that the first matching entry of the ownership table names (R451). -/
def State.pageOwner (s : State) (asid : BitVec 16) (vpage : Nat) : Nat :=
  let n := Nat.min (field s.pkg.arotb 0 13) 4096
  let base := field s.pkg.arotb 16 36 * 65536
  let va := vpage / 2 ^ 13
  (((List.range n).map (fun i => (s.mem.num (base + 16 * i) 8, s.mem.num (base + 16 * i + 8) 8))).find? (fun e =>
    e.1 % 2 == 1 && (e.1 / 2 % 2 == 1 || e.1 / 2 ^ 16 % 2 ^ 16 == asid.toNat)
      && decide (e.2 % 2 ^ 26 ≤ va) && decide (va < e.2 % 2 ^ 26 + e.2 / 2 ^ 26 % 2 ^ 26))).elim s.pkgId
    (fun e => e.1 / 2 ^ 32 % 1024)

/-- The page a thread waits for on the page-fault path. -/
def Thread.faultPage (t : Thread) : Option (BitVec 16 × Nat) :=
  match t.status with
  | .waiting (.pageFault va _) => some (t.bind.asid, va.toNat / 65536)
  | _ => none

/-- A record of a page is with the fault processor. -/
def State.pageAsked (s : State) (page : BitVec 16 × Nat) : Bool :=
  s.pkg.pageFaults.any (fun r => r.asid == page.1 && r.vpage == page.2)

/-- What another package that owns a page has answered to its record, if it has: KILL too when it was silent before it answered (R452). -/
def State.pageAnswer (s : State) (page : BitVec 16 × Nat) : Option (Option (List Byte × BitVec 5)) :=
  (s.pkg.pageFaults.find? (fun r => r.asid == page.1 && r.vpage == page.2)).bind (·.answer)

/-- The record of a page lies with another package. -/
def State.pageElsewhere (s : State) (page : BitVec 16 × Nat) : Bool :=
  s.pkg.pageFaults.any (fun r => r.asid == page.1 && r.vpage == page.2 && r.owner != s.pkgId)

/-- RESOLVED may happen for a page: its own fault processor serves it, or the owner has answered so (R452). -/
def State.mayResolve (s : State) (page : BitVec 16 × Nat) : Bool :=
  s.pageAsked page && (!s.pageElsewhere page || ((s.pageAnswer page).getD none).isSome)
/-- KILL may happen for a page: its own fault processor serves it, or the owner has answered so (R452). -/
def State.mayKill (s : State) (page : BitVec 16 × Nat) : Bool :=
  s.pageAsked page && (!s.pageElsewhere page || s.pageAnswer page == some none)

/-- A record for a page reaches the fault processor of the page's package (R262, R452), or joins the one that is there (R263). An owner
that is silent counts as KILL (R452). -/
def State.askPage (s : State) (page : BitVec 16 × Nat) (ts : List Tid) : State :=
  let join := fun (r : PageFault) => if r.asid == page.1 && r.vpage == page.2
    then { r with threads := r.threads ++ ts.filter (fun t => !r.threads.contains t) } else r
  s.upPkg (fun p =>
    if s.pageAsked page then { p with pageFaults := p.pageFaults.map join }
    else
      let owner := s.pageOwner page.1 page.2
      let answer := if s.pkg.silent.contains owner then some none else none
      { p with pageFaults := p.pageFaults ++ [⟨page.1, page.2, ts, owner, answer⟩] })

/-- A thread on the page-fault path waits in place (R262): a transaction, a D2 thread, or one for whose frame the region has no room
once its accesses and jobs are complete. -/
def State.inPlace (s : State) (t : Tid) : Bool :=
  let th := s.thread t
  th.bind.txn || th.bind.det == 2 || (!s.hasJobs t && (s.frameRoom t.die ((s.faultFrameSize t + 8191) / 8192)).isNone)

/-- The pages that threads in fault frames wait for. -/
def State.framedPages (s : State) : List (BitVec 16 × Nat) :=
  s.pkg.launches.flatMap (fun e => e.2.frames.filterMap (fun f => f.page))

/-- A thread waits in place and its record has gone out. -/
def State.askedFor (s : State) (t : Tid) (page : BitVec 16 × Nat) : Bool :=
  s.pkg.pageFaults.any (fun r => r.asid == page.1 && r.vpage == page.2 && r.threads.contains t)

/-- PAGE_FAULT_RECORD (R262, R263, R452): the record of a thread that waits in place goes out, or that of the threads whose frames have
been written; threads of one page share it. A thread for whose frame there is room by now takes it instead. -/
def execPageFaultRecord (t : Tid) (s : State) : Host.Outcome State Fault Refusal :=
  match (s.thread t).faultPage with
  | some page =>
    if s.askedFor t page then noEvent s
    else if s.inPlace t then .next (s.askPage page [t])
    else .next (s.post [.faultFrameWrite t])
  | none => .next (s.framedPages.foldl (fun s p => if s.pageAsked p then s else s.askPage p []) s)

/-- FAULT_FRAME_WRITE (R262): a kernel thread below D2 whose accesses and jobs are complete goes to a fault frame when the region has
room; every other thread waits in place. The record follows. -/
def execFaultFrameWrite (t : Tid) (s : State) : Host.Outcome State Fault Refusal :=
  let th := s.thread t
  match th.faultPage with
  | none => noEvent s
  | some page =>
    if s.askedFor t page then noEvent s
    else if s.inPlace t then .next (s.post [.pageFaultRecord t])
    else if s.hasJobs t then noEvent s
    else
      let units := (s.faultFrameSize t + 8191) / 8192
      match s.frameRoom t.die units with
      | none => noEvent s
      | some i =>
        .next ((((s.observeAll t).writeBackAll t.coreKey).saveThread t i units 0 0 liveAll (some page) (s.faultFrame t)).post
          [.pageFaultRecord t])

/-- Write the entries that a walk of a page finds absent, as the fault processor chooses them, by fuel. -/
def State.fillTables (asid : BitVec 16) (vpage : Nat) : Nat → State → Nat → Nat → State
  | 0, s, _, _ => s
  | n + 1, s, level, table =>
    let ix := if level = 1 then vpage / 2 ^ 26 % 8192 else if level = 2 then vpage / 2 ^ 13 % 8192 else vpage % 8192
    let a := table + 8 * ix
    let p : Word := BitVec.ofNat 64 (s.mem.num a 8)
    let s := if p.getLsbD 0 then s else s.firmwareWrite a (leBytes 8 (Config.residentPte asid vpage level ||| 1#64).toNat)
    let p : Word := BitVec.ofNat 64 (s.mem.num a 8)
    if p.getLsbD 1 then s else State.fillTables asid vpage n s (level + 1) (field p 16 36 * 65536)

/-- The leaf of a page with the R, W, X, U and G of an owner's answer (R254, R452). -/
def leafWith (pte : Word) (bits : BitVec 5) : Word := (pte &&& ~~~0x7C#64) ||| (bits.setWidth 64 <<< 2)

/-- The fault processor makes a page resident: its entries are written, and its 64 KiB (R262; log entry 13); with the contents and the
permissions of an owner's answer, if another package owns the page (R452). -/
def State.makePageResidentAs (s : State) (asid : BitVec 16) (vpage : Nat) (answer : Option (List Byte × BitVec 5)) : State :=
  match s.walk asid (vpage * 65536), s.rootTable asid with
  | .error .PAGE_ABSENT, some root =>
    let s := State.fillTables asid vpage 3 s 1 root
    match s.walk asid (vpage * 65536) with
    | .ok l =>
      let pa := leafPa l.pte l.large (vpage * 65536)
      (match answer with
        | some (bs, bits) => (s.firmwareWrite l.at_ (leBytes 8 (leafWith l.pte bits).toNat)).firmwareWrite pa bs
        | none => s.firmwareWrite pa (tabulate 65536 (fun i => Config.pageByte s.fresh i)))
    | .error _ => s
  | _, _ => s

/-- The fault processor makes a page of this package resident. -/
def State.makePageResident (s : State) (asid : BitVec 16) (vpage : Nat) : State := s.makePageResidentAs asid vpage none

/-- What an owner answers to RESOLVED (R452): the 64 KiB as it holds them, and R, W, X, U, G of its leaf. -/
def State.pageContents (s : State) (asid : BitVec 16) (vpage : Nat) : Option (List Byte × BitVec 5) :=
  match s.walk asid (vpage * 65536) with
  | .ok l => some (s.mem.bytes (leafPa l.pte l.large (vpage * 65536)) 65536, l.pte.extractLsb' 2 5)
  | .error _ => none

/-- The record of a page is answered: it leaves the fault processor. -/
def State.answerPage (s : State) (asid : BitVec 16) (vpage : Nat) : State :=
  s.upPkg (fun p => { p with pageFaults := p.pageFaults.filter (fun r => !(r.asid == asid && r.vpage == vpage)) })

/-- PAGE_FAULT_RESOLVED (R262, R263): the page is resident; threads that wait in place execute their instruction again, and those in
frames may be restored. -/
def execPageFaultResolved (asid : BitVec 16) (vpage : Nat) (s : State) : Host.Outcome State Fault Refusal :=
  if !s.mayResolve (asid, vpage) then noEvent s
  else
    let waits := s.boundTids.filter (fun t => (s.thread t).faultPage == some (asid, vpage) && s.askedFor t (asid, vpage))
    let s := (s.makePageResidentAs asid vpage ((s.pageAnswer (asid, vpage)).getD none)).answerPage asid vpage
    let s := waits.foldl (fun s t => s.again t) s
    let s := s.upPkg (fun p => { p with queues := p.queues.map (fun e =>
      if e.2.fault == some (asid, vpage) then (e.1, { e.2 with fault := none }) else e) })
    let wake := fun (e : Nat × UnitState) => match e.2 with
      | .saved f => if f.page == some (asid, vpage) then (e.1, UnitState.saved { f with page := none }) else e
      | _ => e
    .next (s.upPkg (fun p => { p with launches := p.launches.map (fun e => (e.1, { e.2 with units := e.2.units.map wake })) }))

/-- A launch has a thread that waits for a page, in place or in a frame. -/
def State.waitsForPage (s : State) (lid : Nat) (l : Launch) (page : BitVec 16 × Nat) : Bool :=
  s.boundTids.any (fun t => (s.thread t).bind.lid == lid && (s.thread t).faultPage == some page && s.askedFor t page)
    || l.units.any (fun e => match e.2 with | .saved f => f.page == some page | _ => false)

/-- A launch in a final state whose signal word, still to be written, lies in a page. -/
def Launch.signalAt (l : Launch) (asid : BitVec 16) (vpage : Nat) : Bool :=
  l.state.final && l.asid == asid && (match l.signal with | some (_, _, va) => va != 0 && va.toNat / 65536 == vpage | none => false)

/-- PAGE_FAULT_KILL (R262, R359): the launches of the threads that wait for the page end FAILED with reason FAULT; queues whose packet or
signal word waits for it raise FAULT. -/
def execPageFaultKill (asid : BitVec 16) (vpage : Nat) (s : State) : Host.Outcome State Fault Refusal :=
  if !s.mayKill (asid, vpage) then noEvent s
  else
    let lids := (s.pkg.launches.filter (fun e => s.waitsForPage e.1 e.2 (asid, vpage))).map Prod.fst
    let s := (s.answerPage asid vpage).upPkg (fun p => { p with queues := p.queues.map (fun e =>
      if e.2.fault == some (asid, vpage) then (e.1, { e.2 with fault := none, killed := true }) else e) })
    let waiting := s.pkg.launches.filter (fun e => e.2.signalAt asid vpage)
    let s := waiting.foldl (fun s e => s.upLaunch e.1 (fun l => { l with signal := l.signal.map (fun x => (x.1, x.2.1 % 4 + 4, x.2.2)) })) s
    let s := s.post ((s.pkg.queues.filter (fun e => e.2.killed)).map (fun e => .fePendingService e.1)
      ++ waiting.map (fun e => .launchSignalWrite e.1))
    .next (lids.foldl (fun s lid => s.killLaunch lid reasonFault none) s)

/-- REMOTE_FAULT_RECORD (R452): this package owns the page that a thread of another package lacks. Its firmware, whose choice is open,
answers KILL, or makes the page resident here and answers RESOLVED with what it holds. -/
def execRemoteFaultRecord (pkg : Nat) (asid : BitVec 16) (vpage : Nat) (s : State) : Host.Outcome State Fault Refusal :=
  if pkg = s.pkgId || s.pageOwner asid vpage != s.pkgId then noEvent s
  else if Config.chosen .answerKill s.fresh 0 then .next (s.sendPod pkg (.page asid vpage none))
  else
    let z := s.makePageResident asid vpage
    .next (z.sendPod pkg (.page asid vpage (z.pageContents asid vpage)))

/-! What may happen now. -/

/-- Restorations of saved threads, and answers of the fault processor, that may happen now. -/
def State.framesDue (s : State) : List Instr :=
  (s.pkg.launches.flatMap (fun e => e.2.units.flatMap (fun u =>
    match u.2 with
    | .saved f =>
      let cores := if f.banks.isEmpty then s.instanceOf f.thread.bind.level f.core else s.instanceOf 2 f.core
      let slots := (cores.flatMap (fun c => s.freeSlots c e.1)).filter (s.resumeSlot f)
      match slots[Config.pick s.fresh % slots.length]? with
      | some t => if f.kind = 0 then [.faultFrameRestore e.1 u.1 t] else [.contextResume e.1 u.1 t]
      | none => []
    | _ => [])))
  ++ s.pkg.pageFaults.flatMap (fun r =>
    (if s.mayResolve (r.asid, r.vpage) then [.pageFaultResolved r.asid r.vpage] else [])
      ++ (if s.mayKill (r.asid, r.vpage) then [.pageFaultKill r.asid r.vpage] else []))

end Sys2Proof.Machine
end

