-- ==== Sys2Proof/Machine/Pss.lean ====
section
/-! DEFINITION. RSASSA-PSS of PKCS #1 v2.2 with RSA-4096, SHA-512, MGF1 with SHA-512 and a 64-byte salt (R417, R455, R456). -/

namespace Sys2Proof.Machine

/-- x to the power e, modulo n, from the low bits of e, by the number of them. -/
def modPow (n : Nat) : Nat → Nat → Nat → Nat
  | 0, _, _ => 1 % n
  | k + 1, x, e =>
    let r := modPow n k (x * x % n) (e / 2)
    if e % 2 = 1 then r * x % n else r

/-- MGF1 with SHA-512: n bytes of mask from a seed. -/
def mgf1 (seed : List Byte) (n : Nat) : List Byte :=
  ((List.range (n / 64 + 1)).flatMap (fun c => sha512 (seed ++ beBytes 4 c))).take n

/-- Bytes combined by exclusive or. -/
def xorBytes (a b : List Byte) : List Byte := List.zipWith (· ^^^ ·) a b

/-- The hash of eight zero bytes, the message's hash and the salt. -/
def pssHash (m salt : List Byte) : List Byte := sha512 (List.replicate 8 0 ++ sha512 m ++ salt)

/-- The leftmost bit of a mask is cleared: the encoded message has 4,095 bits. -/
def dropTopBit : List Byte → List Byte
  | [] => []
  | b :: r => (b &&& 0x7F) :: r

/-- EMSA-PSS encoding: 512 bytes. -/
def pssEncode (m salt : List Byte) : List Byte :=
  let h := pssHash m salt
  let db := List.replicate 382 0 ++ [0x01] ++ salt
  dropTopBit (xorBytes db (mgf1 h 447)) ++ h ++ [0xBC]

/-- EMSA-PSS verification of 512 bytes. -/
def pssCheck (m em : List Byte) : Bool :=
  let h := (em.drop 447).take 64
  let db := dropTopBit (xorBytes (em.take 447) (mgf1 h 447))
  (em.getD 0 0 &&& 0x80) == 0 && em.getD 511 0 == 0xBC && db.take 383 == List.replicate 382 0 ++ [0x01]
    && h == pssHash m (db.drop 383)

/-- The public exponent of every RSA key of the part (R456; for the keys of images, log entry 63). -/
def rsaExponent : Nat := 65537

/-- The modulus of the device key. -/
def DeviceKey.modulus (k : DeviceKey) : BitVec 4096 := k.p.setWidth 4096 * k.q.setWidth 4096
/-- The private exponent of the device key: the d for which 65,537 · d is 1 modulo (p − 1)(q − 1). -/
def DeviceKey.priv (k : DeviceKey) : BitVec 4096 :=
  let order := (k.p.toNat - 1) * (k.q.toNat - 1)
  let times := ((List.range rsaExponent).find? (fun j => (order * j + 1) % rsaExponent == 0)).getD 0
  BitVec.ofNat 4096 ((order * times + 1) / rsaExponent)

/-- The signature of a message under a private exponent (R456), most significant byte first. -/
def pssSign (modulus priv : BitVec 4096) (m salt : List Byte) : List Byte :=
  beBytes 512 (modPow modulus.toNat 4096 (beNat (pssEncode m salt)) priv.toNat)

/-- A signature verifies under a modulus with the public exponent 65,537 (R455, R456; log entry 63). -/
def pssVerify (modulus signature : BitVec 4096) (m : List Byte) : Bool :=
  decide (signature.toNat < modulus.toNat) && pssCheck m (beBytes 512 (modPow modulus.toNat 17 signature.toNat rsaExponent))

end Sys2Proof.Machine
end

