-- ==== Sys2Proof/Machine/Sequencer.lean ====
section
/-! DEFINITION. Sequencers and lock managers: the steps of R276, horizons (R277, R434, R435, R446), requests, grants and pushes
(R278 to R281), landing (R174, R282, R289), and re-landing (R414). -/

namespace Sys2Proof.Machine

/-! Landing (R174). -/

/-- Hold a slot and a staging area for a transaction, and a second slot when it is paired (R276, R408); answers the area. -/
def State.holdLanding (s : State) (lid idx : Nat) (l : Launch) (t : Tid) (need al : Nat) : Option (State × Nat) :=
  let partner := s.landingPartner lid t need al
  let s := s.seat t { Thread.reset with bind := s.bindingOf lid l idx, status := .reserved }
  match s.stagingRoom t.coreKey need al with
  | none => none
  | some o =>
    let s := s.takeStaging t o need
    if !l.record.paired then some (s, o)
    else
      match partner with
      | none => none
      | some p =>
        let s := s.seatShadow t p
        match s.stagingRoom p.coreKey need al with
        | some q => some (s.takeStaging p q need, o)
        | none => none

/-! The sequencer's steps (R276). -/

/-- A READY transaction launch that found no available cluster is numbered once there is one (R275, R434). -/
def State.lateNumbering (s : State) : State :=
  s.pkg.launches.foldl (fun s e =>
    if e.2.record.isTxn && e.2.state == .ready && e.2.killed.isNone && e.2.txns.isEmpty then s.assignBatches e.1 else s) s

/-- SEQ_SET_COMPUTE (R276, step 1): the set of the lowest transaction without one is computed from its template. -/
def execSeqSetCompute (die : Nat) (s : State) : Host.Outcome State Fault Refusal :=
  match s.seqTarget die (fun x => x.state == .numbered && !x.passed) (fun _ => true) with
  | none => noEvent s
  | some (lid, x) =>
    let r := s.recordOf lid
    if r.isRecon then noEvent s
    else .next (s.setTxn lid x.idx { x with slots := (s.templateSet r x.idx).slots, passed := true })

/-- The stack region of a transaction that is bound for the first time: none when none is free, else the region and the launch with
it taken (R166). -/
def State.regionOf (s : State) (lid : Nat) (l : Launch) (x : Txn) : Option (State × Option Nat) :=
  match x.region with
  | some j => some (s, some j)
  | none =>
    match s.stackFor l with
    | none => none
    | some none => some (s, none)
    | some (some j) => some (s.upLaunch lid (fun l => { l with regions := insertNat j l.regions }), some j)

/-- The transaction binding of a run. -/
def TxnBinding.ofTxn (x : Txn) (recon reconLaunch : Bool) : TxnBinding where
  rn := BitVec.ofNat 48 x.rn
  idx := x.idx
  recon := recon
  restarts := x.restarts
  slots := if recon then Vector.replicate 16 none else x.slots
  stgBase := if recon then 0 else x.stgBase
  stgNeed := if recon then 0 else x.stgNeed
  retired := 0
  reconLaunch := reconLaunch

/-- RECON_PASS_BIND (R289): the pass of the lowest transaction without a set is bound on its landing core, holding no grant, when no
launch before it in priority can bind (R171); binding is an acquire. -/
def execReconPassBind (die : Nat) (t : Tid) (s : State) : Host.Outcome State Fault Refusal :=
  match s.passTarget die with
  | none => noEvent s
  | some (lid, x) =>
    match s.launch? lid with
    | none => noEvent s
    | some l =>
      if !s.firstInLine lid || !(s.passSlots lid die x).contains t then noEvent s
      else if !(s.gatedOf [t]).isEmpty then .next (s.post ((s.gatedOf [t]).map .islandPowerUp ++ [.reconPassBind die t]))
      else
        match s.regionOf lid l x, if l.record.paired then (s.landingPartner lid t 0 1).map some else some none with
        | some (s, region), some partner =>
          let s := s.seat t (s.freshThread lid l x.idx region (some (TxnBinding.ofTxn x true true)))
          let s := match partner with | some p => s.seatShadow t p | none => s
          let s := s.acquireNow t.coreKey scopePkg
          .next (s.setTxn lid x.idx { x with state := .recon, landing := some t, region := region })
        | _, _ => noEvent s

/-- SEQ_RESERVE (R276, step 2): the lowest transaction not yet reserved has its set, and takes a thread and a staging area on its
landing core, when no launch before it in priority can bind (R171). -/
def execSeqReserve (die : Nat) (t : Tid) (s : State) : Host.Outcome State Fault Refusal :=
  match s.reserveTarget die with
  | none => noEvent s
  | some (lid, x) =>
    let set := s.setOfSlots x.slots
    match s.launch? lid with
    | none => noEvent s
    | some l =>
      if !s.firstInLine lid || !(s.reserveSlots lid die x).contains t then noEvent s
      else if !(s.gatedOf [t]).isEmpty then .next (s.post ((s.gatedOf [t]).map .islandPowerUp ++ [.seqReserve die t]))
      else
        match s.holdLanding lid x.idx l t set.need set.align with
        | none => noEvent s
        | some (s, o) =>
          .next ((s.setTxn lid x.idx { x with
            state := .reserved, landing := some t, stgBase := o, stgNeed := set.need
            slots := placeSlots set.slots o }).post [.seqSendRequests die])

/-- Requests at a slice that are not released: distinct keys, and those not granted (R278). -/
def State.lkmLoad (s : State) (slice : Nat) (extra : List TileKey) : Nat × Nat :=
  let own := s.pkg.launches.flatMap (fun e => e.2.txns.flatMap (fun t =>
    t.2.reqs.filter (fun r => !r.released && s.ownsKey r.key && s.keySlice r.key == slice)))
  let far := (s.pkg.podReqs.filter (fun r => s.keySlice r.key == slice)).map (fun r => { KeyReq.sent r.key r.write true with granted := r.granted })
  let all := own ++ far
  let new := extra.filter (fun k => s.keySlice k == slice)
  (((all.map (·.key)) ++ new).eraseDups.length, (all.filter (fun r => !r.granted)).length + new.length)

/-- After step 3 the sequencer announces RN + 1, and with nothing left to number the first RN of its next batch (R277). -/
def State.announceAfter (s : State) (d rn : Nat) (pod : Bool) : State := (s.announce d pod (rn + 1)).announceIdle d pod

/-- SEQ_SEND_REQUESTS (R276, step 3, R278): the lowest transaction not yet sent is reserved and every target lock manager has room;
one request for each key goes out, to the package that owns the key's array, then the horizon. Whether the lock managers of other packages
have room is open (R444; log entry 21). -/
def execSeqSendRequests (die : Nat) (s : State) : Host.Outcome State Fault Refusal :=
  match s.seqTarget die (fun _ => true) (fun x => x.state == .reserved) with
  | none => noEvent s
  | some (lid, x) =>
    let keys := (s.setOfSlots x.slots).keys
    let own := keys.filter (fun k => s.ownsKey k.1)
    let far := keys.filter (fun k => !s.ownsKey k.1)
    let slices := (own.map (fun k => s.keySlice k.1)).eraseDups
    if !slices.all (fun j => let n := s.lkmLoad j (own.map Prod.fst); decide (n.1 ≤ 8192) && decide (n.2 ≤ 16384)) then noEvent s
    else if !far.isEmpty && !Config.chosen .farBrings s.fresh 0 then noEvent s
    else
      let reqs := keys.map (fun k => KeyReq.sent k.1 k.2 (!s.ownsKey k.1))
      let pod := match s.launch? lid with | some l => s.launchPod l | none => false
      let s := s.setTxn lid x.idx { x with state := .requested, reqs := reqs }
      let s := far.foldl (fun s k => match s.arrayOf k.1 with
        | some a => s.sendPod a.owner (.request s.pkgId x.rn k.1 k.2)
        | none => s) s
      let s := (s.post (slices.map (fun j => .lkmRequest j die))).announceAfter die x.rn pod
      .next (if keys.isEmpty then s.post [.transactionBind lid x.idx] else s)

/-- Close every unused batch of a sequencer below an RN (R434, R446). -/
def State.closeBelow (s : State) (d : Nat) (pod : Bool) (rn : Nat) : State :=
  let first := s.batchRn d 0 pod
  let step := (s.seqSpan pod).2 * 256
  let q := if rn ≤ first || step = 0 then 0 else (rn - first + step - 1) / step
  s.upDie d (fun x => if pod then { x with podBatch := Nat.max x.podBatch q } else { x with batch := Nat.max x.batch q })

/-- ASSIGN_RECEIVE (R434, R446): a sequencer closes its unused batches below the assigned one; every transaction given to it has been
numbered when its batch was taken, so that none waits for a number. With none left to send it announces its next batch; else that
announcement follows the last of them (R277). -/
def execAssignReceive (die : Nat) (pod : Bool) (rn : Nat) (s : State) : Host.Outcome State Fault Refusal :=
  if !s.pkg.assigns.contains (die, pod, rn) then noEvent s
  else
    let s := s.upPkg (fun p => { p with assigns := p.assigns.erase (die, pod, rn) })
    .next ((s.closeBelow die pod rn).announceIdle die pod)

/-! Lock managers. -/

/-- Requests sent by a die's sequencer to a slice and not yet received: (launch, transaction, RN). -/
def State.inFlight (s : State) (slice die : Nat) : List (Nat × Txn) :=
  s.pkg.launches.flatMap (fun e => e.2.txns.filterMap (fun t =>
    if t.2.seqDie = die ∧ t.2.reqs.any (fun r => !r.queued && !r.released && s.keySlice r.key == slice) then some (e.1, t.2) else none))

/-- LKM_REQUEST (R277, R279): the requests of one transaction, the lowest on the ordered channel, are queued; what the rules allow is
granted. -/
def execLkmRequest (slice die : Nat) (s : State) : Host.Outcome State Fault Refusal :=
  match lowestTxn (s.inFlight slice die) with
  | none => noEvent s
  | some (lid, x) =>
    let reqs := x.reqs.map (fun r => if s.keySlice r.key = slice then { r with queued := true } else r)
    .next ((s.setTxn lid x.idx { x with reqs := reqs }).grantScan none)

/-- LKM_HORIZON (R277, R435): a slice takes the latest announcements of a sequencer, once every request sent before them has been
received, and grants what the rules allow. -/
def execLkmHorizon (slice die : Nat) (s : State) : Host.Outcome State Fault Refusal :=
  if !(s.inFlight slice die).isEmpty then noEvent s
  else
    let put := fun (s : State) (pod : Bool) (h : Nat) =>
      let v := Nat.max (s.hzFrom slice die pod) h
      s.upPkg (fun p => { p with hzSeen := ((hzSlice slice pod, die), v) :: p.hzSeen.filter (fun e => e.1 != (hzSlice slice pod, die)) })
    let s := put s false (s.die die).horizon
    let s := put s true (s.die die).podHorizon
    .next (s.grantScan none)

/-- The offset of a key's staging copy. -/
def Txn.copyOff (x : Txn) (k : TileKey) : Option Nat :=
  x.slots.toList.findSome? (fun y => match y with | some c => if c.key = k then some c.off else none | none => none)

/-- Where a staging offset of a landing lies: on its core, and on the second copy's when it is paired (R408). -/
def State.pushPlaces (s : State) (x : Txn) (t : Tid) (o : Nat) : List (Nat × Nat) :=
  (t.coreKey, o) :: (s.shadowsOf t).filterMap (fun p =>
    ((s.core p.coreKey).staging.find? (fun a => a.1 == p.tnum)).map (fun a => (p.coreKey, a.2.1 + (o - x.stgBase))))

/-- LKM_PUSH (R280, R408): one granule of a granted tile arrives in staging, with its full bit; the next one follows, and a transaction
whose grants have all arrived can be bound. -/
def execLkmPush (lid idx slot granule : Nat) (s : State) : Host.Outcome State Fault Refusal :=
  match s.txn? lid idx with
  | none => noEvent s
  | some x =>
    match x.reqs[slot]?, x.landing with
    | some q, some t =>
      match x.copyOff q.key with
      | none => noEvent s
      | some o =>
        if !q.granted || q.released || q.pushed.contains granule || decide (q.push.bytes.length ≤ 16 * granule) then noEvent s
        else
          let bs := (q.push.bytes.drop (16 * granule)).take 16
          let put := fun (s : State) (e : Nat × Nat) =>
            s.upCore e.1 (fun k => k.pushGranule e.2 bs (q.push.bad.contains granule))
          let s := (s.pushPlaces x t (o + 16 * granule)).foldl put s
          let s := s.upReq lid idx slot (fun q => { q with pushed := q.pushed ++ [granule] })
          let s := (s.feEvents t.coreKey).stagingEvents t.coreKey
          .next (s.post ([.transactionBind lid idx] ++
            (if 16 * (granule + 1) < q.push.bytes.length then [.lkmPush lid idx slot (granule + 1)] else [])))
    | _, _ => noEvent s

/-! Landing. -/

/-- TRANSACTION_BIND (R282): every grant has reached the landing core, and a stack region is free; the thread starts from the state
of R28, after an acquire at the scope of the launch's arrays. -/
def execTransactionBind (lid idx : Nat) (s : State) : Host.Outcome State Fault Refusal :=
  match s.txn? lid idx, s.launch? lid with
  | some x, some l =>
    match x.landing with
    | none => noEvent s
    | some t =>
      if x.state != .requested || !x.reqs.all (·.granted) then noEvent s
      else
        match s.regionOf lid l x with
        | none => noEvent s
        | some (s, region) =>
          let s := s.seat t (s.freshThread lid l idx region (some (TxnBinding.ofTxn x false l.record.isRecon)))
          let s := s.acquireNow t.coreKey scopePkg
          .next ((s.setTxn lid idx { x with state := .bound, region := region }).checkTxnRunning lid)
  | _, _ => noEvent s

/-- A transaction loses its landing and waits to land again (R414): it keeps its RN, its restarts and every grant. A pass starts
again, a reservation is made again. -/
def State.loseLanding (s : State) (lid idx : Nat) : State :=
  match s.txn? lid idx with
  | none => s
  | some x =>
    match x.landing with
    | none => s
    | some t =>
      let s := (s.freeSlot t).stagingEvents t.coreKey
      match x.state with
      | .recon => s.setTxn lid idx { x with state := .numbered, landing := none }
      | .reserved => s.setTxn lid idx { x with state := .numbered, landing := none }
      | .requested | .bound => s.setTxn lid idx { x with state := .requested, landing := none }
      | _ => s.setTxn lid idx { x with landing := none }

/-- TRANSACTION_RELAND (R414): a transaction that lost its landing takes a new thread and staging area by R174; each held grant is
pushed again. -/
def execTransactionReland (lid idx : Nat) (t : Tid) (s : State) : Host.Outcome State Fault Refusal :=
  match s.txn? lid idx, s.launch? lid with
  | some x, some l =>
    if x.state != .requested || x.landing.isSome then noEvent s
    else
      let set := s.setOfSlots x.slots
      if !(s.landingSlots lid x.seqDie (s.homeCluster x) set.need set.align).contains t then noEvent s
      else if !(s.gatedOf [t]).isEmpty then .next (s.post ((s.gatedOf [t]).map .islandPowerUp ++ [.transactionReland lid idx t]))
      else
        match s.holdLanding lid idx l t set.need set.align with
        | none => noEvent s
        | some (s, o) =>
          let s := s.setTxn lid idx { x with
            landing := some t, stgBase := o, slots := placeSlots set.slots o
            reqs := x.reqs.map (fun q => { q with pushed := [] }) }
          .next (s.post ((List.range x.reqs.length).map (fun i => .lkmPush lid idx i 0) ++ [.transactionBind lid idx]))
  | _, _ => noEvent s

/-! What may happen now. -/

/-- Steps of a sequencer. -/
def State.seqDue (s : State) (d : Nat) : List Instr :=
  let pick := fun (l : List Tid) => (l[Config.pick s.fresh % l.length]?).toList
  [.seqSetCompute d, .seqSendRequests d] ++
  (match s.passTarget d with
    | some (lid, x) => (pick (s.passSlots lid d x)).map (.reconPassBind d)
    | none => []) ++
  (match s.reserveTarget d with
    | some (lid, x) => (pick (s.reserveSlots lid d x)).map (.seqReserve d)
    | none => [])

/-- What is due of a transaction: requests and horizons under way, pushes, binding, landing again. -/
def State.txnDue (s : State) (lid : Nat) (x : Txn) : List Instr :=
  (x.reqs.zipIdx.flatMap (fun e =>
    let j := s.keySlice e.1.key
    if !e.1.queued then [.lkmRequest j x.seqDie]
    else if !e.1.granted then s.presentDies.map (fun d => .lkmHorizon j d)
    else if !e.1.released && !e.1.allPushed then
      ((List.range ((e.1.push.bytes.length + 15) / 16)).filter (fun g => !e.1.pushed.contains g)).map (.lkmPush lid x.idx e.2)
    else []))
  ++ (match x.state, x.landing with
    | .requested, some _ => [.transactionBind lid x.idx]
    | .requested, none =>
      let set := s.setOfSlots x.slots
      let l := s.landingSlots lid x.seqDie (s.homeCluster x) set.need set.align
      ((l[Config.pick s.fresh % l.length]?).toList).map (.transactionReland lid x.idx)
    | _, _ => [])

/-- Steps of sequencers and lock managers that may happen now. -/
def State.txnsDue (s : State) : List Instr :=
  if s.pkg.launches.any (fun e => e.2.record.isTxn && !e.2.state.final) then
    s.presentDies.flatMap s.seqDue ++ s.pkg.launches.flatMap (fun e => e.2.txns.flatMap (fun t => s.txnDue e.1 t.2))
  else []

end Sys2Proof.Machine
end

