-- ==== Sys2Proof/Machine/Assay.lean ====
section
/-! DEFINITION. Units, scores and the status table (R394 to R396), notifications (R405, R406), test leases (R397 to R403),
retirement (R395, R417), scrubbing and patrol (R391, R393). -/

namespace Sys2Proof.Machine

/-! Units. -/

/-- First entry of a class in the status table (R394). -/
def classBase (cls : Nat) : Nat :=
  match cls with | 0 => 0 | 1 => 256 | 2 => 288 | 3 => 320 | _ => 336

/-- The units of a class on a die; a part without Dywin links has none of class 4 (R1, R3). -/
def State.classSize (s : State) (cls d : Nat) : List Nat :=
  match cls with
  | 0 => List.range 256
  | 1 => List.range 32
  | 2 => List.range 32
  | 3 => (if d % 3 < 2 ∧ s.presentDies.contains (d + 1) then [0] else []) ++ (if d / 3 < 2 ∧ s.presentDies.contains (d + 3) then [1] else [])
  | 4 => if s.pkg.units.getLsbD 17 then List.range 4 else []
  | _ => []
/-- The units of a class in ascending order of (die, index). -/
def State.classUnits (s : State) (cls : Nat) : List UnitId :=
  s.presentDies.flatMap (fun d => (s.classSize cls d).map (fun i => ⟨cls, d, i⟩))
/-- A unit of the package. -/
def State.isUnit (s : State) (u : UnitId) : Bool := (s.classUnits u.cls).contains u

/-- The status word of a unit (R396). -/
def UnitStatus.word (x : UnitStatus) : Nat :=
  x.score + (match x.lease with | .inService => 0 | .retired => 2 | _ => 1) * 2 ^ 16 + (if x.marg then 2 ^ 18 else 0) + x.passed * 2 ^ 32

/-- The entry of a unit in the table: STATE 3 for a unit the part does not have (R396). -/
def State.unitWord (s : State) (u : UnitId) : Nat := if s.isUnit u then (s.unitOf u).word else 3 * 2 ^ 16
/-- Store a unit's entry of the table in one store (R396). With USTB zero there is no table. -/
def State.writeEntry (s : State) (u : UnitId) : State :=
  if s.pkg.ustb = 0 then s
  else s.firmwareWrite (field s.pkg.ustb 16 36 * 65536 + 8 * (512 * u.die + classBase u.cls + u.ix)) (leBytes 8 (s.unitWord u))
/-- Every unit that a package can have: those of nine dies with every class. -/
def allUnits : List UnitId :=
  (List.range 9).flatMap (fun d => [(0, 256), (1, 32), (2, 32), (3, 2), (4, 4)].flatMap (fun c =>
    (List.range c.2).map (fun i => ⟨c.1, d, i⟩)))
/-- Firmware writes the whole table (R396, R461). -/
def State.writeTable (s : State) : State := allUnits.foldl State.writeEntry s

/-- Change a unit's status and store its entry of the table (R396). -/
def State.upUnit (s : State) (u : UnitId) (f : UnitStatus → UnitStatus) : State := (s.setUnit (f (s.unitOf u))).writeEntry u

/-- A suspicion score rises, saturating; on reaching 256, and on reaching 1,024, an early lease is due (R395). -/
def UnitStatus.gain (x : UnitStatus) (n : Nat) : UnitStatus :=
  let y := Nat.min 65535 (x.score + n)
  { x with score := y, due := x.due || decide (1024 ≤ y), early := x.early || (decide (x.score < 256) && decide (256 ≤ y)) || (decide (x.score < 1024) && decide (1024 ≤ y)) }
/-- Charge a unit's suspicion score (R395). -/
def State.charge (s : State) (u : UnitId) (n : Nat) : State := s.upUnit u (fun x => x.gain n)

/-! Notifications (R405, R406). -/

/-- Cores in service in the package. -/
def State.coresUp (s : State) : Nat := ((s.classUnits 0).filter s.unitUp).length

/-- Post a notification to a launch: numbered, and queued unless 16 are unacknowledged. -/
def Launch.notify (l : Launch) (kind : Nat) (u : UnitId) (avail : Nat) : Launch :=
  let n := l.capSeq + 1
  let w : Word := BitVec.ofNat 64 (n.toNat + kind * 2 ^ 16 + u.cls * 2 ^ 19 + u.die * 2 ^ 22 + u.ix * 2 ^ 32 + avail * 2 ^ 48)
  if l.capQ.length < 16 then { l with capSeq := n, capQ := l.capQ ++ [w] } else { l with capSeq := n, capOvf := true }

/-- Post a notification of a change of a core, cluster-engine or link unit to every READY or RUNNING launch (R405). -/
def State.notify (s : State) (kind : Nat) (u : UnitId) : State :=
  if u.cls = 2 then s
  else
    let n := s.coresUp
    s.upPkg (fun p => { p with launches := p.launches.map (fun e =>
      if e.2.state == .ready || e.2.state == .running then (e.1, e.2.notify kind u n) else e) })

/-! Leases (R397, R398). -/

/-- Leased units of a class on a die. -/
def State.leasedOn (s : State) (cls d : Nat) : List Nat :=
  ((s.classSize cls d).filter (fun i => match (s.unitOf ⟨cls, d, i⟩).lease with | .draining => true | .testing => true | _ => false))

/-- The limits on leases held at one moment (R397). -/
def State.leaseRoom (s : State) (u : UnitId) : Bool :=
  match u.cls with
  | 0 => (s.leasedOn 0 u.die).all (fun c => clusterOf c != clusterOf u.ix)
  | 1 => (s.leasedOn 1 u.die).all (fun k => nextInRing k != u.ix && nextInRing u.ix != k)
  | 2 => (s.leasedOn 2 u.die).isEmpty
  | _ => (s.leasedOn 3 u.die).isEmpty && (s.leasedOn 4 u.die).isEmpty

/-- The period of a class in hours (ASSAYCFG). -/
def State.leasePeriod (s : State) (cls : Nat) : Nat := if cls ≤ 1 then field s.pkg.assaycfg 0 8 else field s.pkg.assaycfg 8 8

/-- A place in the order of a class. -/
def unitPlace (u : UnitId) : Nat := 512 * u.die + u.ix + 1

/-- The next unit of a class in the periodic order: the first in service after the last one leased, around. -/
def State.nextLease (s : State) (cls : Nat) : Option UnitId :=
  let last := s.pkg.leased.toList.getD cls 0
  let up := (s.classUnits cls).filter s.unitUp
  (up.find? (fun u => decide (last < unitPlace u))).orElse (fun _ => up.head?)

/-- The units for which an early lease is due (R395). -/
def State.earlyUnits (s : State) (cls : Nat) : List UnitId :=
  (s.classUnits cls).filter (fun u => s.unitUp u && (s.unitOf u).early)

/-- A lease asks for a kernel thread's pre-emption: a second copy's request is its leader's, and a frozen thread's stays pending until
it runs again (R399, R410). -/
def State.leaseAsk (s : State) (t : Tid) : State :=
  match (s.thread t).status with
  | .shadow l => s.askPreempt l
  | .frozen _ | .resuming _ => if (s.thread t).bind.txn then s else s.upThread t (fun x => { x with preempt := true })
  | _ => s.askPreempt t

/-- Ask every thread that owns a bank of an MXE, or every thread of a core, to leave (R399, R401). -/
def State.drainUnit (s : State) (u : UnitId) : State :=
  let ts := match u.cls with
    | 0 => (List.range 8).map (fun n => (⟨u.die, u.ix, n⟩ : Tid))
    | 1 => ((List.range 8).filterMap (fun b => (s.bank (u.die * 32 + u.ix) b).owner)).eraseDups
    | _ => []
  ts.foldl State.leaseAsk s

/-- A unit holds no work (R399, R401, R402, R403). -/
def State.drained (s : State) (u : UnitId) : Bool :=
  match u.cls with
  | 0 => !s.coreBusy (u.die * 256 + u.ix)
  | 1 =>
    let cl := u.die * 32 + u.ix
    (List.range 8).all (fun b => (s.bank cl b).owner.isNone)
      && s.cores.all (fun e => (e.2.mxq ++ e.2.rsq ++ e.2.btq).all (fun j => j.cl != cl))
  | _ => true

/-- The boundary between two neighbouring dies (R394, R426). -/
def boundaryOf (d e : Nat) : UnitId := if d < e then ⟨3, d, if e = d + 1 then 0 else 1⟩ else ⟨3, e, if d = e + 1 then 0 else 1⟩
/-- The dies that border a die over a boundary that is in service, or is `also`: those at +x and −x first (R426, R427). -/
def State.neighbours (s : State) (also : Option UnitId) (d : Nat) : List Nat :=
  let x := (if d % 3 < 2 then [d + 1] else []) ++ (if 0 < d % 3 then [d - 1] else [])
  let y := (if d / 3 < 2 then [d + 3] else []) ++ (if 3 ≤ d then [d - 3] else [])
  (x ++ y).filter (fun e => s.presentDies.contains e && (s.unitUp (boundaryOf d e) || also == some (boundaryOf d e)))
/-- Dies reached from a set in at most n crossings. -/
def State.reach (s : State) (also : Option UnitId) : Nat → List Nat → List Nat
  | 0, l => l
  | n + 1, l => State.reach s also n (l ++ (l.flatMap (s.neighbours also)).filter (fun e => !l.contains e)).eraseDups
/-- Every two present dies have a route (R427). -/
def State.routed (s : State) : Bool :=
  let r := s.reach none 8 (s.presentDies.take 1)
  s.presentDies.all r.contains
/-- The boundaries that a message crosses from one die to another (R427): those of the shortest route, at each die the first that is
shortest, along x before y; none when there is no route. By fuel. -/
def State.routeFrom (s : State) (also : Option UnitId) (b : Nat) : Nat → Nat → List UnitId
  | 0, _ => []
  | n + 1, a =>
    if a = b then []
    else
      let dist := fun e => ((List.range 9).find? (fun k => (s.reach also k [e]).contains b)).getD 9
      match (s.neighbours also a).find? (fun e => dist e + 1 == dist a) with
      | some e => boundaryOf a e :: State.routeFrom s also b n e
      | none => []
/-- The route of a message between two dies. -/
def State.route (s : State) (also : Option UnitId) (a b : Nat) : List UnitId := s.routeFrom also b 9 a
/-- Messages between two dies, one way or the other, cross a boundary. -/
def State.crosses (s : State) (u : UnitId) (a b : Nat) : Bool := (s.route (some u) a b).contains u || (s.route (some u) b a).contains u

/-- A unit leaves service: notification KIND 1 to every launch READY or RUNNING (R398, R405). -/
def State.withdraw (s : State) (u : UnitId) : State := (s.upUnit u (fun x => { x with lease := .draining, early := false })).notify 1 u
/-- The work of a leased unit is asked to leave (R398). A boundary without which two dies have no route makes a fatal error (R427). -/
def State.clearLeased (s : State) (u : UnitId) : State :=
  let s := s.drainUnit u
  if u.cls = 3 && !s.routed then s.post [.fatalError 1] else s

/-- LEASE_ISSUE (R395, R397, R398): an early lease, or the next periodic one of its class when EN = 1 and none is early, within the
limits. -/
def execLeaseIssue (u : UnitId) (s : State) : Host.Outcome State Fault Refusal :=
  let early := s.earlyUnits u.cls
  let periodic := s.pkg.assaycfg.getLsbD 20 && s.leasePeriod u.cls != 0 && early.isEmpty && s.nextLease u.cls == some u
  if !s.isUnit u || !s.unitUp u || !s.leaseRoom u || !(early.contains u || periodic) then noEvent s
  else
    let s := if periodic then s.upPkg (fun p => { p with leased := p.leased.setIfInBounds u.cls (unitPlace u) }) else s
    .next (((s.withdraw u).clearLeased u).post [.leaseDrainComplete u])

/-- A unit returns to service (R398), with its retirement still due once its score has reached 1,024 (R395); a pointer of the
lending arbiter at 8 or above moves to 0 (R401). -/
def State.endLease (s : State) (u : UnitId) (f : UnitStatus → UnitStatus) : State :=
  let s := s.upUnit u (fun x =>
    let y := f x
    { y with lease := .inService, contained := false, early := y.early || y.due })
  let s := if u.cls = 1 then
      s.upCluster (u.die * 32 + nextInRing u.ix) (fun k => if 8 ≤ k.ptr then { k with ptr := 0, left := 0 } else k)
    else s
  s.notify 2 u

/-- The body of a retirement record (R417). -/
def retireBody (num : Nat) (u : UnitId) (cause score pattern lid : Nat) : List Byte :=
  leBytes 4 0x54524C59 ++ leBytes 4 num ++ leBytes 1 u.cls ++ leBytes 1 u.die ++ leBytes 2 u.ix ++ leBytes 1 cause ++ leBytes 3 0
    ++ leBytes 2 score ++ leBytes 2 pattern ++ leBytes 4 0 ++ leBytes 8 lid ++ leBytes 32 0

/-- An object and its signature by the device key, whose salt is open (R456). -/
def State.signed (s : State) (body : List Byte) : List Byte :=
  body ++ pssSign s.pkg.devKey.modulus s.pkg.devKey.priv body (tabulate 64 (fun i => Config.pageByte s.fresh i))

/-- Retire a unit: its signed record is written to flash and to firmware's copy, with a pattern number that is open, and the
notification is KIND 3 (R395, R398, R417). A memory channel retired here stays in service until the next package reset (R402). -/
def State.retireUnit (s : State) (u : UnitId) (cause : Nat) : State :=
  let score := (s.unitOf u).score
  let num := field s.pkg.retinfo 0 13
  let s := s.upUnit u (fun x => { x with lease := .retired, early := false, failed := u.cls = 2 })
  let s := if 4096 ≤ num then s
    else
      let body := retireBody num u cause score (if cause = 1 then 0 else field (Config.word s.fresh) 0 16) (s.lidWord s.pkg.lastLid).toNat
      let rec_ := s.signed body
      let s := s.upPkg (fun p => { p with retired := p.retired ++ [rec_], retinfo := p.retinfo + 1 })
      if field s.pkg.retinfo 16 36 = 0 then s
      else s.firmwareWrite (field s.pkg.retinfo 16 36 * 65536 + 576 * num) rec_
  s.notify 3 u

/-- LEASE_DRAIN_COMPLETE (R398, R395): a leased unit without work is tested; one whose score has reached 1,024, whatever it has decayed
to since, is retired untested. -/
def execLeaseDrainComplete (u : UnitId) (s : State) : Host.Outcome State Fault Refusal :=
  if (s.unitOf u).lease != .draining || !s.drained u then noEvent s
  else if (s.unitOf u).due then .next (s.retireUnit u 1)
  else .next (s.upUnit u (fun x => { x with lease := .testing }))

/-- LEASE_DRAIN_TIMEOUT (R398): a unit that has not drained returns to service. -/
def execLeaseDrainTimeout (u : UnitId) (s : State) : Host.Outcome State Fault Refusal :=
  if (s.unitOf u).lease != .draining || s.drained u then noEvent s else .next (s.endLease u id)

/-- ASSAY_RESULT (R398, R402, R412): PASS and MARGINAL return the unit; FAIL retires it. A channel that fails stays in service until
the next package reset. -/
def execAssayResult (u : UnitId) (res : AssayOutcome) (s : State) : Host.Outcome State Fault Refusal :=
  if (s.unitOf u).lease != .testing then noEvent s
  else
    match res with
    | .pass => .next (s.endLease u (fun x => { x with marg := false, passed := x.passed + 1 }))
    | .marginal =>
      .next (s.endLease u (fun x => { x.gain 32 with marg := true, passed := x.passed + 1 }))
    | .fail =>
      if u.cls = 2 then .next (s.upUnit u (fun x => { x with lease := .inService, failed := true }))
      else .next (s.retireUnit u (if (s.unitOf u).contained then 3 else 2))

/-- CHANNEL_TEST_WINDOW (R402): rows are tested in place; accesses are delayed, in order, and nothing else is seen. -/
def execChannelTestWindow (_die _ch : Nat) (s : State) : Host.Outcome State Fault Refusal := .next s

/-! Scores. -/

/-- SCORE_DECAY (R395): every score is halved. -/
def execScoreDecay (s : State) : Host.Outcome State Fault Refusal :=
  .next ((s.pkg.unitTab.map (·.uid)).foldl (fun s u => s.upUnit u (fun x => { x with score := x.score / 2 })) s)

/-- REGISTER_SCRUB (R391): the word keeps its value; whether it held a correctable error, which charges the core, is open (log entry
22). -/
def execRegisterScrub (core : Nat) (_word : Nat) (s : State) : Host.Outcome State Fault Refusal :=
  if Config.chosen .correctedError s.fresh 0 then .next (s.charge ⟨0, core / 256, core % 256⟩ 1) else .next s

/-- PATROL_READ (R393): with EN = 1 a line of the channel (R213; with channels retired its place is open, R402) is read; corrected
data is what the row holds already, so memory keeps its value; whether there was an error, which charges the channel, is open (log
entry 22). -/
def execPatrolRead (die ch : Nat) (pa : Nat) (s : State) : Host.Outcome State Fault Refusal :=
  if pa / 2 ^ 36 != die || !s.paPopulated pa || (s.lostChannels die == 0 && channelOf pa != ch) then noEvent s
  else if (s.die die).patrol.getLsbD 8 && Config.chosen .correctedError s.fresh 0 then .next (s.charge ⟨2, die, ch⟩ 1) else .next s

/-- FLIT_REPLAY (R426, R437): the flit is sent again and the link's score rises. -/
def execFlitReplay (u : UnitId) (s : State) : Host.Outcome State Fault Refusal :=
  if (u.cls = 3 ∨ u.cls = 4) ∧ s.isUnit u then .next (s.charge u 1) else noEvent s

/-! What may happen now. -/

/-- Leases and their ends that may happen now. -/
def State.leasesDue (s : State) : List Instr :=
  ((List.range 5).flatMap (fun c => s.earlyUnits c ++ (s.nextLease c).toList)).map .leaseIssue
    ++ s.pkg.unitTab.flatMap (fun x => match x.lease with
      | .draining => [.leaseDrainComplete x.uid, .leaseDrainTimeout x.uid]
      | .testing => [.assayResult x.uid .pass, .assayResult x.uid .marginal, .assayResult x.uid .fail]
      | _ => [])

end Sys2Proof.Machine
end

