-- ==== Sys2Proof/Machine/Cle.lean ====
section
/-! DEFINITION. The collective engine (R342 to R344, R453). -/

namespace Sys2Proof.Machine

/-- UNIT_ABSENT when the part has no CLE (R4). -/
def needCle (s : State) : Except Stop Unit := need (s.pkg.units.getLsbD 14) .UNIT_ABSENT

/-- The formats of a collective (R343). -/
def colFormat (f : BitVec 5) : Bool :=
  f == 0x04 || f == 0x05 || f == 0x06 || f == 0x07 || f == 0x09 || f == 0x0A || f == 0x0B

/-- BASE and STRIDE are multiples of the element size (R323). -/
def TensorHandle.aligned (h : TensorHandle) : Bool := h.base.toNat % h.eb == 0 && h.stride.toNat % h.eb == 0

/-- The last steps of a collective's submission: the scratch checks, and the launch's count on this die (R342). -/
def colSubmit (s : State) (x : SReg) (op : JobOp) (ps : List Piece) : Except Stop State := do
  needRange s ps
  needWindow s ps
  let lid := s.me.bind.lid
  let n := match s.launch? lid with | some l => (Assoc.find s.cur.die l.collectives).getD 0 | none => 0
  let job := { s.newJob op s.cur.clusterKey none with seqNo := n }
  let s := s.upLaunch lid (fun l => { l with collectives := Assoc.put s.cur.die (n + 1) l.collectives })
  submit s .cle x job

/-- COLRED (R343). -/
def execColred (hd ha : HReg) (acc : BitVec 3) (x : SReg) (s : State) : Host.Outcome State Fault Refusal :=
  let d := s.me.rh hd
  let a := s.me.rh ha
  let c := s.cur.coreKey
  seq32 s (do
    needCle s
    need (!s.me.bind.txn) .TX_STORE
    need (decide (4 ≤ s.me.bind.level)) .COL_LEVEL
    needArray d
    needArray a
    need (colFormat d.fmt && colFormat a.fmt) .BTU_FORMAT
    need (d.aligned && a.aligned) .BTU_SHAPE
    colSubmit s x (.colred d a acc) (d.arrayPieces (d.ownPlace c) d.base.toNat true ++ a.arrayPieces (a.ownPlace c) a.base.toNat false))

/-- COLBC (R343): an empty ha names no source, and is not held to HANDLE_EMPTY, BTU_FORMAT and BTU_SHAPE; a reserved FMT of it still raises
BAD_FORMAT, of which the spec says nothing for a handle that names no source (DESIGN CHOICE, log entry 79). -/
def execColbc (hd ha : HReg) (x : SReg) (s : State) : Host.Outcome State Fault Refusal :=
  let d := s.me.rh hd
  let a := s.me.rh ha
  let c := s.cur.coreKey
  seq32 s (do
    needCle s
    need (!s.me.bind.txn) .TX_STORE
    need (decide (4 ≤ s.me.bind.level)) .COL_LEVEL
    needArray d
    need (!a.badFmt) .BAD_FORMAT
    need (colFormat d.fmt && (a.empty? || colFormat a.fmt)) .BTU_FORMAT
    need (d.aligned && (a.empty? || a.aligned)) .BTU_SHAPE
    colSubmit s x (.colbc d a) (d.arrayPieces (d.ownPlace c) d.base.toNat true
      ++ (if a.empty? then [] else a.arrayPieces (a.ownPlace c) a.base.toNat false)))

/-- COLWAIT (R344). -/
def execColwait (x : SReg) (s : State) : Host.Outcome State Fault Refusal :=
  if s.pkg.units.getLsbD 14 then jobWait .cle x s else seq32 s (trap .UNIT_ABSENT)

/-! Execution. -/

/-- r := op(r, x) in a format (R343): acc[2:1] selects sum, maximum or minimum. -/
def colOp (fmt : BitVec 5) (fpm : BitVec 6) (acc : BitVec 3) (r x : Nat) : Nat × BitVec 5 :=
  let o := acc.extractLsb' 1 2
  match elemOf fmt.toNat with
  | some (.flt F) =>
    if o = 0 then F.finish fpm ((F.operand fpm r).add fpm (F.operand fpm x)) else F.maxmin fpm (o = 1) r x
  | some (.int sg w) =>
    let v := fun (n : Nat) => if sg then toSigned w n else ((n % 2 ^ w : Nat) : Int)
    if o = 0 then ((r + x) % 2 ^ w, 0)
    else if o = 1 then (if v r < v x then x else r, 0)
    else (if v x < v r then x else r, 0)
  | _ => (r, 0)

/-- The job of a die's c-th collective of a launch, with its core. -/
def State.colJob (s : State) (lid d c : Nat) : Option (Nat × Job) :=
  (List.range 256).findSome? (fun k =>
    let core := d * 256 + k
    ((s.core core).clq.find? (fun j => j.seqNo == c && (s.thread j.owner).bind.lid == lid)).map (fun j => (core, j)))

/-- A participant's handles: hd, ha, the operation and pattern, or none for a broadcast. -/
def JobOp.col : JobOp → Option (TensorHandle × TensorHandle × Option (BitVec 3))
  | .colred d a acc => some (d, a, some acc)
  | .colbc d a => some (d, a, none)
  | _ => none

/-- Elements of a whole array. -/
def TensorHandle.count (h : TensorHandle) : Nat := if h.empty? then 0 else h.rows.toNat * h.cols.toNat

/-- The values of an input, in element order. -/
def State.colInput (s : State) (j : Job) (a : TensorHandle) : State × List Nat × Option Nat :=
  s.readRun j (a.ownPlace j.owner.coreKey) a.eb
    ((List.range a.count).map (fun e => a.addr a.base.toNat (e / a.cols.toNat) (e % a.cols.toNat)))

/-- The values that n participants of other packages bring for E elements, which are open (log entry 20). -/
def State.farInputs (s : State) (n e : Nat) (w : Nat) : State × List (List Nat) :=
  ({ s with fresh := s.fresh + n * e },
    tabulate n (fun i => tabulate e (fun k => (Config.word (s.fresh + i * e + k)).toNat % 2 ^ w)))

/-- The conditions checked across the participants of this package (R343). -/
def colMatch (js : List Job) (p e : Nat) : Bool :=
  match js.head?.bind (fun j => j.op.col.map (fun x => (j.fpm, x))) with
  | none => false
  | some (fpm, d0, _, acc0) =>
    let roots := (js.filter (fun j => match j.op.col with | some (_, a, _) => !a.empty? | none => false)).length
    js.all (fun j => match j.op.col with
      | none => false
      | some (d, a, acc) =>
        j.fpm == fpm && acc == acc0 && d.fmt == d0.fmt && (a.empty? || a.fmt == d0.fmt)
          && (match acc with
            | some f => a.count == e && (if f.getLsbD 0 then e % p == 0 && d.count == e / p else d.count == e)
            | none => d.count == e))
      && (acc0.isSome || decide (roots ≤ 1))

/-- Every element of a collective (R343): the result and the flags. -/
def colReduce (fmt : BitVec 5) (fpm : BitVec 6) (acc : BitVec 3) (inputs : List (List Nat)) (e : Nat) : List Nat × BitVec 5 :=
  let r := tabulate e (fun k =>
    match inputs.map (fun l => l.getD k 0) with
    | [] => (0, 0)
    | x :: xs => xs.foldl (fun (r : Nat × BitVec 5) y => let z := colOp fmt fpm acc r.1 y; (z.1, r.2 ||| z.2)) (x, 0))
  (r.map Prod.fst, r.foldl (fun f x => f ||| x.2) 0)

/-- Write a participant's output: elements of the list from its first on. A refused grant of it fails this participant alone, with its
cause, and leaves any subset of its granules written; of a refused output the spec says nothing (DESIGN CHOICE, log entry 42). -/
def colWrite (s : State) (j : Job) (d : TensorHandle) (vals : List Nat) : State × Job :=
  let r := gather (fun s (x : Nat × Nat) =>
    s.jobOut j (d.ownPlace j.owner.coreKey) (d.addr d.base.toNat (x.2 / d.cols.toNat) (x.2 % d.cols.toNat)) (leBytes d.eb x.1))
    vals.zipIdx s
  (r.1.performAll j r.2.1.flatten r.2.2, { j with fail := r.2.2 })

/-- A participant's job is the oldest of its core: a core's collectives complete in order (R331, R344). -/
def State.colHead (s : State) (x : Nat × Job) : Bool := ((s.core x.1).clq.head?.map Job.id) == some x.2.id

/-- The next collectives of some cores are due. -/
def State.nextCols (s : State) (js : List (Nat × Job)) : State :=
  js.foldl (fun s x =>
    match (s.core x.1).clq.head? with
    | some j => s.postOnce (j.event .cle x.1 (s.thread j.owner).bind.lid)
    | none => s) s

/-- End a collective with the same failure everywhere. -/
def failAll (s : State) (js : List (Nat × Job)) (cause : Nat) : State :=
  js.foldl (fun s x => s.completeJob x.1 .cle { x.2 with fail := some cause } x.2.cl) s

/-- The cause with which the c-th collective of a launch fails whole: its own, or LINK once its gang is lost (R450). -/
def Launch.lostCause (l : Launch) (c : Nat) : Option Nat :=
  (Assoc.find c l.lostCols).orElse (fun _ => if l.gang = 3 then some 3 else none)

/-- The inputs of this package's participants, in ring order; the first refusal. -/
def State.ownInputs (s : State) (js : List (Nat × Job)) : State × List (List Nat) × Option Nat :=
  gather (fun s (x : Nat × Job) =>
    match x.2.op.col with
    | some (_, a, _) => let r := s.colInput x.2 a; (match r.2.2 with | some e => .error e | none => .ok (r.1, r.2.1))
    | none => .ok (s, [])) js s

/-- What a collective whose participants have all joined gives, with the reads of its inputs: the output of each participant here and
the flags, or the cause with which it fails everywhere (R343). -/
def State.colOutcome (s : State) (l : Launch) (js : List (Nat × Job)) : State × Except Nat (List (List Nat) × BitVec 5) :=
  let lo := l.gangLo.1
  let hi := l.gangHi.1
  let p := lo + js.length + hi
  let far := 0 < lo + hi
  let first := js.head?.bind (fun x => x.2.op.col)
  let root := js.find? (fun x => match x.2.op.col with | some (_, a, _) => !a.empty? | none => false)
  let bc := js.any (fun x => match x.2.op.col with | some (_, _, none) => true | _ => false)
  let e := match root with
    | some x => (match x.2.op.col with | some (_, a, _) => a.count | none => 0)
    | none => (match first with | some (d, _, _) => d.count | none => 0)
  if !colMatch (js.map Prod.snd) p e || (bc && root.isNone && !far) || (far && !Config.chosen .farOperands s.fresh 0) then (s, .error 2)
  else
    let r := s.ownInputs js
    match r.2.2 with
    | some cause => (r.1, .error cause)
    | none =>
      let fmt := match first with | some (d, _, _) => d.fmt | none => 0
      let w := 8 * fmtBytes fmt.toNat
      let fpm := match js.head? with | some x => x.2.fpm | none => 0
      let before := r.1.farInputs lo e w
      let after := before.1.farInputs hi e w
      let acc := match first with | some (_, _, some a) => a | _ => 0
      let res := if bc then
          ((match r.2.1.find? (fun l => !l.isEmpty) with | some l => l | none => (before.2 ++ after.2).headD []), 0)
        else colReduce fmt fpm acc (before.2 ++ r.2.1 ++ after.2) e
      let n := e / p
      let share := fun (i : Nat) => if !bc && acc.getLsbD 0 then (res.1.drop ((lo + i) * n)).take n else res.1
      (after.1, .ok (tabulate js.length share, res.2))

/-- Write a free subset of a participant's output, element by element: each whole, and the choice its own (R439). -/
def colWriteSome (s : State) (core : Nat) (j : Job) (d : TensorHandle) (vals : List Nat) : State :=
  let some_ := vals.zipIdx.filter (fun x => Config.granuleWritten s.fresh (2 ^ 61 + core * 2 ^ 48 + x.2))
  let r := gather (fun s (x : Nat × Nat) =>
    s.jobOut j (d.ownPlace j.owner.coreKey) (d.addr d.base.toNat (x.2 / d.cols.toNat) (x.2 % d.cols.toNat)) (leBytes d.eb x.1)) some_ s
  r.1.performAll j r.2.1.flatten none

/-- A collective that lost a message (cause LINK), or that used an uncorrectable error (CLEUE; log entry 62), fails on every
participant that has joined; any subset of the elements of its result may be written once all have joined (R343, R344, R439). -/
def failLost (s : State) (l : Launch) (js : List (Nat × Job)) (joined : Bool) (cause : Nat) : State :=
  let z := match if joined then s.colOutcome l js else (s, .error cause) with
    | (r, .ok (vals, _)) =>
      if s.urgent.length < r.urgent.length then s
      else (js.zip vals).foldl (fun s x => match x.1.2.op.col with
        | some (d, _, _) => colWriteSome s x.1.1 x.1.2 d x.2
        | none => s) r
    | (_, .error _) => s
  failAll z js cause

/-- COLLECTIVE_EXECUTE (R342, R343): once every participant has joined, its c-th collective of a launch is checked and combined in
ring order. Whether those of other packages have joined is open (log entry 20). -/
def execCollectiveExecute (lid c : Nat) (s : State) : Host.Outcome State Fault Refusal :=
  match s.launch? lid with
  | none => noEvent s
  | some l =>
    let found := s.presentDies.map (fun d => (s.colJob lid d c).filter s.colHead)
    let js := found.filterMap id
    let joined := found.all Option.isSome && (decide (l.gangLo.1 + l.gangHi.1 = 0) || Config.chosen .farBrings s.fresh 0)
    match l.lostCause c with
    | some cause => .next ((failLost s l js joined cause).nextCols js)
    | none =>
      if !found.all Option.isSome then noEvent s
      else if !joined then .next (s.post [.collectiveExecute lid c])
      else
        match s.colOutcome l js with
        | (r, .error cause) => .next (s.unlessPoisoned ((failAll r js cause).nextCols js))
        | (r, .ok (vals, flags)) =>
          let done := (js.zip vals).foldl (fun s x =>
            match x.1.2.op.col with
            | some (d, _, _) => let y := colWrite s { x.1.2 with flags := flags } d x.2; y.1.completeJob x.1.1 .cle y.2 y.2.cl
            | none => s) r
          .next (s.unlessPoisoned (done.nextCols js))

end Sys2Proof.Machine
end

