-- ==== Sys2Proof/Machine/FrontEnd.lean ====
section
/-! DEFINITION. The front end (R345 to R359): doorbells, queues and slots, packet fetch, and the packets. -/

namespace Sys2Proof.Machine

/-! Ports and queues. -/

/-- A port's registers. -/
def State.port (s : State) (b : Bool) : Port := if b then s.pkg.portB else s.pkg.portA
/-- Change a port's registers. -/
def State.upPort (s : State) (b : Bool) (f : Port → Port) : State :=
  s.upPkg (fun p => if b then { p with portB := f p.portB } else { p with portA := f p.portA })

/-- A queue the front end has not seen. -/
def Queue.fresh : Queue where
  pending := false
  slot := none
  ctl := 0
  win := []
  levels := []
  armed := []
  bundles := []
  run := 0
  fault := none
  killed := false
  faultAt := (0, 0)
  agedAt := 0
  ask := none
  busy := false
  ahead := []

/-- A queue. -/
def State.queue (s : State) (q : Nat) : Queue := (Assoc.find q s.pkg.queues).getD Queue.fresh
/-- Change a queue. -/
def State.upQueue (s : State) (q : Nat) (f : Queue → Queue) : State :=
  s.upPkg (fun p => { p with queues := Assoc.put q (f ((Assoc.find q p.queues).getD Queue.fresh)) p.queues })

/-- Address of a QCB (R347). -/
def State.qcb (s : State) (q : Nat) : Nat := s.pkg.qtbase.toNat * 65536 + 256 * q
/-- Read a field of a QCB. -/
def State.qGet (s : State) (q off n : Nat) : Nat := s.mem.num (s.qcb q + off) n
/-- CTL to LOGSZ of a queue: as read at mapping while it is mapped, else as they stand (R347). -/
def State.qCtl (s : State) (q : Nat) : Word :=
  if (s.queue q).slot.isSome then (s.queue q).ctl else BitVec.ofNat 64 (s.qGet q 0 8)
/-- CTL.PORT of a queue. -/
def State.qPort (s : State) (q : Nat) : Bool := (s.qCtl q).getLsbD 0
/-- Write a field of a QCB, from the front end of the queue's port. -/
def State.qPut (s : State) (q off n v : Nat) : State := s.portWrite (s.qPort q) (s.qcb q + off) (leBytes n v)

/-- STATE values of a QCB. -/
def qIdle : Nat := 0
/-- PENDING. -/
def qPending : Nat := 1
/-- MAPPED. -/
def qMapped : Nat := 2
/-- ERROR. -/
def qError : Nat := 3
/-- DISABLED. -/
def qDisabled : Nat := 4

/-- STATE of a queue. -/
def State.qState (s : State) (q : Nat) : Nat := s.qGet q 0x18 1
/-- Effective priority of a queue (R351). -/
def State.qPrio (s : State) (q : Nat) : Nat :=
  let p := field (s.qCtl q) 1 3
  if p = 7 then 7 else Nat.min (p + s.qGet q 0x19 1) 6

/-- Every queue of the table that is in a state: those the front end has seen. -/
def State.queuesIn (s : State) (st : Nat) : List Nat := (s.pkg.queues.map Prod.fst).filter (fun q => s.qState q == st)
/-- PENDING queues of a port. -/
def State.pendingOf (s : State) (port : Bool) : List Nat := (s.queuesIn qPending).filter (fun q => s.qPort q == port)

/-- Raise an MSI-X vector of a port. -/
def State.raise (s : State) (port : Bool) (vec : Nat) : State := s.upPort port (fun p => { p with msix := p.msix ++ [vec] })
/-- Raise a queue's vector on its port. -/
def State.raiseQueue (s : State) (q : Nat) : State := s.raise ((s.queue q).ctl.getLsbD 0) (field (s.queue q).ctl 48 8 % 64)

/-- A queue leaves its slot into a state. -/
def State.leaveSlot (s : State) (q st : Nat) : State := (s.upQueue q (fun x => { x with slot := none, run := 0 })).qPut q 0x18 1 st

/-- Forget the packet stream of a queue. -/
def Queue.stop (x : Queue) : Queue := { x with levels := [], fault := none, killed := false, busy := false, ahead := [] }

/-- An error of R358: ERR, STATE ERROR, the slot is freed and the queue's vector is raised; a reset or disable that waited for the packet
acts now (R350). -/
def State.queueError (s : State) (q cause level off value va : Nat) : State :=
  let s := s.portWrite (s.qPort q) (s.qcb q + 0x80)
    (leBytes 4 cause ++ leBytes 4 (s.qGet q 0x14 4) ++ leBytes 1 level ++ leBytes 1 off ++ leBytes 6 0 ++ leBytes 8 value ++ leBytes 8 va)
  let s := ((s.leaveSlot q qError).upQueue q Queue.stop).raiseQueue q
  if (s.queue q).ask.isSome then s.post [.fePendingService q] else s

/-! Doorbells. -/

/-- The doorbell that a write to a slot page makes (R348): offset 0x000, a word of 32 or 64 bits whose upper half the caller has zeroed in
the former case; CMD 3, and any other offset, is ignored. -/
def doorbellOf (port : Bool) (page off : Nat) (v : Word) : Option Instr :=
  if off = 0 then
    match field v 16 2 with
    | 0 => some (.doorbellRing port page (v.extractLsb' 0 16))
    | 1 => some (.doorbellReset port page (v.extractLsb' 0 16))
    | 2 => some (.doorbellDisable port page (v.extractLsb' 0 16))
    | _ => none
  else none

/-- The word of a slot page (R348): at offset 0x000 the QID mapped on the slot and bit 16, while a queue is mapped; 0 elsewhere. -/
def State.doorbellWord (s : State) (page off : Nat) : Word :=
  match s.pkg.queues.find? (fun e => e.2.slot == some page) with
  | some e => if off = 0 then BitVec.ofNat 64 (e.1 + 65536) else 0
  | none => 0

/-- A doorbell is dropped (R348, R461): before the package is ready, on a page of the other port, for a queue beyond the table or of
the other port, or a ring for a queue in ERROR or DISABLED. -/
def State.dropsDoorbell (s : State) (port : Bool) (page : Nat) (q : Nat) (ring : Bool) : Bool :=
  field s.pkg.bootst 0 4 != 5 || !(s.port port).slotport.getLsbD page || decide (s.pkg.qtlen.toNat < q) || s.qPort q != port
    || (ring && (s.qState q == qError || s.qState q == qDisabled))

/-- Count a dropped doorbell, saturating. -/
def State.countDrop (s : State) (port : Bool) : State :=
  s.upPort port (fun p => { p with dbdrop := if p.dbdrop = BitVec.allOnes 32 then p.dbdrop else p.dbdrop + 1 })

/-- The islands a doorbell wakes (R349): the host interface and firmware, island 22. -/
def State.wakeHost (s : State) : List Instr := if s.pkg.hostGated then [.islandPowerUp 22] else []

/-- A doorbell (R348, R349): it is dropped and counted, or the queue's bit of the pending bitmap is set, the island is woken, and the
front end acts on it. Of several before it acts, the last reset or disable is the one (log entry 23). -/
def doorbell (port : Bool) (page : Nat) (qid : BitVec 16) (ask : Option Bool) (s : State) : Host.Outcome State Fault Refusal :=
  let q := qid.toNat
  if s.dropsDoorbell port page q ask.isNone then .next (s.countDrop port)
  else .next ((s.upQueue q (fun x => { x with pending := true, ask := ask.or x.ask })).post (s.wakeHost ++ [.fePendingService q]))

/-- DOORBELL_RING (R348, R349). -/
def execDoorbellRing (port : Bool) (page : Nat) (qid : BitVec 16) (s : State) : Host.Outcome State Fault Refusal :=
  doorbell port page qid none s
/-- DOORBELL_RESET (R348 to R350). -/
def execDoorbellReset (port : Bool) (page : Nat) (qid : BitVec 16) (s : State) : Host.Outcome State Fault Refusal :=
  doorbell port page qid (some false) s
/-- DOORBELL_DISABLE (R348 to R350). -/
def execDoorbellDisable (port : Bool) (page : Nat) (qid : BitVec 16) (s : State) : Host.Outcome State Fault Refusal :=
  doorbell port page qid (some true) s

/-- A reset or disable acts, at a packet boundary (R350): reset makes RPTR := WPTR, clears ERR, CREDIT and the pending bit, and the queue is
IDLE; disable makes it DISABLED. Launches already armed go on. -/
def State.serveAsk (s : State) (q : Nat) : State :=
  match (s.queue q).ask with
  | none => s
  | some disable =>
    let s := s.upQueue q (fun x => { x.stop with pending := false, ask := none })
    if disable then s.leaveSlot q qDisabled
    else
      let s := s.leaveSlot q qIdle
      let s := (s.qPut q 0x14 4 (s.qGet q 0x10 4)).qPut q 0x19 1 0
      s.portWrite (s.qPort q) (s.qcb q + 0x80) (leBytes 32 0)

/-- The ring's size in packets of a mapped queue. -/
def Queue.ringSize (x : Queue) : Nat := 2 ^ (field x.ctl 56 8 - 5)

/-- The first packet of a level that is not completed: the open LOOP, or the current packet (R355). RPTR is that of the ring. -/
def FeLevel.first (l : FeLevel) : Nat := match l.loop with | some (body, _, _) => body - 1 | none => l.pos

/-- Read WPTR: BAD_WPTR when more packets are outstanding than the ring holds (R356). It names no packet: ERR has level 0, offset 0, VA
0, and WPTR as the value (DESIGN CHOICE, log entry 85). -/
def State.readWptr (s : State) (q : Nat) : State :=
  let w := s.qGet q 0x10 4
  let n := (w + 2 ^ 32 - s.qGet q 0x14 4) % 2 ^ 32
  let x := s.queue q
  if x.ringSize < n then s.queueError q 6 0 0 w 0
  else
    let set := fun (l : FeLevel) => { l with limit := l.first + n }
    s.upQueue q (fun x => { x with levels := x.levels.dropLast ++ (x.levels.getLast?.map set).toList })

/-- A mapped queue with nothing outstanding and its pending bit clear goes IDLE (R350). -/
def State.idleCheck (s : State) (q : Nat) : State :=
  let x := s.queue q
  match x.levels with
  | [l] =>
    if x.slot.isSome && l.loop.isNone && l.pos == l.limit && !x.pending then
      ((s.leaveSlot q qIdle).qPut q 0x19 1 0).upQueue q Queue.stop
    else s
  | _ => s

/-- The capability windows of a QCB. -/
def State.readWindows (s : State) (q : Nat) : List (Nat × Nat × Bool × Bool) :=
  tabulate 4 (fun i =>
    let w := s.qGet q (0x20 + 16 * i) 16
    (w % 2 ^ 55, w / 2 ^ 64 % 2 ^ 48, w / 2 ^ 112 % 2 == 1, w / 2 ^ 113 % 2 == 1))

/-- The PENDING queue of a port that a slot goes to (R351). -/
def State.bestPending (s : State) (port : Bool) : Option Nat :=
  (s.pendingOf port).foldl (fun b q => match b with
    | none => some q
    | some x => if s.qPrio x < s.qPrio q ∨ (s.qPrio x = s.qPrio q ∧ q < x) then some q else some x) none

/-- QUEUE_MAP (R347, R351): a free slot of a port takes its best PENDING queue, whose control fields are read; a queue that gave up a
slot goes on at the same packet. -/
def execQueueMap (port : Bool) (slot : Nat) (s : State) : Host.Outcome State Fault Refusal :=
  if 64 ≤ slot || !(s.port port).slotport.getLsbD slot || s.pkg.queues.any (fun e => e.2.slot == some slot) then noEvent s
  else
    match s.bestPending port with
    | none => noEvent s
    | some q =>
      let ctl : Word := BitVec.ofNat 64 (s.qGet q 0 8)
      let ring := s.qGet q 0x08 8
      let rptr := s.qGet q 0x14 4
      let top := fun (x : Queue) => match x.levels.getLast? with
        | some l => { l with base := ring, wrap := ({ x with ctl := ctl }).ringSize }
        | none => ⟨ring, ({ x with ctl := ctl }).ringSize, rptr, rptr, none, [], false, false⟩
      let s := s.upQueue q (fun x => { x with
        slot := some slot, ctl := ctl, win := s.readWindows q, run := 0, levels := x.levels.dropLast ++ [top x] })
      .next (((s.qPut q 0x18 1 qMapped).readWptr q).idleCheck q)

/-! Packets (R353). -/

/-- A packet's fields. -/
structure Packet where
  ty : Nat
  bar : Bool
  int : Bool
  tspec : Nat
  /-- Reserved bits of the header. -/
  rsv : Nat
  /-- The reserved word. -/
  rsvWord : Nat
  a : Nat
  b : Nat
  c : Nat
  deriving DecidableEq, Repr

/-- The fields of 32 bytes. -/
def Packet.ofBits (x : BitVec 256) : Packet where
  ty := field x 0 8
  bar := x.getLsbD 8
  int := x.getLsbD 9
  tspec := field x 16 16
  rsv := field x 10 6
  rsvWord := field x 32 32
  a := field x 64 64
  b := field x 128 64
  c := field x 192 64

/-- The first malformed field of a packet: its offset and value (R353). Of several, R358 names none: the order here is type, reserved
bits, reserved word, TSPEC, A, B, C (DESIGN CHOICE, log entry 85). -/
def Packet.bad (p : Packet) : Option (Nat × Nat) :=
  let tspecOk := match p.ty with
    | 0x02 => decide (2 ≤ p.tspec) && decide (p.tspec ≤ 8)
    | 0x04 => decide (p.tspec ≤ 1)
    | 0x06 => decide (p.tspec % 256 ≤ 3) && decide (256 ≤ p.tspec)
    | 0x07 => decide (1 ≤ p.tspec) && decide (p.tspec ≤ 255)
    | _ => p.tspec == 0
  let aOk := match p.ty with
    | 0x00 | 0x08 => p.a == 0
    | 0x03 | 0x04 | 0x06 => p.a % 8 == 0
    | 0x05 => p.a % 32 == 0
    | 0x07 => decide (p.a < 2 ^ 32)
    | _ => true
  let bOk := match p.ty with
    | 0x00 | 0x07 | 0x08 => p.b == 0
    | 0x01 | 0x02 => p.b % 8 == 0
    | 0x05 => decide (1 ≤ p.b) && decide (p.b ≤ 2 ^ 20)
    | _ => true
  let cOk := if p.ty = 0x09 then decide (1 ≤ p.c) && decide (p.c ≤ 2 ^ 32) else p.c == 0
  if 0x0A ≤ p.ty then some (0, p.ty)
  else if p.rsv ≠ 0 then some (1, p.rsv)
  else if p.rsvWord ≠ 0 then some (4, p.rsvWord)
  else if !tspecOk then some (2, p.tspec)
  else if !aOk then some (0x08, p.a)
  else if !bOk then some (0x10, p.b)
  else if !cOk then some (0x18, p.c)
  else none

/-- Why a packet does not complete. -/
inductive FeStop where
  /-- It waits; nothing changes. -/
  | wait
  /-- An error of R358: CAUSE, offset of the field, value. -/
  | err (cause off value : Nat)
  /-- A page is absent (R359), under the operand at an offset with its value. -/
  | page (va off value : Nat)

/-- An operand of a packet: where it stands in the packet and its value, as ERR names it (R358). -/
structure Operand where
  off : Nat
  value : Nat

/-- Check a span against the queue's windows (R358): CAP_BOUND, or CAP_PERM when only a window without the permission holds it. -/
def Queue.span (x : Queue) (o : Operand) (a n : Nat) (r w : Bool) : Except FeStop Unit :=
  let holds := x.win.filter (fun e => e.2.1 != 0 && decide (e.1 ≤ a) && decide (a + n ≤ e.1 + e.2.1))
  if holds.any (fun e => (!r || e.2.2.1) && (!w || e.2.2.2)) then .ok ()
  else if holds.isEmpty then .error (.err 2 o.off o.value)
  else .error (.err 3 o.off o.value)

/-- ASID of a mapped queue. -/
def Queue.asid (x : Queue) : BitVec 16 := x.ctl.extractLsb' 32 16

/-- A piece of a span of the front end: its physical address and length, and the die of its home. -/
structure FePiece where
  pa : Nat
  n : Nat
  home : Nat

/-- Grants for the lines of a span, by fuel. The front end's accesses are at user level (log entry 23). -/
def State.feGrants (asid : BitVec 16) (kind : AccessKind) (o : Operand) : Nat → State → Nat → Nat → Except FeStop (State × List FePiece)
  | 0, s, _, _ => .ok (s, [])
  | f + 1, s, a, n =>
    if n = 0 then .ok (s, [])
    else
      let k := Nat.min n (256 - a % 256)
      match s.grant asid a kind true with
      | .error .PAGE_ABSENT => .error (.page a o.off o.value)
      | .error _ => .error (.err 7 o.off o.value)
      | .ok (s, g) =>
        if paDevice (g.pline * 256) then .error (.err 7 o.off o.value)
        else do
          let (s, l) ← State.feGrants asid kind o f s (a + k) (n - k)
          .ok (s, ⟨g.pline * 256 + a % 256, k, s.sliceDie (s.home (some asid) a g.tbl g.pline)⟩ :: l)

/-- Read a span on the FE path, from the homes. -/
def State.feRead (s : State) (asid : BitVec 16) (o : Operand) (a n : Nat) : Except FeStop (State × List Byte) := do
  let (s, l) ← State.feGrants asid .read o (n / 256 + 2) s a n
  .ok (s, l.flatMap (fun p => s.mem.bytes p.pa p.n))

/-- Write a span on the FE path of a port, at the homes (R255, R428). -/
def State.feWrite (s : State) (port : Bool) (asid : BitVec 16) (o : Operand) (a : Nat) (bs : List Byte) : Except FeStop State := do
  let (s, l) ← State.feGrants asid .write o (bs.length / 256 + 2) s a bs.length
  let put := fun (r : State × List Byte) (p : FePiece) =>
    (r.1.homeWrite (r.1.portDie port) p.home (cellsAt p.pa (r.2.take p.n)), r.2.drop p.n)
  .ok (l.foldl put (s, bs)).1

/-- The queue mapped on a slot. -/
def State.onSlot (s : State) (slot : Nat) : Option (Nat × Queue) :=
  s.pkg.queues.find? (fun e => e.2.slot == some slot)

/-- Address of a packet of a level. -/
def FeLevel.addr (l : FeLevel) (i : Nat) : Nat := l.base + 32 * (i % Nat.max l.wrap 1)

/-- The current packet of a level, once both granules are held. -/
def FeLevel.current (l : FeLevel) : Option (BitVec 256) :=
  if l.pos < l.limit then
    match (l.held.find? (fun g => g.1 == 2 * l.pos)), (l.held.find? (fun g => g.1 == 2 * l.pos + 1)) with
    | some lo, some hi => some (hi.2 ++ lo.2)
    | _, _ => none
  else none

/-- The current packet of a queue, of its innermost level. -/
def Queue.packet (x : Queue) : Option Packet :=
  match x.levels with
  | l :: _ => l.current.map Packet.ofBits
  | [] => none

/-- Ask the fault processor for a page (R359, R262). -/
def State.askFePage (s : State) (asid : BitVec 16) (vpage : Nat) : State :=
  s.askPage (asid, vpage) []

/-- End a packet's attempt with a stop: an error; or the packet has begun and waits (R350, R359). -/
def State.feStop (s : State) (q : Nat) (e : FeStop) : State :=
  let x := s.queue q
  match e with
  | .wait => s.upQueue q (fun x => { x with busy := true })
  | .err c o v => s.queueError q c (x.levels.length - 1) o v (match x.levels with | l :: _ => l.addr l.pos | [] => 0)
  | .page a off v =>
    (s.upQueue q (fun x => { x with fault := some (x.asid, a / 65536), faultAt := (off, BitVec.ofNat 64 v), busy := true })).askFePage
      x.asid (a / 65536)

/-- The FAULT of a page that the fault processor has answered with KILL (R359). -/
def Queue.killStop (x : Queue) : FeStop := .err 7 x.faultAt.1 x.faultAt.2.toNat

/-- FE_PENDING_SERVICE (R349, R350, R359): a killed packet raises FAULT; a reset or disable acts, unless a packet other than WAIT has begun
and must complete first, for which a ring still has WPTR read; else the pending bit is cleared, then WPTR is read, and an IDLE queue with
ENABLE becomes PENDING. -/
def execFePendingService (q : Nat) (s : State) : Host.Outcome State Fault Refusal :=
  let x := s.queue q
  if x.killed then .next (s.feStop q x.killStop)
  else if !x.pending && x.ask.isNone then noEvent s
  else if s.pkg.hostGated then .next (s.post [.islandPowerUp 22, .fePendingService q])
  else if x.ask.isSome then
    (if x.busy && (match x.packet with | some p => p.ty != 0x03 | none => false) then
      (if x.pending then .next ((s.upQueue q (fun x => { x with pending := false })).readWptr q) else noEvent s)
    else .next (s.serveAsk q))
  else
    let s := s.upQueue q (fun x => { x with pending := false })
    if s.qState q = qIdle ∧ s.qGet q 0 4 / 16 % 2 = 1 then
      .next ((s.qPut q 0x18 1 qPending).upQueue q (fun x => { x with agedAt := s.pkg.lastLid }))
    else if s.qState q = qMapped then .next ((s.readWptr q).idleCheck q)
    else .next s

/-- What passing some packets of a level completes beside them: an open LOOP, and whether its INT raises. -/
structure Passed where
  level : FeLevel
  /-- Packets completed that enclose what was passed, and vectors they raise (R354). -/
  done : Nat
  raises : Nat

/-- Move a level past n packets: a finished pass of a LOOP starts again, or closes it. -/
def FeLevel.move (l : FeLevel) (n : Nat) : Passed :=
  let pos := l.pos + n
  match l.loop with
  | some (first, k, left) =>
    if pos < first + k then ⟨{ l with pos := pos }, 0, 0⟩
    else if 1 < left then ⟨{ l with pos := first, loop := some (first, k, left - 1) }, 0, 0⟩
    else ⟨{ l with pos := first + k, loop := none, held := l.held.filter (fun g => decide (2 * (first + k) ≤ g.1)) }, 1, if l.loopInt then 1 else 0⟩
  | none => ⟨{ l with pos := pos, held := l.held.filter (fun g => decide (2 * pos ≤ g.1)) }, 0, 0⟩

/-- Move past n packets of the innermost level; a buffer whose last packet completes completes its IB as well (R355). Answers the
levels, the enclosing packets completed, and the vectors they raise. -/
def passLevels : List FeLevel → Nat → List FeLevel × Nat × Nat
  | [], _ => ([], 0, 0)
  | l :: r, n =>
    let p := l.move n
    if !r.isEmpty && p.level.loop.isNone && decide (p.level.limit ≤ p.level.pos) then
      let y := passLevels r 1
      (y.1, y.2.1 + p.done + 1, y.2.2 + p.raises + (if l.int then 1 else 0))
    else (p.level :: r, p.done, p.raises)

/-- A queue of the same port and higher effective priority is PENDING. -/
def State.outranked (s : State) (q : Nat) : Bool := (s.pendingOf (s.qPort q)).any (fun p => decide (s.qPrio q < s.qPrio p))

/-- A queue gives up its slot and stays at its packet, at a packet boundary (R352): the packet starts again when the queue is mapped. -/
def State.giveUpSlot (s : State) (q : Nat) : State :=
  (s.leaveSlot q qPending).upQueue q (fun x => { x with agedAt := s.pkg.lastLid, busy := false })

/-- At a packet boundary (R350, R352): a reset or disable acts, also between two packets of an open IB or LOOP, for which the spec
does not say whether the whole of it is the packet that completes first (DESIGN CHOICE, log entry 80); else the queue may go IDLE,
or gives up its slot after 256 packets while outranked. -/
def State.feBoundary (s : State) (q : Nat) : State :=
  if (s.queue q).ask.isSome then s.serveAsk q
  else
    let s := s.idleCheck q
    if (s.queue q).slot.isSome && decide (256 ≤ (s.queue q).run) && s.outranked q then s.giveUpSlot q else s

/-- A packet completes with n − 1 more that it passes: the stream moves on, INT raises the vector of each packet completed (R354), RPTR
counts what the ring has completed (R355), and the packets completed while outranked are counted (R352). -/
def State.fePass (s : State) (q n : Nat) (int : Bool) : State :=
  let y := passLevels (s.queue q).levels n
  let s := s.upQueue q (fun x => { x with levels := y.1, busy := false, ahead := [] })
  let s := (List.range (y.2.2 + (if int then 1 else 0))).foldl (fun s _ => s.raiseQueue q) s
  let s := match y.1 with
    | [l] => if l.loop.isNone then s.qPut q 0x14 4 (l.pos % 2 ^ 32) else s
    | _ => s
  let up := s.outranked q
  (s.upQueue q (fun x => { x with run := if up then x.run + 1 + y.2.1 else 0 })).feBoundary q

/-- Every launch a queue has armed is in a final state (R354, BAR). -/
def State.armedOver (s : State) (x : Queue) : Bool :=
  x.armed.all (fun lid => match s.launch? lid with | some l => l.state.final | none => true)

/-- Carry out the current packet of the queue on a slot, if it is of a type: the stream moves past it and the packets it passes, or, when
the packet has opened others, it completes with them. A malformed packet with BAR is BAD_PACKET before it waits for launches, which R354
does not order (DESIGN CHOICE, log entry 85). -/
def fePacket (slot : Nat) (tys : Nat → Bool) (int : Bool) (s : State)
    (body : State → Nat → Queue → Packet → Except FeStop (State × Option Nat)) : Host.Outcome State Fault Refusal :=
  match s.onSlot slot with
  | none => noEvent s
  | some (q, x) =>
    if x.killed then .next (s.feStop q x.killStop)
    else
      match if x.fault.isNone then x.packet else none with
      | none => noEvent s
      | some p =>
        if !tys p.ty then noEvent s
        else
          match p.bad with
          | some (o, v) => .next (s.feStop q (.err 1 o v))
          | none =>
            if p.bar && !s.armedOver x then .next (s.feStop q .wait)
            else
              match body s q x p with
              | .error e => .next (s.feStop q e)
              | .ok (s, some n) => .next (s.fePass q n (int && p.int))
              | .ok (s, none) => .next ((s.upQueue q (fun x => { x with busy := false, ahead := [] })).feBoundary q)

/-- The operand A of a packet, and B. -/
def Packet.opA (p : Packet) : Operand := ⟨0x08, p.a⟩
/-- The operand B. -/
def Packet.opB (p : Packet) : Operand := ⟨0x10, p.b⟩

/-- The granules of a level that may be fetched now (R356): from the current packet to the one 4 KiB beyond it, if it is outstanding. -/
def FeLevel.wanted (l : FeLevel) : List Nat :=
  (tabulate 258 (fun i => 2 * l.pos + i)).filter (fun g => decide (g / 2 < l.limit) && !l.held.any (fun h => h.1 == g))

/-- The buffer that the current packet is to open, if it is an IB (R356): a level with what has been fetched of it ahead. -/
def Queue.nextLevel (x : Queue) : Option FeLevel :=
  match x.packet with
  | some p => if p.ty = 0x05 ∧ p.bad.isNone ∧ x.levels.length < 3 then some ⟨p.a, p.b, 0, p.b, none, x.ahead, p.int, false⟩ else none
  | none => none

/-- Fetch a granule of a level (R356, R358): of the ring when the whole ring is readable, of a buffer within its window. -/
def State.feFetch (s : State) (x : Queue) (l : FeLevel) (ring : Bool) (g : Nat) : Except FeStop (State × BitVec 128) := do
  let a := l.addr (g / 2) + 16 * (g % 2)
  let o : Operand := ⟨0, a⟩
  if ring then x.span ⟨0, l.base⟩ l.base (32 * l.wrap) true false else x.span o l.base (32 * l.limit) true false
  let (s, bs) ← s.feRead x.asid o a 16
  .ok (s, BitVec.ofNat 128 (leNat bs))

/-- PACKET_FETCH (R356, R358): a level, or the buffer of an IB that has been reached, fetches one of the granules it may hold; which, the
spec leaves free. A fetch that fails counts only at the current packet. A held packet of no assigned type is BAD_PACKET. -/
def execPacketFetch (slot : Nat) (s : State) : Host.Outcome State Fault Refusal :=
  match s.onSlot slot with
  | none => noEvent s
  | some (q, x) =>
    if x.killed then .next (s.feStop q x.killStop)
    else if x.fault.isSome then noEvent s
    else
      match x.packet.filter (fun p => decide (0x0A ≤ p.ty)) with
      | some p => .next (s.feStop q (.err 1 0 p.ty))
      | none =>
        let levels := x.levels ++ x.nextLevel.toList
        let n := Config.pick s.fresh % levels.length
        match levels[n]? with
        | none => noEvent s
        | some l =>
          match l.wanted[Config.pick (s.fresh + 1) % l.wanted.length]? with
          | none => noEvent s
          | some g =>
            match s.feFetch x l (decide (n + 1 = x.levels.length)) g with
            | .ok (s, v) =>
              .next (s.upQueue q (fun x =>
                if n < x.levels.length then { x with levels := x.levels.modify n (fun l => { l with held := l.held ++ [(g, v)] }) }
                else { x with ahead := x.ahead ++ [(g, v)] }))
            | .error e => if n = 0 ∧ g / 2 = l.pos then .next (s.feStop q e) else noEvent s

/-- PACKET_NOP (R353). -/
def execPacketNop (slot : Nat) (s : State) : Host.Outcome State Fault Refusal :=
  fePacket slot (· == 0x00) true s (fun s _ _ _ => .ok (s, some 1))

/-- PACKET_LAUNCH (R354): the record is armed or refused; a launch that finds no free node waits. -/
def execPacketLaunch (slot : Nat) (s : State) : Host.Outcome State Fault Refusal :=
  fePacket slot (· == 0x01) false s (fun s q x p => do
    x.span p.opA p.a 1536 true false
    if p.b = 0 then .ok () else x.span p.opB p.b 8 false true
    let (s, bs) ← s.feRead x.asid p.opA p.a 1536
    if s.refusal x.asid .queue (LaunchRec.ofBytes bs) = some reasonNodeFull then .error .wait
    else
      let signal := if p.b = 0 ∧ !p.int then none else some (q, if p.int then 1 else 0, BitVec.ofNat 64 p.b)
      let r := s.arm x.asid .queue signal bs
      .ok (r.1.upQueue q (fun x => { x with armed := x.armed ++ [r.2] }), some 1))

/-- The first member of a bundle that would be refused, armed in order on the state that the earlier ones leave. -/
def bundleRefused (asid : BitVec 16) : State → List (List Byte) → Nat → Option (Nat × Nat)
  | _, [], _ => none
  | s, bs :: r, i =>
    match s.refusal asid .queue (LaunchRec.ofBytes bs) with
    | some why => some (i, why)
    | none => bundleRefused asid (s.arm asid .queue none bs).1 r (i + 1)

/-- A member of a bundle that a refusal ends takes a launch id and a final state, without running (R354). -/
def State.armEnded (s : State) (st : LState) (reason : Nat) (asid : BitVec 16) (signal : Option (Nat × Nat × Word)) (bytes : List Byte) :
    State × Nat :=
  let lid := s.pkg.lastLid + 1
  let s := s.upPkg (fun p => { p with lastLid := lid })
  let s := s.setLaunch lid { Launch.blank with
    record := LaunchRec.ofBytes bytes, asid := asid, state := st, reason := reason, signal := signal, endedAt := lid }
  ((s.wakeWaiters lid).idEvents, lid)

/-- PACKET_BUNDLE (R354): every member is armed in order, and they become READY together; or, when one is refused, the earlier ones end
FAILED with PRED_FAILED, it is REFUSED, and no later one is armed. -/
def execPacketBundle (slot : Nat) (s : State) : Host.Outcome State Fault Refusal :=
  fePacket slot (· == 0x02) false s (fun s q x p => do
    (List.range p.tspec).forM (fun i => x.span p.opA (p.a + 1536 * i) 1536 true false)
    if p.b = 0 then .ok () else x.span p.opB p.b 8 false true
    let (s, bs) ← s.feRead x.asid p.opA p.a (1536 * p.tspec)
    let recs := tabulate p.tspec (fun i => (bs.drop (1536 * i)).take 1536)
    let signal : Option (Nat × Nat × Word) := some (q, 2 + (if p.int then 1 else 0), BitVec.ofNat 64 p.b)
    let one := fun (f : State → List Byte → State × Nat) (r : State × List Nat) (b : List Byte) =>
      let y := f r.1 b
      (y.1, r.2 ++ [y.2])
    let ids := tabulate p.tspec (fun i => s.pkg.lastLid + 1 + i)
    let arm := fun s b => State.armIn s ids x.asid .queue signal b
    let ended := fun st why s b => State.armEnded s st why x.asid signal b
    match bundleRefused x.asid s recs 0 with
    | some (i, why) =>
      if why = reasonNodeFull then .error .wait
      else
        let r := (recs.take i).foldl (one (ended .failed reasonPredFailed)) (s, [])
        let r := ((recs.drop i).take 1).foldl (one (ended .refused why)) r
        .ok (r.1.upQueue q (fun x => { x with armed := x.armed ++ r.2, bundles := x.bundles ++ [r.2] }), some 1)
    | none =>
      let r := recs.foldl (one arm) (s, [])
      .ok ((r.1.bundleGate r.2).upQueue q (fun x => { x with armed := x.armed ++ r.2, bundles := x.bundles ++ [r.2] }), some 1))

/-- The status word of a bundle (R354): of its first member that is not COMPLETE, or COMPLETE, as they ended. -/
def State.bundleStatus (s : State) (ids : List Nat) : Word :=
  let ls := ids.filterMap s.launch?
  match ls.find? (fun l => l.state != .complete) with
  | some l => BitVec.ofNat 64 (l.state.code + l.reason * 256)
  | none => 3

/-- The members of a bundle, or a launch by itself, whose signal is written once. -/
def State.signalIds (s : State) (lid q flags : Nat) : List Nat :=
  ((if flags / 2 % 2 = 1 then (s.queue q).bundles.find? (fun b => b.contains lid) else none)).getD [lid]
/-- The signal of some launches is written, or given up. -/
def State.signalDone (s : State) (ids : List Nat) (q : Nat) : State :=
  (ids.foldl (fun s i => s.upLaunch i (fun x => { x with signal := none })) s).upQueue q (fun x =>
    { x with bundles := x.bundles.filter (fun b => !b.any ids.contains) })

/-- A signal word that is refused raises FAULT on a queue that is at work; of any other queue the signal is dropped (log entry 23). Its
packet has completed: ERR has the level and VA of the queue's current packet, offset 0x10 and the signal VA (DESIGN CHOICE, log entry
85). -/
def State.signalFault (s : State) (q : Nat) (va : Word) : State :=
  if s.qState q = qMapped ∨ s.qState q = qPending then s.feStop q (.err 7 0x10 va.toNat) else s

/-- LAUNCH_SIGNAL_WRITE (R354, R359): a launch, or every member of its bundle, is in a final state; the status is written to the signal
word as a system-scope release, once, and INT raises the queue's vector. An absent page is asked for; the queue goes on. -/
def execLaunchSignalWrite (lid : Nat) (s : State) : Host.Outcome State Fault Refusal :=
  match s.launch? lid with
  | none => noEvent s
  | some l =>
    match l.signal with
    | none => noEvent s
    | some (q, flags, va) =>
      let ids := s.signalIds lid q flags
      if !ids.all (fun i => match s.launch? i with | some x => x.state.final | none => true) then noEvent s
      else if flags / 4 % 2 = 1 then .next ((s.signalFault q va).signalDone ids q)
      else
        match if va = 0 then .ok s else s.feWrite (s.qPort q) l.asid ⟨0x10, va.toNat⟩ va.toNat (leBytes 8 (s.bundleStatus ids).toNat) with
        | .ok s => .next ((if flags % 2 = 1 then s.raiseQueue q else s).signalDone ids q)
        | .error (.page a _ _) => .next (s.askFePage l.asid (a / 65536))
        | .error _ => .next ((s.signalFault q va).signalDone ids q)

/-- The word of a WAIT or PRED, read when its span is in a window (R354, R358). -/
def State.waitWord (s : State) (x : Queue) (p : Packet) : Except FeStop (State × Nat) := do
  x.span p.opA p.a 8 true false
  let (s, bs) ← s.feRead x.asid p.opA p.a 8
  .ok (s, leNat bs)

/-- PACKET_WAIT and PACKET_WAIT_MET: the WAIT completes when the word has reached the value (R354). -/
def feWait (slot : Nat) (s : State) : Host.Outcome State Fault Refusal :=
  fePacket slot (· == 0x03) true s (fun s _ x p => do
    let (s, w) ← s.waitWord x p
    if p.b ≤ w then .ok (s, some 1) else .error .wait)
/-- PACKET_WAIT (R354). -/
def execPacketWait (slot : Nat) (s : State) : Host.Outcome State Fault Refusal := feWait slot s
/-- PACKET_WAIT_MET (R354). -/
def execPacketWaitMet (slot : Nat) (s : State) : Host.Outcome State Fault Refusal := feWait slot s

/-- SIGNAL (R354): one indivisible access at the home. -/
def feSignal (slot : Nat) (kind : Nat) (f : Nat → Nat → Nat) (s : State) : Host.Outcome State Fault Refusal :=
  fePacket slot (· == 0x04) true s (fun s q x p => do
    if p.tspec = kind then .ok () else .error .wait
    x.span p.opA p.a 8 true true
    let (s, bs) ← s.feRead x.asid p.opA p.a 8
    let s ← s.feWrite (s.qPort q) x.asid p.opA p.a (leBytes 8 (f (leNat bs) p.b % 2 ^ 64))
    .ok (s, some 1))
/-- PACKET_SIGNAL_STORE (R354). -/
def execPacketSignalStore (slot : Nat) (s : State) : Host.Outcome State Fault Refusal := feSignal slot 0 (fun _ b => b) s
/-- PACKET_SIGNAL_ADD (R354). -/
def execPacketSignalAdd (slot : Nat) (s : State) : Host.Outcome State Fault Refusal := feSignal slot 1 (fun w b => w + b) s

/-- A level or an enclosing loop ends before n packets after the current one (R355); the ring's later packets may still be written. -/
def Queue.runsPast (x : Queue) (n : Nat) : Bool :=
  match x.levels with
  | [] => true
  | l :: r => (match l.loop with | some (first, k, _) => decide (first + k < l.pos + 1 + n) | none => false)
      || (!r.isEmpty && decide (l.limit < l.pos + 1 + n))

/-- PACKET_IB (R355): a buffer opens one level deeper, with what has been fetched of it; IB_DEPTH at level 2. -/
def execPacketIb (slot : Nat) (s : State) : Host.Outcome State Fault Refusal :=
  fePacket slot (· == 0x05) false s (fun s q x p => do
    if 3 ≤ x.levels.length then .error (.err 4 0 p.ty) else .ok ()
    x.span p.opA p.a (32 * p.b) true false
    .ok (s.upQueue q (fun y => { y with levels := x.nextLevel.toList ++ y.levels }), none))

/-- The condition of a PRED. -/
def predHolds (c a b : Nat) : Bool :=
  match c with | 0 => a == b | 1 => a != b | 2 => decide (a < b) | _ => decide (b ≤ a)

/-- PACKET_PRED (R354): when the condition is false the next n packets of the level are passed with it. On the ring they may not all be
outstanding yet, or be more than it holds: the packet waits and starts again, its word read anew (DESIGN CHOICE, log entry 86). -/
def execPacketPred (slot : Nat) (s : State) : Host.Outcome State Fault Refusal :=
  fePacket slot (· == 0x06) true s (fun s _ x p => do
    let n := p.tspec / 256
    if x.runsPast n then .error (.err 1 2 p.tspec) else .ok ()
    let (s, w) ← s.waitWord x p
    if predHolds (p.tspec % 8) w p.b then .ok (s, some 1)
    else match x.levels with
      | l :: _ => if l.pos + 1 + n ≤ l.limit then .ok (s, some (1 + n)) else .error .wait
      | [] => .error .wait)

/-- PACKET_LOOP (R354, R355): the next n packets of the level are carried out count times; LOOP_NEST inside a LOOP's body. With count 0
on the ring it waits until they are all outstanding (DESIGN CHOICE, log entry 86). -/
def execPacketLoop (slot : Nat) (s : State) : Host.Outcome State Fault Refusal :=
  fePacket slot (· == 0x07) true s (fun s q x p => do
    let n := p.tspec
    match x.levels with
    | [] => .error .wait
    | l :: _ =>
      if l.loop.isSome then .error (.err 5 0 p.ty)
      else if x.runsPast n then .error (.err 1 2 p.tspec)
      else if p.a = 0 then (if l.pos + 1 + n ≤ l.limit then .ok (s, some (1 + n)) else .error .wait)
      else
        let opened := fun (l : FeLevel) => { l with pos := l.pos + 1, loop := some (l.pos + 1, n, p.a), loopInt := p.int }
        .ok (s.upQueue q (fun x => { x with levels := x.levels.modify 0 opened }), none))

/-- PACKET_FETCHFENCE (R357): every packet held is discarded, at every level, so that later ones are fetched anew; BAD_PACKET in a loop
body. -/
def execPacketFetchfence (slot : Nat) (s : State) : Host.Outcome State Fault Refusal :=
  fePacket slot (· == 0x08) true s (fun s q x p =>
    match x.levels with
    | l :: _ =>
      if l.loop.isSome then .error (.err 1 0 p.ty)
      else .ok (s.upQueue q (fun x => { x with levels := x.levels.map (fun l => { l with held := [] }) }), some 1)
    | [] => .error .wait)

/-- PACKET_COPY (R354): C bytes, in ascending order; overlapping spans are BAD_PACKET, for which ERR names B, at offset 0x10 (DESIGN CHOICE,
log entry 85). -/
def execPacketCopy (slot : Nat) (s : State) : Host.Outcome State Fault Refusal :=
  fePacket slot (· == 0x09) true s (fun s q x p => do
    if p.a < p.b + p.c ∧ p.b < p.a + p.c then .error (.err 1 0x10 p.b) else .ok ()
    x.span p.opA p.a p.c true false
    x.span p.opB p.b p.c false true
    let (s, bs) ← s.feRead x.asid p.opA p.a p.c
    let s ← s.feWrite (s.qPort q) x.asid p.opB p.b bs
    .ok (s, some 1))

/-- QUEUE_SLOT_RELEASE (R352): a WAIT or PRED whose word is not readable, or a WAIT whose condition is false, while a queue of the port
is PENDING; or 256 packets in a row while one of higher effective priority was. -/
def execQueueSlotRelease (slot : Nat) (s : State) : Host.Outcome State Fault Refusal :=
  match s.onSlot slot with
  | none => noEvent s
  | some (q, x) =>
    let stuck := match x.packet with
      | some p =>
        if p.ty = 0x03 then x.fault.isSome || (p.bad.isNone && (match s.waitWord x p with | .ok (_, w) => decide (w < p.b) | .error _ => false))
        else p.ty == 0x06 && x.fault.isSome
      | none => false
    if (stuck && !(s.pendingOf (s.qPort q)).isEmpty) || (decide (256 ≤ x.run) && s.outranked q) then .next (s.giveUpSlot q) else noEvent s

/-! Ageing (R170, R351). -/

/-- A launch's aged level after N further launch ids. -/
def Launch.age (l : Launch) (n last : Nat) : Launch :=
  if l.state == .ready && l.unbound && decide (l.agedAt + n ≤ last) then
    { l with aged := if l.aged < 6 then l.aged + 1 else l.aged, agedAt := l.agedAt + n }
  else l

/-- AGEING_STEP (R170, R351): READY launches with unbound work and PENDING queues rise once AGEQ.N further launch ids have been issued, a
queue's CREDIT until its effective priority is 6; N = 0 never ages. -/
def execAgeingStep (s : State) : Host.Outcome State Fault Refusal :=
  let n := s.pkg.ageq.toNat
  if n = 0 then
    .next (s.upPkg (fun p => { p with
      launches := p.launches.map (fun e => if e.2.state == .ready then (e.1, { e.2 with agedAt := p.lastLid }) else e)
      queues := p.queues.map (fun e => (e.1, { e.2 with agedAt := p.lastLid })) }))
  else
    let s := s.upPkg (fun p => { p with launches := p.launches.map (fun e => (e.1, e.2.age n p.lastLid)) })
    .next ((s.queuesIn qPending).foldl (fun s q =>
      if (s.queue q).agedAt + n ≤ s.pkg.lastLid then
        (if s.qPrio q < 6 then s.qPut q 0x19 1 (s.qGet q 0x19 1 + 1) else s).upQueue q (fun x => { x with agedAt := x.agedAt + n })
      else s) s)

/-! What may happen now. -/

/-- The event that carries out a packet. -/
def Packet.event (p : Packet) (slot : Nat) : List Instr :=
  match p.ty with
  | 0x00 => [.packetNop slot]
  | 0x01 => [.packetLaunch slot]
  | 0x02 => [.packetBundle slot]
  | 0x03 => [.packetWait slot, .packetWaitMet slot]
  | 0x04 => [.packetSignalStore slot, .packetSignalAdd slot]
  | 0x05 => [.packetIb slot]
  | 0x06 => [.packetPred slot]
  | 0x07 => [.packetLoop slot]
  | 0x08 => [.packetFetchfence slot]
  | 0x09 => [.packetCopy slot]
  | _ => []

/-- Events of the front end that may happen now. -/
def State.feDue (s : State) : List Instr :=
  if s.pkg.hostGated then []
  else
    s.pkg.queues.flatMap (fun e =>
      (if e.2.pending || e.2.ask.isSome || e.2.killed then [.fePendingService e.1] else []) ++
      (match e.2.slot with
        | some slot => [.packetFetch slot, .queueSlotRelease slot] ++ (match e.2.packet with | some p => p.event slot | none => [])
        | none => []))
    ++ [false, true].flatMap (fun b =>
      if (s.pendingOf b).isEmpty then []
      else (((List.range 64).filter (fun i => (s.port b).slotport.getLsbD i && (s.onSlot i).isNone)).take 1).map (.queueMap b))
    ++ (s.pkg.launches.filter (fun e => e.2.state.final && e.2.signal.isSome)).map (fun e => .launchSignalWrite e.1)

end Sys2Proof.Machine
end

