-- ==== Sys2Proof/Machine/Reliability.lean ====
section
/-! DEFINITION. Fatal errors and the dump (R389), consumption of uncorrectable errors and containment (R392, R411 to R415), paired
execution (R408 to R410), failing links (R437 to R440), silent packages (R442, R450, R452) and the gang protocol (R449, R454). -/

namespace Sys2Proof.Machine

/-! Fatal errors (R389). -/

/-- An event that a host or the firmware still makes while the package is stopped. -/
def whileStopped : Instr → Bool
  | .dumpComplete | .packageReset | .thermalTrip | .hostMemoryAccess .. | .hostRegisterWrite .. => true
  | _ => false

/-- Queue states become ERROR with cause FAULT (R389, R358). -/
def State.stopQueue (s : State) (q : Nat) : State :=
  let s := s.firmwareWrite (s.qcb q + 0x80) (leBytes 4 7 ++ leBytes 4 (s.qGet q 0x14 4) ++ leBytes 24 0)
  (s.leaveSlot q qError).upQueue q Queue.stop

/-- A fatal error stops the package: the dump is in progress, queues are in ERROR, and nothing else happens but its end and what
hosts do (R389). -/
def State.fatal (s : State) (cause : Nat) : State :=
  if s.pkg.stopped then s
  else
    let s := s.upPkg (fun p => { p with
      stopped := true, fatalCause := cause, dumpinfo := p.dumpinfo.extractLsb' 12 52 ++ 2#12 })
    let s := (List.range (s.pkg.qtlen.toNat + 1)).foldl State.stopQueue s
    { s with agenda := .dumpComplete :: s.agenda.filter whileStopped }

/-- FATAL_ERROR (R389). -/
def execFatalError (cause : BitVec 32) (s : State) : Host.Outcome State Fault Refusal :=
  if 1 ≤ cause.toNat ∧ cause.toNat ≤ 3 then .next (s.fatal cause.toNat) else noEvent s

/-! The dump (R389). -/

/-- The window of a thread slot as a dump holds it: header KIND 3, with DSTAT. -/
def State.dumpWindow (s : State) (d i : Nat) : List Byte :=
  let t : Tid := ⟨d, i / 8, i % 8⟩
  let img := (s.thread t).image (s.ownedBanks t) FrameOnly.window
  img.take 0x1B00 ++ leBytes 8 (s.thread t).dstat.toNat ++ img.drop 0x1B08

/-- The contents of a section of a die: types 1, 2, 3, 6 and 7; scheduler SRAM, lock-manager queues and error logs have no layout in
the spec, and their bytes are open (log entry 24). -/
def State.dumpSection (s : State) (ty d : Nat) : List Byte :=
  match ty with
  | 1 => (List.range 2048).flatMap (s.dumpWindow d)
  | 2 => (List.range 256).flatMap (fun i => (s.bank (d * 32 + i / 8) (i % 8)).bytes)
  | 3 => (List.range 256).flatMap (fun c => (s.core (d * 256 + c)).scratch.bytes 0 (s.core (d * 256 + c)).scratchSize)
  | 6 => if field (s.die d).fring 0 4 = 0 ∧ field (s.die d).fring 12 40 = 0 then [] else s.mem.bytes (field (s.die d).fring 12 40 * 4096) (64 * 2 ^ field (s.die d).fring 0 4)
  | 7 => if s.qcb 0 / 2 ^ 36 = d then s.mem.bytes (s.qcb 0) (256 * (s.pkg.qtlen.toNat + 1)) else []
  | _ => tabulate (Config.pick (s.fresh + ty) % 2 ^ 20) (fun i => Config.pageByte (s.fresh + ty) i)

/-- The least horizon held by any lock manager. -/
def State.leastHorizon (s : State) : Nat :=
  match (List.range s.slices).map (fun j => s.hz j false) with
  | [] => 0
  | x :: r => r.foldl Nat.min x

/-- The sections of the dump: type, die, contents, and where they lie, which is open (log entry 24). -/
def State.dumpSections (s : State) : List (Nat × Nat × List Byte × Nat) :=
  (s.presentDies.flatMap (fun d => (List.range 8).map (fun i => (i + 1, d)))).zipIdx.map (fun x =>
    (x.1.1, x.1.2, s.dumpSection x.1.1 x.1.2, Config.dumpOffset x.2))

/-- The 256-byte header of the dump with a given digest, and its section entries. -/
def State.dumpHeader (s : State) (secs : List (Nat × Nat × List Byte × Nat)) (size digest : Nat) : List Byte :=
  leBytes 8 0x4D444C59 ++ leBytes 4 1 ++ leBytes 4 s.pkg.fatalCause ++ leBytes 8 size ++ leBytes 8 s.pkg.units.toNat
    ++ leBytes 8 (s.lidWord s.pkg.lastLid).toNat ++ leBytes 8 s.leastHorizon ++ leBytes 4 secs.length ++ leBytes 12 0 ++ leBytes 64 digest ++ leBytes 128 0
    ++ secs.flatMap (fun x =>
      leBytes 2 x.1 ++ leBytes 1 x.2.1 ++ leBytes 5 0 ++ leBytes 8 x.2.2.2 ++ leBytes 8 x.2.2.1.length ++ leBytes 8 0)

/-- The dump is written to the region of DUMPINFO, with its digest; no region is named by a BASE of 0 (R389). -/
def State.writeDump (s : State) : State :=
  let base := field s.pkg.dumpinfo 16 36 * 65536
  if base = 0 then s
  else
    let secs := s.dumpSections
    let head := s.dumpHeader secs 0 0
    let size := secs.foldl (fun n x => Nat.max n (x.2.2.2 + x.2.2.1.length)) head.length
    let s1 := secs.foldl (fun s x => s.firmwareWrite (base + x.2.2.2) x.2.2.1) s
    let s1 := s1.firmwareWrite base (s.dumpHeader secs size 0)
    s1.firmwareWrite (base + 0x40) (sha512 (s1.mem.bytes base size))

/-- DUMP_COMPLETE (R389): DUMPINFO.STATE goes from 2 to 1, and vector 63 is raised on each port. -/
def execDumpComplete (s : State) : Host.Outcome State Fault Refusal :=
  if s.pkg.dumpinfo.extractLsb' 0 12 != 2#12 then noEvent s
  else
    let s := s.writeDump.upPkg (fun p => { p with dumpinfo := p.dumpinfo.extractLsb' 12 52 ++ 1#12 })
    let s := if s.pkg.portA.present then s.raise false 63 else s
    .next (if s.pkg.portB.present then s.raise true 63 else s)

/-! Work that is lost. -/

/-- A slot loses its work with its jobs: a transaction, landed or bound, lands again, unless its commit has read every copy (R413), a
kernel slice fails with a reason, and a thread whose end was under way ends (R379, R410, R414, R415). -/
def State.loseThread (s : State) (t : Tid) (reason : Nat) : State :=
  let th := s.thread t
  if s.commitBegun t then s
  else
    let s := s.dropJobs t
    match th.status with
    | .free | .shadow _ => s
    | .reserved => s.loseLanding th.bind.lid th.bind.unit
    | .waiting .terminated => if s.holdsUnit t then s.terminate t else s.finishTerminated t
    | .waiting .condemned => s.killLaunch th.bind.lid reasonFault none
    | _ =>
      match th.txn with
      | some b => s.loseLanding th.bind.lid b.idx
      | none => (s.failSlice t reason).checkLost th.bind.lid

/-- The collectives of which a job is queued, by launch and number. -/
def State.liveCollectives (s : State) : List (Nat × Nat) :=
  (s.cores.flatMap (fun e => e.2.clq.map (fun j => ((s.thread j.owner).bind.lid, j.seqNo)))).eraseDups
/-- A collective fails whole with a cause: 1 CLEUE (R344), 3 LINK (R439). -/
def State.loseCollective (s : State) (cause : Nat) (x : Nat × Nat) : State :=
  (s.upLaunch x.1 (fun l => { l with lostCols := Assoc.put x.2 cause l.lostCols })).post [.collectiveExecute x.1 x.2]
/-- The collective of a job. -/
def State.collectiveOf (s : State) (j : Job) : Nat × Nat := ((s.thread j.owner).bind.lid, j.seqNo)

/-! Containment (R392, R411 to R415). -/

/-- The clusters inside a CRECT value. -/
def rectClusters (r : Word) : List Nat :=
  if r.getLsbD 10 then
    (List.range 32).filter (fun k => decide (field r 0 2 ≤ k % 4) && decide (k % 4 ≤ field r 2 2) && decide (field r 4 3 ≤ k / 4)
      && decide (k / 4 ≤ field r 7 3))
  else []
/-- The rectangle that holds a cluster of a die. -/
def State.rectOf (s : State) (d k : Nat) : Option (List Nat) :=
  ((s.die d).crect.toList.map rectClusters).find? (fun l => l.contains k)

/-- The threads that containment of clusters strikes: bound in them, with a copy in them, or with a bank or a queued job in one of
their engines. -/
def State.struck (s : State) (cls : List Nat) : List Tid :=
  let own := s.boundTids.filter (fun t => cls.contains t.clusterKey)
  let lead := own.map (fun t => match (s.thread t).status with | .shadow l => l | _ => t)
  let users := cls.flatMap (fun c => (List.range 8).filterMap (fun b => (s.bank c b).owner))
    ++ s.cores.flatMap (fun e => ((e.2.mxq ++ e.2.rsq ++ e.2.btq).filter (fun j => cls.contains j.cl)).map (·.owner))
  (lead ++ users).eraseDups

/-- Lease a unit at once, withdrawn with no work left on it: it goes straight to TESTING, or is retired by its score
(R395, R412, R437). A unit that is retired already stays so, and messages to it inside a containment are refused from now on. -/
def State.leaseNow (s : State) (u : UnitId) (contained : Bool) : State :=
  if (s.unitOf u).lease == .retired then s.upUnit u (fun x => { x with contained := x.contained || contained })
  else
    let s := (s.clearLeased u).upUnit u (fun x => { x with contained := contained })
    if (s.unitOf u).due then s.retireUnit u 1 else s.upUnit u (fun x => { x with lease := .testing })

/-- A core resets by itself: its cycle count goes on, since its island stays up (R128, R412). Its engines' job numbers start at 0
again, which the spec says of a core whose island leaves reset alone (R306, R321): DESIGN CHOICE, log entry 84. -/
def Core.contained (c : Core) : Core := { Core.reset with cyc := c.cyc }

/-- The cores and engines inside a rectangle reset together (R412 step 2). -/
def State.resetInside (s : State) (d : Nat) (cores keys : List Nat) : State :=
  keys.foldl (fun s k => s.setCluster k Cluster.reset) (cores.foldl (fun s c => s.upCore (d * 256 + c) Core.contained) s)

/-- Contain a rectangle (R412): 1, packets held inside are discarded; 2, cores and engines reset together, dirty bytes and jobs with
them, and each unit in service posts its KIND 1 notice to the launches READY or RUNNING then; 3, the work inside is lost; 4, the units
are leased as one group, with nothing that step 3 freed left in them. -/
def State.contain (s : State) (d : Nat) (rect : List Nat) : State :=
  let keys := rect.map (fun k => d * 32 + k)
  let cores := rect.flatMap coresOfCluster
  let hit := s.struck keys
  let cols := (s.cores.filter (fun e => keys.contains (clusterOfCore e.1))).flatMap (fun e =>
    e.2.clq.map (fun j => ((s.thread j.owner).bind.lid, j.seqNo)))
  let s := s.upDie d (fun x => { x with held := x.held.filter (fun h => !(h.tid.die == d && cores.contains h.tid.core)) })
  let s := s.resetInside d cores keys
  let units := cores.map (fun c => (⟨0, d, c⟩ : UnitId)) ++ rect.map (fun k => ⟨1, d, k⟩)
  let s := (units.filter (fun u => (s.unitOf u).lease != .retired)).foldl State.withdraw s
  let s := hit.foldl (fun s t => s.loseThread t 12) s
  let s := cols.eraseDups.foldl (fun s x => s.loseCollective 1 x) s
  units.foldl (fun s u => s.leaseNow u true) (s.resetInside d cores keys)

/-- An agent uses a poisoned value (R392): a core or a cluster's engines inside a rectangle are contained; anywhere else the error is
fatal. -/
def State.consumed (s : State) (u : UnitId) : State :=
  let k := if u.cls = 0 then some (clusterOf u.ix) else if u.cls = 1 then some u.ix else none
  match k.bind (s.rectOf u.die) with
  | some rect => s.contain u.die rect
  | none => s.fatal 1

/-- The L1 line that holds an address, with the marks of its 8-byte word set (R390, R392); none when no valid sector holds it. -/
def Core.markLine (c : Core) (asid : BitVec 16) (va : Nat) : Option Core :=
  match c.lineIx asid va with
  | none => none
  | some i =>
    let l := c.lineAt i
    if l.valid.getLsbD (va % 256 / 128) then
      some { c with l1 := c.l1.set i { l with poison := l.poison ||| BitVec.ofNat 256 (byteMask (va % 256 / 8 * 8) 8) } }
    else none

/-- The cause that an uncorrectable error of an engine's own storage gives a job: MXUE, RSUE, BTUE, CLEUE (R308, R332, R341, R344). -/
def engineError : Nat := 1

/-- An uncorrectable error of the MXE's latch or banks (R308): the job ends, its bank is poisoned, and it writes nothing more. R304 has
every job that writes its bank set dirty, R311 at its end: one that has added a step sets it as it ends here (DESIGN CHOICE, log entry
73). A core whose queue this empties ends its turn (R307). -/
def State.failMxe (s : State) (c : Nat) (j : Job) : State :=
  let s := (s.upJobBank j (fun b => { b with poison := true, dirty := b.dirty || decide (0 < j.prog) })).completeJob c .mxe
    { j with fail := some engineError } j.cl
  let s := s.endTurn j.cl c
  match (s.core c).mxq.head? with | some k => s.postOnce (.mxeStep k.cl) | none => s

/-- An uncorrectable error of the RSU's buffers (R332): the job ends with the flags of its conversions (R330), any subset of its output
granules written, and no table is changed. -/
def State.failRsu (s : State) (c : Nat) (j : Job) : State :=
  let j := { j with fail := some engineError }
  let r := match j.op with
    | .rktab _ => (s, j)
    | _ => rkJob s j
  let s := r.1.completeJob c .rsu { j with flags := r.2.flags } j.cl
  match (s.core c).rsq.head? with | some k => s.postOnce (.rsuPass k.cl) | none => s

/-- An uncorrectable error of the BTU's buffers (R341): any subset of the destination granules is written, and no buffer is advanced. The
flags are those of the conversions (R337). -/
def State.failBtu (s : State) (c : Nat) (j : Job) : State :=
  let f := { j with fail := some engineError, prog := 1 }
  let r := if j.prog = 0 then btJob s f else (s, f)
  let f := { f with flags := r.2.flags }
  (r.1.upCore c (fun k => { k with btq := k.btq.map (fun x => if x.id = j.id then f else x) })).post [.btuJobComplete c j.id]

/-- An uncorrectable error of an engine's own storage, during a core's oldest job of it (log entry 22): the cluster's engines gain
256, and the job fails. A collective fails on every participant (log entry 62). -/
def State.engineFault (s : State) (eng core : Nat) : Option State :=
  let k := s.core core
  let hit := fun (q : List Job) (f : State → Job → State) =>
    q.head?.map (fun j => f (s.charge ⟨1, j.cl / 32, j.cl % 32⟩ 256) j)
  match eng with
  | 0 => hit k.mxq (fun s j => s.failMxe core j)
  | 1 => hit k.rsq (fun s j => s.failRsu core j)
  | 2 => hit k.btq (fun s j => s.failBtu core j)
  | _ => k.clq.head?.map (fun j => s.loseCollective engineError (s.collectiveOf j))

/-- The channel that holds a physical address (R213): with channels of the die retired, one of the others, over which firmware has
interleaved the stack in a way that is open (R402; log entry 22). -/
def State.channelUnit (s : State) (pa : Nat) : UnitId :=
  let d := pa / 2 ^ 36
  let up := (List.range 32).filter (fun c => (s.unitOf ⟨2, d, c⟩).lease != .retired)
  if up.length = 32 then ⟨2, d, channelOf pa⟩ else ⟨2, d, up.getD (Config.pick s.fresh % up.length) 0⟩

/-- Mark a die's read replicas of a line. -/
def State.poisonReplicas (s : State) (die n : Nat) : State :=
  s.upDie die (fun d => { d with replicas := d.replicas.map (fun r =>
    if r.pline = n then { r with whole := Assoc.put n (BitVec.allOnes 256) r.whole } else r) })

/-- UE_CONSUMPTION (R390, R392, R395): what an error of storage does where it shows itself, and the unit of R390 that is charged for
it: a line of the L2, a replica among them, charges the channel of its slice's index, a read of a register uses its value at once.
Errors themselves come from outside the model (log entry 22). -/
def execUeConsumption (e : UeSite) (s : State) : Host.Outcome State Fault Refusal :=
  match e with
  | .used u => if s.isUnit u then .next (s.consumed u) else noEvent s
  | .hbm n =>
    if s.paPopulated (64 * n) then .next ((s.charge (s.channelUnit (64 * n)) 256).poisonMark (64 * n) 64)
    else noEvent s
  | .l2 n =>
    if s.pkg.l2.any (fun r => r.pline == n) then
      .next ((s.charge ⟨2, s.sliceDie (s.lineSlice n), s.lineSlice n % 32⟩ 256).poisonLine n)
    else noEvent s
  | .replica die n =>
    (match (s.die die).replicas.find? (fun r => r.pline == n) with
      | some r => .next ((s.charge ⟨2, die, r.slice⟩ 256).poisonReplicas die n)
      | none => noEvent s)
  | .register die core => if s.isUnit ⟨0, die, core⟩ then .next ((s.charge ⟨0, die, core⟩ 256).consumed ⟨0, die, core⟩) else noEvent s
  | .l1 die core asid va =>
    (match (s.core (die * 256 + core)).markLine asid va.toNat with
      | some k => .next ((s.setCore (die * 256 + core) k).charge ⟨0, die, core⟩ 256)
      | none => noEvent s)
  | .scratch die core n =>
    if s.isUnit ⟨0, die, core⟩ && decide (8 * n < (s.core (die * 256 + core)).scratchSize) then
      .next ((s.upCore (die * 256 + core) (fun k => k.poisonMark (8 * n) 8)).charge ⟨0, die, core⟩ 256)
    else noEvent s
  | .engine eng die core => (match s.engineFault eng (die * 256 + core) with | some r => .next r | none => noEvent s)
  | .lkmQueue die slice => if s.isUnit ⟨2, die, slice⟩ then .next ((s.charge ⟨2, die, slice⟩ 256).fatal 1) else noEvent s
  | .scheduler die => if s.presentDies.contains die then .next (s.fatal 1) else noEvent s
  | .corrected x => if s.isUnit x.unit then .next (s.charge x.unit 1) else noEvent s

/-! Paired execution (R408 to R410). -/

/-- The two copies of a thread disagree: each core gains 64, and the work is lost with PAIR_MISMATCH (R410). -/
def State.pairMismatch (s : State) (t : Tid) : State :=
  let cores := (t :: s.shadowsOf t).map (fun x => (⟨0, x.die, x.core⟩ : UnitId))
  let s := cores.foldl (fun s u => s.charge u 64) s
  s.loseThread t 13

/-- A leader of a pair. -/
def State.isLeader (s : State) (t : Tid) : Bool := (s.thread t).bind.paired && !(s.shadowsOf t).isEmpty

/-- PAIRED_COMPARE (R409, R410): a match forwards the leader's message, which is what the model does at once; a mismatch is charged. -/
def execPairedCompare (t : Tid) (agree : Bool) (s : State) : Host.Outcome State Fault Refusal :=
  if !s.isLeader t then noEvent s else if agree then .next s else .next (s.pairMismatch t)

/-- PAIR_TIMEOUT (R409, R410): a copy whose partner offers nothing counts as mismatched. -/
def execPairTimeout (t : Tid) (s : State) : Host.Outcome State Fault Refusal :=
  if !s.isLeader t then noEvent s else .next (s.pairMismatch t)

/-! Links (R427, R437 to R440). -/

/-- Those of a list that free choices about them name, each by its own. -/
def State.chooseFree {α : Type} (s : State) (what : Config.Choice) (l : List α) : List α :=
  (l.zipIdx.filter (fun x => Config.chosen what s.fresh x.2)).map Prod.fst

/-- A slice or transaction loses a message (R439): a bound one its work; a slice that has ended fails while its launch is not over. -/
def State.loseUnit (s : State) (x : Nat × Nat) : State :=
  let holds := fun (t : Tid) => (s.thread t).bind.lid == x.1 && (s.thread t).bind.unit == x.2
    && (match (s.thread t).status with | .free | .shadow _ => false | _ => true)
  match s.boundTids.find? holds with
  | some t => s.loseThread t 14
  | none =>
    match s.launch? x.1 with
    | some l => if !l.state.final && Assoc.find x.2 l.units == some .ended then s.endSlice x.1 x.2 none (some 14) else s
    | none => s

/-- A dirty line whose write-back crosses a boundary between its core's die and its home's. -/
def State.lineCrosses (s : State) (u : UnitId) (c : Nat) (l : L1Line) : Bool :=
  l.dirty != 0 && s.crosses u (c / 256) (s.sliceDie (s.home l.asid (l.vline * 256) false l.pline))

/-- The write-backs in flight on a failing boundary are lost: any of the dirty lines whose write-back crosses it; and every slice whose
bytes stand in one of them fails (R214, R438, R439; log entry 25). -/
def State.loseWriteBacks (s : State) (u : UnitId) : State :=
  let lost := s.chooseFree .lineLost (s.cores.flatMap (fun e => (e.2.l1.filter (s.lineCrosses u e.1)).map (fun l => (e.1, l))))
  let s := lost.foldl (fun s e => s.upCore e.1 (fun k => { k with l1 := k.l1.filter (· != e.2) })) s
  ((lost.flatMap (fun e => e.2.writers)).eraseDups).foldl State.loseUnit s

/-- Messages in flight on a failing link are lost (R439): any of the slots and collectives whose messages cross it may be the ones they
belong to (log entry 25). -/
def State.loseMessages (s : State) (slots : Tid → Bool) (cols : List (Nat × Nat)) : State :=
  let ts := s.chooseFree .threadLost (s.boundTids.filter slots)
  let lost := s.chooseFree .collectiveLost cols
  lost.foldl (fun s x => s.loseCollective 3 x) (ts.foldl (fun s t => s.loseThread t 14) s)

/-- A die exchanges messages over a boundary with some present die, each of which has home slices. -/
def State.dieCrosses (s : State) (u : UnitId) (d : Nat) : Bool := s.presentDies.any (s.crosses u d)

/-- Collective traffic crosses a boundary: some participant and the next, or the last and the first, exchange messages over it. -/
def State.ringCrosses (s : State) (u : UnitId) : Bool :=
  let ds := s.presentDies
  (ds.zip (ds.drop 1 ++ ds.take 1)).any (fun e => s.crosses u e.1 e.2)

/-- A link that has failed goes straight to TESTING, whether it was in service or draining for a lease already; work is asked to leave
only once (R437). -/
def State.failLink (s : State) (u : UnitId) : State :=
  if s.unitUp u then (s.withdraw u).leaseNow u false
  else if (s.unitOf u).due then s.retireUnit u 1 else s.upUnit u (fun x => { x with lease := .testing })

/-- A link that can fail: in service, or draining with flits still on it. -/
def State.carries (s : State) (u : UnitId) : Bool := s.isUnit u && (s.unitUp u || (s.unitOf u).lease == .draining)

/-- BOUNDARY_FAILURE (R427, R437 to R439). -/
def execBoundaryFailure (die ix : Nat) (s : State) : Host.Outcome State Fault Refusal :=
  let u : UnitId := ⟨3, die, ix⟩
  if !s.carries u then noEvent s
  else
    let cols := if s.ringCrosses u then s.liveCollectives else []
    .next ((((s.charge u 256).loseWriteBacks u).loseMessages (fun t => s.dieCrosses u t.die) cols).failLink u)

/-- A slot's messages reach other packages: it belongs to a gang, or its transaction uses an array of pod scope (R440). -/
def State.leavesPackage (s : State) (t : Tid) : Bool :=
  let th := s.thread t
  match s.launch? th.bind.lid with
  | none => false
  | some l => l.record.gangBit || (if th.bind.txn then s.launchPod l else false)

/-- DYWIN_LINK_FAILURE (R440): only what reaches other packages crosses the link; which of it, firmware's routes say. -/
def execDywinLinkFailure (die ix : Nat) (s : State) : Host.Outcome State Fault Refusal :=
  let u : UnitId := ⟨4, die, ix⟩
  let gangs := s.liveCollectives.filter (fun x => match s.launch? x.1 with | some l => l.record.gangBit | none => false)
  if !s.carries u then noEvent s
  else
    let s := s.charge u 256
    .next ((if s.inPod then s.loseMessages s.leavesPackage gangs else s).failLink u)

/-! Gangs (R449, R450, R454). -/

/-- REASON 15 (R448). -/
def reasonGangMismatch : Nat := 15
/-- REASON 10. -/
def reasonGangLost : Nat := 10
/-- Leader of a gang, and its packages. -/
def LaunchRec.leader (r : LaunchRec) : Nat := field r.gang 43 10
/-- NPKG of the gang. -/
def LaunchRec.gangSize (r : LaunchRec) : Nat := field r.gang 32 11

/-- The gang is lost to this member after START (R450): every thread is asked to stop, those that a pre-emption has stopped never resume,
outstanding collectives fail, unbound slices are never bound. A thread in a fault frame has not stopped: it comes back to stop at its
next cleavage point. -/
def State.loseGang (s : State) (lid : Nat) : State :=
  let saved := (((s.launch? lid).map Launch.frames).getD []).filter (fun f => f.kind != 0)
  let s := saved.foldl (fun s f => s.freeFrame f) s
  let endSaved := fun (e : Nat × UnitState) => match e.2 with
    | .saved f => if f.kind = 0 then e else (e.1, UnitState.failed reasonGangLost)
    | _ => e
  let s := s.upLaunch lid (fun l => { l with gang := 3, ranges := [], units := l.units.map endSaved })
  let ts := s.boundTids.filter (fun t => (s.thread t).bind.lid == lid)
  let s := ts.foldl (fun s t => s.askPreempt t) s
  ((s.liveCollectives.filter (fun x => x.1 == lid)).foldl (fun s x => s.loseCollective 3 x) s).checkLost lid

/-- GID of the gang. -/
def LaunchRec.gid (r : LaunchRec) : Nat := field r.gang 0 32
/-- The ACKs of a gang that have reached this package, in the order of package ids. -/
def State.acksOf (s : State) (r : LaunchRec) : List GangAck :=
  (List.range 1024).filterMap (fun p => (s.pkg.gangAcks.find? (fun e => e.1 == r.gid && e.2.pkg == p)).map Prod.snd)
/-- The gang is the whole pod. -/
def State.wholePod (s : State) (r : LaunchRec) : Bool := r.gangSize == s.podSize

/-- A package belongs to a gang: START has named it, or before START it is the leader, its ACK has come, or the gang is the whole pod. While
ACKs are out, whether another package is one of those that the record counts but does not name is open (log entry 20). -/
def State.inGang (s : State) (l : Launch) (p : Nat) : Bool :=
  let acks := s.acksOf l.record
  if !l.beforeStart then l.started.any (fun a => a.pkg == p)
  else p == l.record.leader || s.wholePod l.record || acks.any (fun a => a.pkg == p)
    || (decide (acks.length < l.record.gangSize) && Config.chosen .gangHas s.fresh p)

/-- The leader ends a gang before START (R449): ABORT goes to every package of the pod, of which the members take it. -/
def State.abortGang (s : State) (lid : Nat) (r : LaunchRec) (reason : Nat) : State :=
  let s := s.upPkg (fun p => { p with gangAcks := p.gangAcks.filter (fun e => e.1 != r.gid) })
  ((s.upLaunch lid (fun l => { l with reason := reason })).sendPods (.abort r.gid reason)).post [.gangAbort lid]

/-- What the silence of a package does to one launch (R449, R450). -/
def State.silenceLaunch (p : Nat) (s : State) (e : Nat × Launch) : State :=
  let l := e.2
  if l.state.final || !l.record.gangBit || l.gang == 3 || !s.inGang l p then s
  else if !l.beforeStart then s.loseGang e.1
  else if l.reason != 0 then s
  else if l.record.leader = s.pkgId then s.abortGang e.1 l.record reasonGangLost
  else if p = l.record.leader ∧ l.gang = 1 then s.endLaunch e.1 .refused reasonGangLost
  else s

/-- The records that a package has not answered count as KILL (R452). -/
def State.killUnanswered (s : State) (p : Nat) : State :=
  let lost := fun (r : PageFault) => r.owner == p && r.answer.isNone
  let s := s.post ((s.pkg.pageFaults.filter lost).map (fun r => .pageFaultKill r.asid r.vpage))
  s.upPkg (fun x => { x with pageFaults := x.pageFaults.map (fun r => if lost r then { r with answer := some none } else r) })

/-- PACKAGE_SILENCE (R442): gangs follow R449 and R450; page-fault records that the package has not answered count as KILL (R452). -/
def execPackageSilence (p : Nat) (s : State) : Host.Outcome State Fault Refusal :=
  if p = s.pkgId || decide (field s.pkg.podcfg 10 11 ≤ p) || s.pkg.silent.contains p then noEvent s
  else
    let s := s.upPkg (fun x => { x with silent := x.silent ++ [p] })
    .next (s.pkg.launches.foldl (State.silenceLaunch p) (s.killUnanswered p))

/-- What this package's own silence does to one launch (R449, R450): a member past START loses its gang; one whose ACK has gone to a
leader that no longer hears it ends REFUSED. -/
def State.endSilent (s : State) (e : Nat × Launch) : State :=
  let l := e.2
  if l.state.final || !l.record.gangBit || l.gang == 3 then s
  else if !l.beforeStart then s.loseGang e.1
  else if l.gang = 1 ∧ l.record.leader ≠ s.pkgId then s.endLaunch e.1 .refused reasonGangLost
  else s

/-- CONTACT_REGAINED (R449, R450): another package is heard again; this package itself, silent to its gangs until now, learns that they
are lost and ends its members. -/
def execContactRegained (p : Nat) (s : State) : Host.Outcome State Fault Refusal :=
  if p = s.pkgId then
    .next (s.pkg.launches.foldl State.endSilent s)
  else if s.pkg.silent.contains p then .next (s.upPkg (fun x => { x with silent := x.silent.filter (· != p) }))
  else noEvent s

/-- The slices of a contiguous range of groups that the first k entries of a trace name, each once (R454). -/
def LaunchRec.tracedRange (r : LaunchRec) (tr : List Word) (k : Nat) : Option (Nat × Nat) :=
  let ids := (tr.take k).map (fun e => field e 0 32)
  let lo := ids.foldl Nat.min (ids.headD 0)
  let hi := ids.foldl (fun m i => Nat.max m (i + 1)) 0
  if k ≠ 0 ∧ ids.eraseDups.length = k ∧ hi - lo = k ∧ hi ≤ r.nslice ∧ lo % r.groupSize = 0 ∧ (hi % r.groupSize = 0 ∨ hi = r.nslice)
  then some (lo, hi) else none

/-- A gang member's own part of its trace (R454): the longest beginning that names one contiguous range of groups on cores of the
part; its length and range. -/
def State.ownTrace (s : State) (l : Launch) : Option (Nat × Nat × Nat) :=
  ((List.range (l.trace.length + 1)).reverse).findSome? (fun k =>
    if (l.trace.take k).all (fun e => decide (field e 32 12 < 2304) && field e 47 17 == 0 && s.presentDies.contains (traceTid e).die)
    then (l.record.tracedRange l.trace k).map (fun x => (k, x)) else none)

/-- This package's ACK (R449, R454). -/
def State.ackOf (s : State) (l : Launch) : GangAck where
  pkg := s.pkgId
  rsig := l.rsig
  nslice := l.record.nslice
  dgrp := l.record.dgrp
  clusters := s.presentDies.map s.availClusters
  range := if l.record.replays then (s.ownTrace l).map Prod.snd else none

/-- An ACK reaches the leader: one of each package counts. -/
def State.takeAck (s : State) (gid : Nat) (a : GangAck) : State :=
  let s := s.upPkg (fun p => { p with gangAcks := p.gangAcks.filter (fun e => !(e.1 == gid && e.2.pkg == a.pkg)) ++ [(gid, a)] })
  s.post ((s.pkg.launches.filter (fun e => e.2.record.gangBit && e.2.record.gid == gid && !e.2.state.final)).map (fun e => .gangAcksComplete e.1))

/-- GANG_ACK (R449): a member whose counter has reached 0 sends its ACK; a member whose leader is silent ends REFUSED. -/
def execGangAck (lid : Nat) (s : State) : Host.Outcome State Fault Refusal :=
  match s.launch? lid with
  | some l =>
    if l.state != .ready || !l.record.gangBit || l.gang != 0 then noEvent s
    else
      let a := s.ackOf l
      let s := s.upLaunch lid (fun l => { l with gang := 1 })
      if s.pkg.silent.contains l.record.leader then .next (s.endLaunch lid .refused reasonGangLost)
      else .next (if l.record.leader = s.pkgId then s.takeAck l.record.gid a else s.sendPod l.record.leader (.ack l.record.gid a))
  | none => noEvent s

/-- The traced ranges of ACKs in the order of package ids tile the slices from a place to the end (R454). -/
def tiles (nslice : Nat) : Nat → List GangAck → Bool
  | at_, [] => at_ == nslice
  | at_, a :: r => match a.range with | some (lo, hi) => lo == at_ && tiles nslice hi r | none => false

/-- ACKs agree in RSIG, NSLICE and DGRP (R449). -/
def agree : List GangAck → Bool
  | [] => true
  | a :: r => r.all (fun b => b.rsig == a.rsig && b.nslice == a.nslice && b.dgrp == a.dgrp)

/-- GANG_ACKS_COMPLETE (R449, R454): the leader has the ACKs of NPKG packages, none of them silent, and sends START with what they say when
they agree, and when the ranges of a replay tile the groups; else ABORT. -/
def execGangAcksComplete (lid : Nat) (s : State) : Host.Outcome State Fault Refusal :=
  match s.launch? lid with
  | some l =>
    let r := l.record
    let acks := s.acksOf r
    if l.state != .ready || l.gang != 1 || r.leader != s.pkgId || l.reason != 0 || decide (acks.length < r.gangSize) then noEvent s
    else if acks.any (fun a => s.pkg.silent.contains a.pkg) then .next (s.abortGang lid r reasonGangLost)
    else if r.replays && !tiles r.nslice 0 acks then .next (s.abortGang lid r reasonTrace)
    else if !agree acks then .next (s.abortGang lid r reasonGangMismatch)
    else
      let s := s.upPkg (fun p => { p with gangAcks := p.gangAcks.filter (fun e => e.1 != r.gid) })
      let s := (acks.filter (fun a => a.pkg != s.pkgId)).foldl (fun s a => s.sendPod a.pkg (.start r.gid acks)) s
      .next ((s.upLaunch lid (fun l => { l with started := acks })).post [.gangStart lid])
  | none => noEvent s

/-- Dies and available clusters of some members. -/
def clustersOf (l : List GangAck) : Nat × Nat :=
  ((l.map (fun a => a.clusters.length)).foldl (· + ·) 0, (l.flatMap (·.clusters)).foldl (· + ·) 0)

/-- GANG_START (R449, R454): the groups are divided by R172 over all dies of the gang in the order of package ids, by the clusters that the
ACKs gave, and this package binds its own share; a replay binds its traced range. One that holds another member silent already has lost
its gang (R450). -/
def execGangStart (lid : Nat) (s : State) : Host.Outcome State Fault Refusal :=
  match s.launch? lid with
  | some l =>
    if l.state != .ready || l.gang != 1 || l.reason != 0 || l.started.isEmpty then noEvent s
    else
      let lo := clustersOf (l.started.filter (fun a => decide (a.pkg < s.pkgId)))
      let hi := clustersOf (l.started.filter (fun a => decide (s.pkgId < a.pkg)))
      let mine := ((l.started.find? (fun a => a.pkg == s.pkgId)).map (·.clusters)).getD []
      let rs := s.divideBy (fun d => mine.getD (s.dieRank d) 0) l.record.divided lo.2 hi.2
      let own := if l.record.replays then
          (match s.ownTrace l with
            | some (k, a, b) => (l.trace.take k, [(s.presentDies.headD 0, a, b)])
            | none => ([], []))
        else (l.trace, rs)
      let share := if !l.record.replays && rs.isEmpty && lo.2 + hi.2 == 0 then (0, l.record.nslice) else spanOf own.2
      let s := s.setLaunch lid { l with gang := 2, gangLo := lo, gangHi := hi, trace := own.1, ranges := own.2, share := share }
      .next (if l.started.any (fun a => s.pkg.silent.contains a.pkg) then s.loseGang lid else s.checkLaunchOver lid)
  | none => noEvent s

/-- GANG_ABORT (R449): a member ends REFUSED, with the leader's reason. -/
def execGangAbort (lid : Nat) (s : State) : Host.Outcome State Fault Refusal :=
  match s.launch? lid with
  | some l =>
    if l.state.final || !l.record.gangBit || !l.beforeStart || l.reason = 0 then noEvent s
    else .next (s.endLaunch lid .refused l.reason)
  | none => noEvent s

end Sys2Proof.Machine
end

