-- ==== Sys2Proof/Machine/Firmware.lean ====
section
/-! DEFINITION. What hosts and firmware do to the package: the memory aperture and host registers (R345, R359), attestation (R457),
power islands and clocks (R458 to R460), and the package reset (R461). -/

namespace Sys2Proof.Machine

/-! Host accesses (R345, R359). -/

/-- The PA behind n bytes at an offset of a port's aperture (R345), placed by HAPBASE; none where no stack of a present die answers. -/
def State.aperture (s : State) (port : Bool) (off n : Nat) : Option Nat :=
  let pa := (s.port port).hapbase.toNat * 2 ^ 36 + off
  if (s.port port).present && decide (off + n ≤ 2 ^ 36) && s.paPopulated pa && s.paPopulated (pa + n - 1) then some pa else none

/-- HOST_MEMORY_ACCESS (R345): a write through the aperture is performed at the home at system scope; a read changes nothing, nor does an
access that no stack answers. -/
def execHostMemoryAccess (port : Bool) (off : Nat) (data : Option (List (BitVec 8))) (s : State) : Host.Outcome State Fault Refusal :=
  match data with
  | some bs => (match s.aperture port off bs.length with | some pa => .next (s.portWrite port pa bs) | none => noEvent s)
  | none => noEvent s

/-- A port's link is up: the port is there, and power has not been removed (R460). -/
def State.linkUp (s : State) (port : Bool) : Bool := (s.port port).present && !s.pkg.tripped

/-- What a host's read of n bytes of BAR4 answers (R345): the bytes at their homes, at system scope; nothing where no stack answers or the
link is down. -/
def State.apertureRead (s : State) (port : Bool) (off n : Nat) : Option (List Byte) :=
  if s.linkUp port then (s.aperture port off n).map (fun pa => s.mem.bytes pa n) else none

/-- GO of a port's ATTCTL (R457): ignored while a report is being signed; else the report takes the nonce as it stands. -/
def State.attestGo (s : State) (port : Bool) : State :=
  s.upPort port (fun p => if p.busy then p else { p with busy := true, attDone := false, busyNonce := p.nonce })

/-- The host registers that take a write (R359, R457): DBDROP clears the bits written as 1, HAPBASE keeps its field, the nonce its
bytes, ATTCTL starts a report; every other register is read-only. -/
def Port.write (p : Port) (off : Nat) (v : Word) : Port :=
  if off = 0x010 then { p with dbdrop := p.dbdrop &&& ~~~(v.setWidth 32) }
  else if off = 0x018 then { p with hapbase := v.extractLsb' 36 16 }
  else if 0x800 ≤ off ∧ off < 0x840 ∧ off % 8 = 0 then
    let sh := 8 * (off - 0x800)
    { p with nonce := (p.nonce &&& ~~~(wordAt sh)) ||| (v.setWidth 512 <<< sh) }
  else p
where
  /-- The 64 bits at a place of the nonce. -/
  wordAt (sh : Nat) : BitVec 512 := (BitVec.allOnes 64).setWidth 512 <<< sh

/-- HOST_REGISTER_WRITE (R345, R359, R457). -/
def execHostRegisterWrite (port : Bool) (off : Nat) (val : BitVec 64) (s : State) : Host.Outcome State Fault Refusal :=
  if !(s.port port).present then noEvent s
  else if off = 0x038 then .next (if val.getLsbD 0 then s.attestGo port else s)
  else .next (s.upPort port (fun p => p.write off val))

/-! Images (R455). -/

/-- The bytes that an image's signature covers: version, request to rise, digest (log entry 63). -/
def FwImage.message (x : FwImage) : List Byte :=
  leBytes 4 x.version.toNat ++ leBytes 1 (if x.raises then 1 else 0) ++ beBytes 64 x.digest.toNat

/-- The boot ROM accepts an image (R455): its digest is that of its body, its key is the one fused, its signature verifies under it, and
its version is at least the fused minimum. -/
def Package.accepts (p : Package) (x : FwImage) : Bool :=
  sha512 x.body == beBytes 64 x.digest.toNat && sha512 (beBytes 512 x.key.toNat) == beBytes 64 p.keyHash.toNat
    && pssVerify x.key x.signature x.message && decide (p.minVersion ≤ x.version)

/-- The slots in the order the ROM tries them (R455): the higher version first, A first when they are equal (log entry 63). -/
def Package.bootOrder (p : Package) : List (Bool × FwImage) :=
  if p.flashA.version < p.flashB.version then [(true, p.flashB), (false, p.flashA)] else [(false, p.flashA), (true, p.flashB)]
/-- The image that boots, with its slot; none when neither is accepted. -/
def Package.bootImage (p : Package) : Option (Bool × FwImage) := p.bootOrder.find? (fun e => p.accepts e.2)
/-- The image that runs: that of BOOTST.SLOT. -/
def Package.running (p : Package) : FwImage := if p.bootst.getLsbD 4 then p.flashB else p.flashA

/-! Attestation (R457). -/

/-- ATTESTATION_GO (R457). -/
def execAttestationGo (port : Bool) (s : State) : Host.Outcome State Fault Refusal :=
  if (s.port port).present then .next (s.attestGo port) else noEvent s

/-- The body of a report (R457). -/
def State.reportBody (s : State) (port : Bool) : List Byte :=
  leBytes 4 0x54414C59 ++ leBytes 4 1 ++ leBytes 1 (if port then 1 else 0) ++ leBytes 7 0 ++ leBytes 8 s.pkg.units.toNat
    ++ leBytes 4 (field s.pkg.bootst 16 32) ++ leBytes 4 (field s.pkg.retinfo 0 13) ++ leBytes 64 (s.port port).busyNonce.toNat
    ++ sha512 s.pkg.running.body ++ leBytes 8 (s.lidWord s.pkg.lastLid).toNat ++ leBytes 88 0

/-- ATTESTATION_REPORT_DONE (R456, R457): the report with its signature stands in the window, and DONE is set. -/
def execAttestationReportDone (port : Bool) (s : State) : Host.Outcome State Fault Refusal :=
  if !(s.port port).busy then noEvent s
  else
    let r := s.signed (s.reportBody port)
    .next (s.upPort port (fun p => { p with busy := false, attDone := true, report := r }))

/-! Reads of host registers (R359, R389, R417, R456, R457, R461). -/

/-- Eight bytes of a list from an offset, as a word; zero beyond its end. -/
def wordOf (l : List Byte) (o : Nat) : Word := BitVec.ofNat 64 (leNat ((l.drop o).take 8))

/-- The word of the host registers at an aligned offset of BAR2; an offset without a register reads 0 (log entry 29). -/
def State.hostWord (s : State) (port : Bool) (off : Nat) : Word :=
  let p := s.port port
  if off = 0x000 then BitVec.ofNat 64 (s.pkg.qtlen.toNat + s.pkg.qtbase.toNat * 65536)
  else if off = 0x008 then p.slotport
  else if off = 0x010 then p.dbdrop.setWidth 64
  else if off = 0x018 then BitVec.ofNat 64 (p.hapbase.toNat * 2 ^ 36)
  else if off = 0x020 then s.pkg.dumpinfo
  else if off = 0x028 then s.pkg.retinfo
  else if off = 0x030 then s.pkg.bootst
  else if off = 0x038 then BitVec.ofNat 64 ((if p.busy then 2 else 0) + (if p.attDone then 4 else 0))
  else if 0x800 ≤ off ∧ off < 0x840 then wordOf (leBytes 64 p.nonce.toNat) (off - 0x800)
  else if 0x1000 ≤ off ∧ off < 0x1300 then wordOf p.report (off - 0x1000)
  else if 0x2000 ≤ off ∧ off < 0x2200 then wordOf (beBytes 512 s.pkg.devKey.modulus.toNat) (off - 0x2000)
  else if 0x3000 ≤ off ∧ off < 0x4000 then wordOf (leBytes 4 s.pkg.cert.length ++ s.pkg.cert) (off - 0x3000)
  else 0

/-- What an aligned 64-bit read of BAR2 answers: nothing while the link is down (R460). -/
def State.hostRead (s : State) (port : Bool) (off : Nat) : Option Word := if s.linkUp port then some (s.hostWord port off) else none

/-- What a read of a slot page of BAR0 answers (R348, R460). -/
def State.doorbellRead (s : State) (port : Bool) (page off : Nat) : Option Word :=
  if s.linkUp port then some (s.doorbellWord page off) else none

/-! Power islands (R458 to R460). -/

/-- Compute clock limits in MHz (R458). -/
def clockOk (mhz : Nat) : Bool := decide (800 ≤ mhz) && decide (mhz ≤ 2400)
/-- L2-and-mesh clock limits in MHz (R458). -/
def meshClockOk (mhz : Nat) : Bool := decide (1200 ≤ mhz) && decide (mhz ≤ 2400)

/-- THERMAL_THROTTLE (R460): 100 MHz lower, down to 0.8 GHz. -/
def execThermalThrottle (die : Nat) (s : State) : Host.Outcome State Fault Refusal :=
  if s.presentDies.contains die then .next (s.upDie die (fun d => { d with clock := Nat.max 800 (d.clock - 100) })) else noEvent s

/-- THERMAL_TRIP (R460): power is removed; nothing but a package reset follows. -/
def execThermalTrip (s : State) : Host.Outcome State Fault Refusal :=
  .next { s.upPkg (fun p => { p with tripped := true }) with agenda := s.agenda.filter (fun e => e == .packageReset) }

/-- The clock of an island is changed, if it has one that can take the value (R458): islands 0 to 8 are compute, 9 to 17 L2 and mesh,
18 to 20 HBM PHY groups; the others are fixed. -/
def State.setClock (s : State) (island mhz : Nat) : Option State :=
  if island < 9 then
    (if s.presentDies.contains island && clockOk mhz then some (s.upDie island (fun d => { d with clock := mhz })) else none)
  else if island < 18 then
    (if s.presentDies.contains (island - 9) && meshClockOk mhz then some (s.upDie (island - 9) (fun d => { d with meshClock := mhz }))
     else none)
  else if island < 21 then
    (if mhz = 3200 then some (s.upPkg (fun p => { p with hbmSlow := insertNat (island - 18) (p.hbmSlow.filter (· != island - 18)) }))
     else if mhz = 6400 then some (s.upPkg (fun p => { p with hbmSlow := p.hbmSlow.filter (· != island - 18) }))
     else none)
  else none

/-- DVFS_CHANGE (R458, R459): firmware changes a clock within its range, and the island's voltage with it to a value the spec leaves
open; timing only. -/
def execDvfsChange (island mhz : Nat) (s : State) : Host.Outcome State Fault Refusal :=
  match s.setClock island mhz with
  | some z => .next (z.upPkg (fun p => { p with volts := Assoc.put island (Config.word s.fresh) p.volts }))
  | none => noEvent s

/-- A compute island may be gated: no core of the die has a resident launch (R458). -/
def State.computeIdle (s : State) (d : Nat) : Bool :=
  (List.range 256).all (fun c => (s.core (d * 256 + c)).resident.isNone && !s.coreBusy (d * 256 + c))

/-- The host-interface island may be gated: every queue is IDLE or DISABLED, and no fault or page-fault record is pending (R458). A
packet with the firmware complex is pending while its thread is frozen (R375). -/
def State.hostIdle (s : State) : Bool :=
  (List.range (s.pkg.qtlen.toNat + 1)).all (fun q => (s.qState q == qIdle || s.qState q == qDisabled) && !(s.queue q).pending)
    && s.pkg.pageFaults.isEmpty
    && s.dies.all (fun e => e.2.held.isEmpty && e.2.firmware.all (fun h => (s.thread h.tid).status.freeze?.isNone))

/-- ISLAND_GATE (R458): what stands dirty in the L1s of a compute island is written back first, so that no result depends on the gating
(R459). -/
def execIslandGate (island : Nat) (s : State) : Host.Outcome State Fault Refusal :=
  if island < 9 then
    (if s.presentDies.contains island && s.computeIdle island then
      .next (((List.range 256).foldl (fun s c => s.writeBackAll (island * 256 + c)) s).upDie island (fun d => { d with gated := true }))
     else noEvent s)
  else if island = 22 ∧ s.hostIdle then .next (s.upPkg (fun p => { p with hostGated := true }))
  else noEvent s

/-- ISLAND_POWER_UP (R459, R349): a die's scratchpads, L1s and register files read as after reset, and nothing else does: the job-id
counters of R306 and the pointers of R307 keep their values over a gating (DESIGN CHOICE, log entry 78). -/
def execIslandPowerUp (island : Nat) (s : State) : Host.Outcome State Fault Refusal :=
  if island < 9 ∧ (s.die island).gated then
    let wake := fun (e : Nat × Core) =>
      if e.1 / 256 = island then (e.1, { e.2 with scratch := [], poison := [], fe := [], l1 := [], icache := [] }) else e
    .next ({ s with cores := s.cores.map wake }.upDie island (fun d => { d with gated := false }))
  else if island = 22 ∧ s.pkg.hostGated then .next (s.upPkg (fun p => { p with hostGated := false }))
  else noEvent s

/-! Package reset (R461). -/

/-- The memory channels that failed their test are retired, with their records, once firmware runs (R402, R417). -/
def State.retireChannels (s : State) (image : Option (Bool × FwImage)) : State :=
  if image.isNone then s else (s.pkg.unitTab.filter (fun x => x.failed && x.lease != .retired)).foldl (fun s x => s.retireUnit x.uid 2) s

/-- A die after the boot: the registers that firmware sets keep the values it gave them (log entry 2). -/
def Die.reboot (d : Die) : Die :=
  { Die.reset with accspill := d.accspill, ffrgn := d.ffrgn, supv := d.supv, fring := d.fring }

/-- A port after the boot. -/
def Port.reboot (p : Port) : Port := Port.reset p.present p.slotport

/-- BOOTST after a boot (R461): PHASE, SLOT, FAIL, TRIP as the last power-off left it, and FWVER. -/
def bootWord (phase fail : Nat) (trip : Bool) (image : Option (Bool × FwImage)) : Word :=
  let run := match image with
    | some (b, x) => (if b then 16 else 0) + x.version.toNat * 65536
    | none => 0
  BitVec.ofNat 64 (phase + fail * 256 + (if trip then 4096 else 0) + run)

/-- The package after the boot has ended in a phase: scores, retirements, images and fuses stay, a retired channel is gone from now on
(R402), firmware's registers keep the values it gave them (log entry 2), and the fused minimum version rises when the image asks for
it (R455). -/
def Package.reboot (p : Package) (phase fail : Nat) (image : Option (Bool × FwImage)) : Package :=
  let again := fun (x : UnitStatus) =>
    { x with lease := if x.lease == .retired then .retired else .inService, contained := false,
             failed := x.failed && image.isNone,
             early := x.early || x.due }
  let least := match image with
    | some (_, x) => if x.raises && decide (p.minVersion < x.version) then x.version else p.minVersion
    | none => p.minVersion
  { Package.reset with
    units := p.units, astb := p.astb, ustb := p.ustb, fslog := p.fslog, podcfg := p.podcfg, arotb := p.arotb
    unitTab := p.unitTab.map again
    portA := p.portA.reboot, portB := p.portB.reboot, qtlen := p.qtlen, qtbase := p.qtbase
    bootst := bootWord phase fail (p.tripped || p.bootst.getLsbD 12) image
    dumpinfo := p.dumpinfo, retinfo := p.retinfo, retired := p.retired
    flashA := p.flashA, flashB := p.flashB, keyHash := p.keyHash, minVersion := least, devKey := p.devKey, cert := p.cert }

/-- How a boot ends: PHASE and FAIL (R455, R461). Without an acceptable image the package stays in the ROM; whether memory and links
train is open (log entry 63). -/
def State.bootEnd (s : State) (image : Option (Bool × FwImage)) : Nat × Nat :=
  if image.isNone then (15, 1)
  else if Config.trainingFails s.fresh 0 then (15, 2)
  else if Config.trainingFails s.fresh 1 then (15, 3)
  else (5, 0)

/-- The QCB that firmware sets for a queue at boot (R347, R461): what firmware writes of it is as before (log entry 2), and the rest is 0:
the queue is IDLE, with nothing outstanding. -/
def bootQcb (m : Memory) (a : Nat) : List Byte := m.bytes a 16 ++ leBytes 16 0 ++ m.bytes (a + 0x20) 64 ++ leBytes 160 0

/-- Step 5 of the boot (R461): firmware sets the queue table, and its copy of the retirement records and the unit status table from
flash (R394, R417). The memory is that before the reset. -/
def State.setTables (s : State) (m : Memory) : State :=
  let s := (List.range (s.pkg.qtlen.toNat + 1)).foldl (fun s q => s.firmwareWrite (s.qcb q) (bootQcb m (s.qcb q))) s
  let base := field s.pkg.retinfo 16 36
  (if base = 0 then s else s.firmwareWrite (base * 65536) s.pkg.retired.flatten).writeTable

/-- PACKAGE_RESET (R461, R402, R441, R455): the boot order as one step, from fuses to ready. What was due before it is lost. Memory
keeps its contents, so that a dump can be read, but for a loss of power (log entry 2); firmware that runs sets its tables. -/
def execPackageReset (s : State) : Host.Outcome State Fault Refusal :=
  let image := s.pkg.bootImage
  let m := s.mem
  let s := s.retireChannels image
  let boot := s.bootEnd image
  let s := { s with
    threads := [], cores := [], clusters := [], dies := s.dies.map (fun e => (e.1, e.2.reboot)), pkg := s.pkg.reboot boot.1 boot.2 image
    mem := if s.pkg.tripped then [] else s.mem, poison := if s.pkg.tripped then [] else s.poison,
    lpoison := if s.pkg.tripped then [] else s.lpoison, cur := ⟨0, 0, 0⟩, urgent := [], agenda := [] }
  .next (if boot.1 = 5 then s.setTables m else s)

end Sys2Proof.Machine
end

