-- ==== Sys2Proof/Machine/WideAcc.lean ====
section
/-! DEFINITION. Wide accumulators: addition and read-out (R51 to R53), their entries at the home slices (R240), and the spill
region (R245). -/

namespace Sys2Proof.Machine

/-- A freshly initialised accumulator: all zero (R51). -/
def WideAcc.zero : WideAcc := ⟨0, 0, false, false, false, false, false, false⟩

/-- VAL and XC after adding an integer number of units of 2^−149 (R52). -/
def WideAcc.addUnits (a : WideAcc) (x : Int) : WideAcc :=
  let t : Int := a.val.toInt + a.xc.toInt * 2 ^ 320 + x
  let w := (t + 2 ^ 319) / (2 ^ 320 : Int)
  let wc := clampInt (-128) 127 w
  { a with val := BitVec.ofInt 320 (t - wc * 2 ^ 320), xc := BitVec.ofInt 8 wc, xsat := a.xsat || w != wc }

/-- Add a binary32 encoding under the adder's FPM: the accumulator and the flags (R52). -/
def WideAcc.add (a : WideAcc) (fpm : BitVec 6) (x : Nat) : WideAcc × BitVec 5 :=
  let v := binary32.operand fpm x
  let negZero := match v with | .num true 0 _ => true | _ => false
  let a := { a with any := true, nnz := a.nnz || !negZero }
  match v with
  | .nan _ _ _ => ({ a with nan := true }, snanFlag [v])
  | .inf false => ({ a with pinf := true }, 0)
  | .inf true => ({ a with ninf := true }, 0)
  | .num n m e => (a.addUnits (scaled n m e (-149)), 0)

/-- The read-out of R53. -/
def WideAcc.readOut (a : WideAcc) (F : FloatFmt) (fpm : BitVec 6) : Nat × BitVec 5 :=
  if a.nan then (F.canonNan, 0)
  else if a.pinf && a.ninf then (F.canonNan, flagNV)
  else if a.pinf then (F.infBits false, 0)
  else if a.ninf then (F.infBits true, 0)
  else if a.xsat || a.xc != 0 then (F.infBits a.xc.msb, flagOF ||| flagPE)
  else if a.val = 0 then
    (if !a.any then F.signBit false
     else if !a.nnz then F.signBit true
     else F.signBit (fpmRm fpm == 3), 0)
  else F.roundNum fpm a.val.msb a.val.toInt.natAbs (-149)

/-- The 48 bytes of an accumulator (R51). -/
def WideAcc.bytes (a : WideAcc) : List Byte :=
  leBytes 40 a.val.toNat ++ leBytes 8 (a.xc.toNat + 2 ^ 8 * bitsNat [a.xsat, a.pinf, a.ninf, a.nan, a.any, a.nnz])

/-! Entries (R240, R245). -/

/-- An entry's key. -/
def AccEntry.keyIs (e : AccEntry) (k : Option (BitVec 16)) (va : Nat) : Bool := e.asid == k && e.va == va
/-- The slice that holds the accumulator of a word: the home of its line, of which `tbl` gives the physical line on a TBL page (R240,
R255; log entry 26). -/
def State.accSlice (s : State) (k : Option (BitVec 16)) (va : Nat) (tbl : Option Nat) : Nat := s.home k va tbl.isSome (tbl.getD 0)
/-- The slice of an entry. -/
def State.slotOf (s : State) (e : AccEntry) : Nat := s.accSlice e.asid e.va e.tbl
/-- The die of that slice. -/
def State.accDie (s : State) (e : AccEntry) : Nat := s.sliceDie (s.slotOf e)
/-- The entry of a key. -/
def State.accFind (s : State) (k : Option (BitVec 16)) (va : Nat) : Option AccEntry := s.pkg.accs.find? (fun e => e.keyIs k va)
/-- The accumulator of a word: freshly initialised without an entry (R240). -/
def State.accRead (s : State) (k : Option (BitVec 16)) (va : Nat) : WideAcc := ((s.accFind k va).map (·.acc)).getD WideAcc.zero
/-- Entries that stand in a slice. -/
def State.accsIn (s : State) (slice : Nat) : List AccEntry :=
  s.pkg.accs.filter (fun e => e.spilled.isNone && s.slotOf e == slice)
/-- Entries of a die that stand in its spill region. -/
def State.spilledOn (s : State) (d : Nat) : Nat := (s.pkg.accs.filter (fun e => e.spilled.isSome && s.accDie e == d)).length
/-- Entries a die's spill region holds: 1,024 for each unit of ACCSPILL.SIZE. -/
def State.spillRoom (s : State) (d : Nat) : Nat := 1024 * field (s.die d).accspill 0 16
/-- The lowest free place of a die's spill region. -/
def State.spillPlace (s : State) (d : Nat) : Option Nat :=
  (List.range (Nat.min (s.spillRoom d) (s.spilledOn d + 1))).find? (fun i =>
    !s.pkg.accs.any (fun e => e.spilled == some i && s.accDie e == d))

/-- The image of a spilled entry stands in its place: the layout of R51, then a key of 16 bytes whose form the spec does not give
(log entry 26). -/
def State.writeSpilled (s : State) (e : AccEntry) : State :=
  match e.spilled with
  | none => s
  | some i =>
    let d := s.accDie e
    let key := leBytes 8 (Config.word (e.va + i)).toNat ++ leBytes 8 (Config.word (e.va + i + 1)).toNat
    s.homeWrite d d (cellsAt (field (s.die d).accspill 16 36 * 65536 + 64 * i) (e.acc.bytes ++ key))

/-- Replace an entry. -/
def State.accPut (s : State) (e : AccEntry) : State :=
  (s.upPkg (fun p => { p with accs := e :: p.accs.filter (fun x => !x.keyIs e.asid e.va) })).writeSpilled e
/-- Free an entry: the word's accumulator is in the zero state. -/
def State.accFree (s : State) (k : Option (BitVec 16)) (va : Nat) : State :=
  s.upPkg (fun p => { p with accs := p.accs.filter (fun x => !x.keyIs k va) })

/-- Hardware spills one entry of a slice, which the spec does not choose, if its die's region has room (R245). -/
def State.spillOne (s : State) (slice : Nat) : Option State :=
  let l := s.accsIn slice
  match l[Config.pick s.fresh % l.length]?, s.spillPlace (s.sliceDie slice) with
  | some e, some i => some ({ s with fresh := s.fresh + 1 }.accPut { e with spilled := some i })
  | _, _ => none
/-- Hardware brings back one spilled entry of a slice when the slice has an entry free (R245). -/
def State.unspillOne (s : State) (slice : Nat) : Option State :=
  if 4096 ≤ (s.accsIn slice).length then none
  else (s.pkg.accs.find? (fun e => e.spilled.isSome && s.slotOf e == slice)).map
    (fun e => s.accPut { e with spilled := none })

/-- Make room for a new entry in a slice: ACC_FULL when its 4,096 entries are in use and none can be spilled (R245). -/
def State.accRoom (s : State) (slice : Nat) : Option State :=
  if (s.accsIn slice).length < 4096 then some s else s.spillOne slice

/-- ACC_SPILL (R245): an entry of a slice goes to the spill region, or one comes back; neither has a visible effect but in the
region's own bytes. -/
def execAccSpill (slice : Nat) (back : Bool) (s : State) : Host.Outcome State Fault Refusal :=
  match if back then s.unspillOne slice else s.spillOne slice with
  | some s' => .next s'
  | none => noEvent s

/-- Spilled entries that may be brought back now (R245). -/
def State.accsDue (s : State) : List Instr :=
  ((s.pkg.accs.filter (·.spilled.isSome)).map s.slotOf).eraseDups.map (fun k => .accSpill k true)

end Sys2Proof.Machine
end

