-- ==== Sys2Proof/Machine/SpecialRegs.lean ====
section
/-! DEFINITION. Special registers (R23, R124) and the commands given through them: circular-buffer registers (R153), bank release
(R303), capacity acknowledgement (R406), counter reservations (R126, R127), page invalidation (R259, R260), full-empty runs
(R212), accumulators (R245, R246), regions and windows (R264, R274, R411), the fault ring pointers (R374), tile arrays (R266 to
R268), and RNG and CYC (R125, R128). -/

namespace Sys2Proof.Machine

/-! Reading. -/

/-- The retained bits of a word: bits lo to lo + len − 1, in place. -/
def keep (v : Word) (lo len : Nat) : Word := BitVec.ofNat 64 (field v lo len * 2 ^ lo)

/-- THID (R23). -/
def Thread.thid (t : Thread) (tid : Tid) : Word :=
  BitVec.ofNat 64 (tid.tnum + 8 * cposOf tid.core + 64 * t.bind.sup.toNat + 128 * t.bind.txn.toNat)
/-- DOMM (R164). -/
def Thread.domm (t : Thread) : Word :=
  BitVec.ofNat 64 (t.bind.level + 8 * t.bind.det + 32 * t.bind.paired.toNat + 64 * t.bind.restart.toNat + 2 ^ 32 * t.bind.gsize)

/-- Cores in service in the package (R405). -/
def State.coresInService (s : State) : Nat :=
  256 * s.presentDies.length -
    (s.pkg.unitTab.filter (fun u => u.uid.cls == 0 && u.lease != .inService && s.presentDies.contains u.uid.die)).length

/-- CAPW of a launch (R406). -/
def State.capw (s : State) (l : Launch) : Word :=
  BitVec.ofNat 64 (l.capSeq.toNat + 65536 * l.capAck.toNat + 2 ^ 32 * s.coresInService + 2 ^ 48 * l.capOvf.toNat)

/-- MXBANK (R303). -/
def State.mxbank (s : State) (t : Tid) : Word :=
  let b := s.ownedBanks t
  BitVec.ofNat 64 (bankMap b (fun _ => true) + 256 * bankMap b (·.inuse) + 65536 * bankMap b (·.dirty)
    + 2 ^ 24 * bankMap b (·.poison))

/-- TXSTG as it reads: 0 reads as 1 (R274). -/
def Die.txstgWord (d : Die) : Word := BitVec.ofNat 64 (Nat.max d.txstg.toNat 1)

/-- MXWGT (R307). -/
def Cluster.wgtWord (k : Cluster) : Word :=
  BitVec.ofNat 64 ((List.range 8).foldl (fun n i => n + (k.wgt.toList.getD i 1).toNat * 16 ^ i) 0)

/-- The value of a special register for a thread (R23, R124). -/
def State.srValue (s : State) (tid : Tid) (idx : Nat) : Word :=
  let t := s.thread tid
  let d := s.die tid.die
  let c := s.core tid.coreKey
  let l := (s.launch? t.bind.lid).getD Launch.blank
  if idx = 0x000 then t.thid tid
  else if idx = 0x001 then zext64 t.fpm
  else if idx = 0x002 then zext64 t.fpf
  else if idx = 0x004 then s.pkg.units
  else if idx = 0x008 then BitVec.ofNat 64 t.clvcnt
  else if idx = 0x009 then BitVec.ofNat 64 t.bind.clvmax
  else if idx = 0x00A then zext64 t.bind.asid
  else if idx = 0x00C then t.bind.seed
  else if 0x010 ≤ idx ∧ idx ≤ 0x017 then (t.rc (Fin.ofNat 8 idx)).toBits.extractLsb' 0 60 |> zext64
  else if 0x018 ≤ idx ∧ idx ≤ 0x01F then zext64 (t.rc (Fin.ofNat 8 idx)).fill
  else if idx = 0x020 then t.domm
  else if idx = 0x021 then t.bind.lidReg
  else if idx = 0x022 then t.bind.rsig.extractLsb' 0 64
  else if idx = 0x023 then t.bind.rsig.extractLsb' 64 64
  else if idx = 0x024 then zext64 d.bstep
  else if idx = 0x025 then zext64 c.l1q
  else if idx = 0x028 then s.mxbank tid
  else if idx = 0x02A then t.mxerr
  else if idx = 0x02C then t.rkcfg
  else if idx = 0x02D then t.rkerr
  else if idx = 0x02E then t.bterr
  else if idx = 0x02F then t.colerr
  else if idx = 0x030 then s.capw l
  else if idx = 0x031 then l.capQ.headD 0
  else if idx = 0x411 then BitVec.ofNat 64 s.pkg.rng.length
  else if idx = 0x420 then zext64 s.pkg.ageq
  else if idx = 0x430 then BitVec.ofNat 64 (c.l1q.toNat + 16 * c.l1next.toNat)
  else if idx = 0x432 then d.accspill
  else if idx = 0x434 then s.pkg.astb
  else if idx = 0x436 then d.ffrgn
  else if idx = 0x438 then zext64 t.tarst
  else if idx = 0x439 then d.txstgWord
  else if idx = 0x43A then (s.cluster tid.clusterKey).wgtWord
  else if idx = 0x440 then d.supv
  else if idx = 0x441 then d.fring
  else if idx = 0x442 then d.cons ++ d.prod
  else if idx = 0x443 then s.pkg.ustb
  else if idx = 0x444 then s.pkg.assaycfg
  else if idx = 0x445 then d.patrol
  else if idx = 0x446 then s.pkg.fslog
  else if 0x450 ≤ idx ∧ idx ≤ 0x45F then d.crect[Fin.ofNat 16 idx]
  else if 0x460 ≤ idx ∧ idx ≤ 0x468 then zext64 (d.vclk.toList.getD (idx - 0x460) 0)
  else if idx = 0x470 then s.pkg.podcfg
  else if idx = 0x471 then s.pkg.arotb
  else 0

/-- Privilege of an index: 0x400–0x7FF needs supervisor level (R23). -/
def needIndex (s : State) (idx : Nat) : Except Stop Unit := need (!(decide (0x400 ≤ idx) && !s.me.bind.sup)) .PRIV

/-- SRR of a register: an SRR of FRPTR is also an acquire at die scope (R374). -/
def srRead (s : State) (d : SReg) (idx : Nat) : Except Stop State := do
  needIndex s idx
  let v := s.srValue s.cur idx
  let s := s.upMe (fun t => t.ws d v)
  .ok (if idx = 0x442 then s.acquireNear s.cur.coreKey scopeDie else s)

/-! Purging pages and lines (R209, R259). -/

/-- Lines of a core's L1 that satisfy a test go home and leave the cache. -/
def State.purgeCore (s : State) (c : Nat) (f : L1Line → Bool) : State :=
  let k := s.core c
  let s := (List.range k.l1.length).foldl (fun s i => if f (k.lineAt i) then s.writeBackLine c i else s) s
  s.upCore c (fun k => { k with l1 := k.l1.filter (fun l => !f l) })

/-- Drop the replicas of some lines and the fills on their way, which copied their permission from the home (R210, R259). -/
def State.dropReplicas (s : State) (keyOk : Option (BitVec 16) → Bool) (f : Nat → Bool) : State :=
  s.presentDies.foldl (fun s d => s.upDie d (fun x =>
    { x with replicas := x.replicas.filter (fun r => !(keyOk r.asid && f r.vline))
             fills := x.fills.filter (fun r => !(keyOk r.1.asid && f r.1.vline)) })) s

/-- Purge lines from every L1, instruction cache, L2 record and replica of the package: those of a space key whose line number
satisfies a test. -/
def State.purgeLines (s : State) (keyOk : Option (BitVec 16) → Bool) (f : Nat → Bool) : State :=
  let s := (s.cores.map Prod.fst).foldl (fun s c => (s.purgeCore c (fun l => keyOk l.asid && f l.vline)).upCore c (fun k =>
    { k with icache := k.icache.filter (fun h => !(keyOk h.asid && f (h.va / 256))) })) s
  (s.upPkg (fun p => { p with l2 := p.l2.filter (fun r => !(keyOk r.asid && f r.vline)) })).dropReplicas keyOk f

/-! PGINV (R259, R260). -/

/-- First 64 KiB page and number of pages a PGINV names; none for every page of the space. -/
def pginvPages (v : Word) : Option (Nat × Nat) :=
  if v.getLsbD 17 then none
  else if v.getLsbD 19 then some (field v 33 26 * 8192, 8192)
  else some (field v 20 39, 1)

/-- A 64 KiB page number lies in the pages named. -/
def inPages (r : Option (Nat × Nat)) (p : Nat) : Bool :=
  match r with
  | none => true
  | some (a, n) => decide (a ≤ p) && decide (p < a + n)

/-- The 64 KiB pages, VA[54:16], that an array lies in. -/
def TileArray.pages (a : TileArray) : List Nat :=
  tabulate ((a.base + a.size - 1) / 65536 - a.base / 65536 + 1) (fun i => a.base / 65536 + i)

/-- Some page of a registered array that this package owns lies in the pages named: TA_PINNED (R260, R443). A page of the array's own space
is one whatever its leaf has become; a global one is also one of every other space. -/
def State.pinnedBy (s : State) (glb : Bool) (asid : BitVec 16) (r : Option (Nat × Nat)) : Bool :=
  s.pkg.arrays.any (fun e =>
    let a := e.2
    a.owner == s.pkgId && a.pages.any (fun p => inPages r p &&
      (if glb then a.glob.contains p || (match s.walk a.asid (p * 65536) with | .ok l => l.pte.getLsbD 6 | .error _ => false)
       else a.asid == asid)))

/-- A purge takes the tokens that D2 commit buffers hold on the pages (R206): their bytes take a new grant at the commit. -/
def State.purgeTokens (s : State) (keyOk : BitVec 16 → Bool) (f : Nat → Bool) : State :=
  { s with threads := s.threads.map (fun e => (e.1, { e.2 with d2buf := e.2.d2buf.map (fun g =>
      if keyOk e.2.bind.asid && f (g.gran / 16) then { g with pgran := none } else g) })) }

/-- SRW PGINV (R259): translations and the permissions that L2 lines have recorded go, those of read replicas with the replicas, which
R210 lets a slice drop at any time. -/
def srwPginv (s : State) (v : Word) : Except Stop State := do
  let asid : BitVec 16 := v.extractLsb' 0 16
  let glb := v.getLsbD 16
  let purge := v.getLsbD 18
  let r := pginvPages v
  need (!(purge && s.pinnedBy glb asid r)) .TA_PINNED
  let keyOk := fun (k : Option (BitVec 16)) => match k with | none => glb | some a => !glb && a == asid
  let s := s.upPkg (fun p => { p with
    tlb := p.tlb.filter (fun e => !(keyOk e.asid &&
      (if e.large then (List.range 8192).any (fun i => inPages r (e.vpage * 8192 + i)) else inPages r e.vpage)))
    l2 := p.l2.filter (fun x => !(keyOk x.asid && inPages r (x.vline / 256))) })
  let s := s.dropReplicas keyOk (fun vl => inPages r (vl / 256))
  .ok (if purge then (s.purgeLines keyOk (fun vl => inPages r (vl / 256))).purgeTokens (fun k => glb || k == asid) (fun vl => inPages r (vl / 256))
    else s)

/-! Tile arrays (R266 to R268). -/

/-- The descriptor that 32 bytes give, unless it breaks R266 or R267. -/
def descriptor (bs : List Byte) (owner : Nat) : Option TileArray :=
  let num := fun o n => leNat ((bs.drop o).take n)
  let a : TileArray :=
    { base := num 0 8
      asid := BitVec.ofNat 16 (num 8 2)
      fmt := BitVec.ofNat 5 (num 0xA 1)
      ltr := num 0xB 1 % 16
      ltc := num 0xB 1 / 16
      rows := num 0xC 2
      cols := num 0xE 2
      pod := num 0x10 1 % 2 == 1
      wr := num 0x10 1 / 2 % 2 == 1
      glob := []
      owner := owner }
  let ok := decide (a.base < 2 ^ 55) && decide (num 0xA 1 ≤ 0x0D) && decide (256 ≤ a.tsz) && decide (a.tsz ≤ 65536)
    && decide (1 ≤ a.rows) && decide (1 ≤ a.cols) && a.rows % 2 ^ a.ltr == 0 && a.cols % 2 ^ a.ltc == 0
    && a.base % a.tsz == 0 && decide (num 0x10 1 < 4) && num 0x11 15 == 0
  if ok then some a else none

/-- Two arrays of one address space share a byte. -/
def TileArray.overlaps (a b : TileArray) : Bool :=
  a.asid == b.asid && decide (a.base < b.base + b.size) && decide (b.base < a.base + a.size)

/-- Walk a page of an array for its registration: it must be present, pinned, readable, and writable for an array that transactions
write (R265); no page exists at 2^55 and beyond (R251). The walk sets A (R258); answers whether the page is global. -/
def State.pinPage (s : State) (a : TileArray) (p : Nat) : Option (State × Bool) :=
  if 2 ^ 39 ≤ p then none
  else match s.walk a.asid (p * 65536) with
  | .ok l =>
    if l.pte.getLsbD 9 && l.pte.getLsbD 2 && (!a.wr || l.pte.getLsbD 3) then some ((s.setAD l false).1, l.pte.getLsbD 6) else none
  | .error _ => none

/-- Walk every page of an array: none when R265 fails for one of them, else the array with its global pages. -/
def State.pinAll (s : State) (a : TileArray) : List Nat → Option (State × TileArray)
  | [] => some (s, a)
  | p :: r =>
    match s.pinPage a p with
    | none => none
    | some (s, g) => s.pinAll (if g then { a with glob := a.glob ++ [p] } else a) r

/-- The lowest free registration index, 0–1,022 (R268); for an array of pod scope, the lowest that is free in every package of the
pod (R443; what the other packages hold is a free value, log entry 21), where it has others (R441). -/
def State.freeArray (s : State) (pod : Bool) : Option Nat :=
  (List.range 1023).find? (fun i => (Assoc.find i s.pkg.arrays).isNone && (!(pod && s.inPod) || Config.podIndexFree s.fresh i))

/-- Purge an array's lines from every cache (R209). -/
def State.purgeArray (s : State) (a : TileArray) : State :=
  s.purgeLines (fun k => tagMatches k a.asid) (fun vl => decide (a.base / 256 ≤ vl) && decide (vl < (a.base + a.size) / 256))

/-- Leave a result in TARST: STATUS, and INDEX when one was assigned (R268). -/
def State.tarst (s : State) (status : Nat) (ix : Option Nat) : State :=
  s.upMe (fun t => { t with tarst := BitVec.ofNat 14 (status + 16 * ix.getD (t.tarst.toNat / 16)) })

/-- The descriptor at an address in the thread's space: none for BAD_DESC, which every translation refusal gives (R268). A poisoned
byte of it is consumed (R392). -/
def readDescriptor (s : State) (arg : Nat) : Except Stop (State × Option TileArray) :=
  if arg % 32 ≠ 0 then .ok (s, none)
  else
    match l1Load s arg 32 false with
    | .ok (s', v) => .ok (s', descriptor (leBytes 32 v) s.pkgId)
    | .error (.wait s' w) => .error (.wait s' w)
    | .error _ => .ok (s, none)

/-- TARCMD with OP = 0 (R268): a refused command changes nothing but TARST, not even A of the pages that R265 walked (log entry
57). -/
def tarRegister (s : State) (arg : Nat) : Except Stop State := do
  let (s, d) ← readDescriptor s arg
  match d with
  | none => .ok (s.tarst 1 none)
  | some a =>
    .ok (if a.pod && !s.pkg.units.getLsbD 17 then s.tarst 5 none
    else if s.pkg.arrays.any (fun e => e.2.overlaps a) then s.tarst 4 none
    else
      match s.pinAll a a.pages with
      | none => s.tarst 3 none
      | some (s', a) =>
        match s.freeArray a.pod with
        | none => s.tarst 2 none
        | some ix =>
          let s := s'.purgeArray a
          let s := if a.pod then s.sendPods (.array ix (some a)) else s
          (s.upPkg (fun p => { p with arrays := Assoc.put ix a p.arrays })).tarst 0 (some ix))

/-- A request on a key of an array is queued or held, another package's too, or a launch that names the array is not over (R268). -/
def State.arrayBusy (s : State) (ix : Nat) : Bool :=
  s.pkg.podReqs.any (fun r => r.key.ta == ix) || s.pkg.launches.any (fun e =>
    e.2.txns.any (fun t => t.2.reqs.any (fun q => q.key.ta == ix && !q.released))
      || (!e.2.state.final && e.2.record.txset.any (fun x => x.mode != 0 && field x.ta 0 10 == ix)))

/-- TARCMD with OP = 1 (R268); for an array of pod scope TA_BUSY holds in every package of the pod (R443; log entry 21). -/
def tarDeregister (s : State) (arg : Nat) : State :=
  match if arg < 1024 then Assoc.find arg s.pkg.arrays else none with
  | none => s.tarst 7 none
  | some a =>
    if s.arrayBusy arg || (a.pod && s.inPod && Config.podArrayBusy s.fresh arg) then s.tarst 6 none
    else
      let s := s.purgeArray a
      let s := if a.pod then s.sendPods (.array arg none) else s
      (s.upPkg (fun p => { p with arrays := Assoc.erase arg p.arrays })).tarst 0 none

/-- SRW TARCMD. -/
def srwTarcmd (s : State) (v : Word) : Except Stop State :=
  if v.getLsbD 55 then .ok (tarDeregister s (field v 0 55)) else tarRegister s (field v 0 55)

/-! Other commands. -/

/-- SRW FEOP (R212): granules at or beyond the scratchpad's end are ignored. -/
def srwFeop (s : State) (v : Word) : State :=
  let gs := (tabulate (field v 16 15 + 1) (fun i => field v 0 15 + i)).filter
    (fun g => decide (16 * g < s.myCore.scratchSize))
  let put := fun (c : Core) (g : Nat) => if v.getLsbD 15 then c.setFull g else c.clearFull g
  let s := s.upScratch s.cur (fun at_ c => gs.foldl (fun c g => put c (at_ (16 * g) / 16)) c)
  if v.getLsbD 15 then s.feTold s.cur else s

/-- SRW ACCDROP (R246). -/
def srwAccdrop (s : State) (v : Word) : State :=
  let left := if v.getLsbD 16 then [] else s.pkg.accs.filter (fun e => e.asid != some (v.extractLsb' 0 16))
  s.upPkg (fun p => { p with accs := left })

/-- SRW RNGCLR (R127). -/
def srwRngclr (s : State) (v : Word) : State :=
  let left := if v.getLsbD 16 then [] else s.pkg.rng.filter (fun e => e.asid != v.extractLsb' 0 16)
  s.upPkg (fun p => { p with rng := left })

/-- SRW CAPACK (R406). -/
def srwCapack (s : State) (v : Word) : State :=
  s.upLaunch s.me.bind.lid (fun l =>
    let a : BitVec 16 := v.extractLsb' 0 16
    if (a - l.capAck).toNat ≤ (l.capSeq - l.capAck).toNat then
      { l with
        capAck := a
        capQ := l.capQ.filter (fun r => !decide ((r.extractLsb' 0 16 - l.capAck).toNat ≤ (a - l.capAck).toNat))
        capOvf := l.capOvf && a != l.capSeq }
    else l)

/-- Some transaction launch keeps TXSTG of a die (R274). -/
def State.stagingLive (s : State) (d : Nat) : Bool :=
  s.pkg.launches.any (fun e => e.2.record.isTxn && !e.2.state.final) ||
    (List.range 256).any (fun c => match (s.core (d * 256 + c)).resident with
      | some l => (match s.launch? l with | some l => l.record.isTxn | none => false)
      | none => false)

/-- SRW TXSTG (R274). -/
def srwTxstg (s : State) (v : Word) : Except Stop State := do
  let n := Nat.min (field v 0 7) 64
  let d := s.cur.die
  let same := Nat.max n 1 == Nat.max (s.die d).txstg.toNat 1
  need (same || !s.stagingLive d) .TX_BUSY
  .ok (s.upDie d (fun x => { x with txstg := BitVec.ofNat 7 n }))

/-- Columns and rows of a rectangle (R411). -/
def rectBounds (v : Word) : Nat × Nat × Nat × Nat := (field v 0 2, field v 2 2, field v 4 3, field v 7 3)
/-- Two rectangles share a cluster. -/
def rectsMeet (a b : Word) : Bool :=
  let (ax0, ax1, ay0, ay1) := rectBounds a
  let (bx0, bx1, by0, by1) := rectBounds b
  decide (ax0 ≤ bx1) && decide (bx0 ≤ ax1) && decide (ay0 ≤ by1) && decide (by0 ≤ ay1)
/-- A rectangle without a cluster. -/
def rectEmpty (v : Word) : Bool :=
  let (x0, x1, y0, y1) := rectBounds v
  decide (x1 < x0) || decide (y1 < y0)

/-- SRW CRECTn (R411): stored invalid when empty or when it overlaps another valid rectangle of the die. -/
def srwCrect (s : State) (n : Fin 16) (v : Word) : State :=
  s.upDie s.cur.die (fun d =>
    let r := keep v 0 11
    let clash := (List.range 16).any (fun i => i != n.val &&
      (let o := d.crect.toList.getD i 0; o.getLsbD 10 && rectsMeet o r))
    { d with crect := d.crect.set n (if rectEmpty r || clash then keep r 0 10 else r) })

/-- SRW FRPTR (R374): a CONS beyond PROD is stored as PROD; held packets may then be written. -/
def srwFrptr (s : State) (v : Word) : State :=
  let d := s.cur.die
  let s := s.upDie d (fun x =>
    let c : BitVec 32 := v.extractLsb' 32 32
    { x with cons := if (c - x.cons).toNat ≤ (x.prod - x.cons).toNat then c else x.prod })
  if (s.die d).held.isEmpty then s else s.post [.faultPacketWrite d]

/-- A region register changes only while nothing of it is in use (R245, R264). -/
def regionWord (v : Word) : Word := keep v 0 52

/-- SRW CBn and CBFn (R153). -/
def srwCb (s : State) (fill : Bool) (n : CReg) (v : Word) : Except Stop State :=
  if s.cbFilling s.cur n || s.cbDraining s.cur n then .error (.wait s .cbWrite)
  else
    let c := s.me.rc n
    let c' := if fill then { c with fill := v.extractLsb' 0 8 } else { CbHandle.ofBits (zext64 v |>.setWidth 128) with fill := c.fill }
    .ok (s.upMe (fun t => t.wc n c'))

/-- SRW MXFREE (R303): it waits for the jobs of the banks named, then frees those that are the thread's own. -/
def srwMxfree (s : State) (v : Word) : Except Stop State :=
  let mine := (s.ownedBanks s.cur).filter (fun e => v.getLsbD e.2.1)
  if mine.any (fun e => s.bankBusy s.cur e.1 e.2.1) then .error (.wait s (.mxfree (v.extractLsb' 0 8)))
  else .ok (mine.foldl (fun s e => s.clearBank e.1 e.2.1) s)

/-- What MXWGT stores: a written 0 becomes 1 (R307). -/
def wgtStore (v : Word) : Vector (BitVec 4) 8 :=
  Vector.ofFn (fun i => let w : BitVec 4 := v.extractLsb' (4 * i.val) 4; if w = 0 then 1 else w)

/-- SRW of a register (R124): the faults of the register, then the write. -/
def srWrite (s : State) (idx : Nat) (v : Word) : Except Stop State := do
  needIndex s idx
  let d := s.cur.die
  if idx = 0x001 then .ok (s.upMe (fun t => { t with fpm := v.extractLsb' 0 6 }))
  else if idx = 0x002 then .ok (s.upMe (fun t => { t with fpf := v.extractLsb' 0 5 }))
  else if 0x010 ≤ idx ∧ idx ≤ 0x017 then srwCb s false (Fin.ofNat 8 idx) v
  else if 0x018 ≤ idx ∧ idx ≤ 0x01F then srwCb s true (Fin.ofNat 8 idx) v
  else if idx = 0x029 then srwMxfree s v
  else if idx = 0x02C then .ok (s.upMe (fun t => { t with rkcfg := rkcfgStore v }))
  else if idx = 0x032 then .ok (srwCapack s v)
  else if idx = 0x410 then .ok (srwRngclr s v)
  else if idx = 0x420 then .ok (s.upPkg (fun p => { p with ageq := v.extractLsb' 0 16 }))
  else if idx = 0x430 then
    .ok (s.upMyCore (fun c => { c with l1next := BitVec.ofNat 3 (Nat.min (field v 4 3) 4) }))
  else if idx = 0x431 then .ok (srwFeop s v)
  else if idx = 0x432 then do
    need (regionWord v == (s.die d).accspill || s.spilledOn d == 0) .ACC_BUSY
    .ok (s.upDie d (fun x => { x with accspill := regionWord v }))
  else if idx = 0x433 then .ok (srwAccdrop s v)
  else if idx = 0x434 then
    .ok (s.upPkg (fun p => { p with astb := keep v 16 36 + BitVec.ofNat 64 (Nat.min (field v 0 5) 16) }))
  else if idx = 0x435 then srwPginv s v
  else if idx = 0x436 then do
    need (regionWord v == (s.die d).ffrgn || (s.die d).frames.isEmpty) .FF_BUSY
    .ok (s.upDie d (fun x => { x with ffrgn := regionWord v }))
  else if idx = 0x437 then srwTarcmd s v
  else if idx = 0x439 then srwTxstg s v
  else if idx = 0x43A then .ok (s.upCluster s.cur.clusterKey (fun k => { k with wgt := wgtStore v }))
  else if idx = 0x441 then .ok (s.upDie d (fun x => { x with fring := keep v 0 4 + keep v 12 40 }))
  else if idx = 0x442 then .ok (srwFrptr s v)
  else if idx = 0x444 then .ok (s.upPkg (fun p => { p with assaycfg := keep v 0 21 }))
  else if idx = 0x445 then
    let h := if field v 0 8 = 0 then 1 else field v 0 8
    .ok (s.upDie d (fun x => { x with patrol := BitVec.ofNat 64 h + keep v 8 1 }))
  else if 0x450 ≤ idx ∧ idx ≤ 0x45F then .ok (srwCrect s (Fin.ofNat 16 idx) v)
  else if idx = 0x471 then .ok (s.upPkg (fun p => { p with arotb := keep v 0 13 + keep v 16 36 }))
  else .ok s

/-- SRR (R124). -/
def execSrr (d : SReg) (idx : BitVec 12) (s : State) : Host.Outcome State Fault Refusal := seq32 s (srRead s d idx.toNat)
/-- SRW (R124). -/
def execSrw (idx : BitVec 12) (a : SReg) (s : State) : Host.Outcome State Fault Refusal :=
  seq32 s (srWrite s idx.toNat (s.me.rs a))

/-- MXFREE: SRW 0x029 (R303). -/
def execMxfree (a : SReg) (s : State) : Host.Outcome State Fault Refusal := seq32 s (srWrite s 0x029 (s.me.rs a))
/-- BANK_RELEASE (R303): a bank whose release waited for its owner's jobs becomes free and cleared. -/
def execBankRelease (cl : Nat) (b : Bank) (s : State) : Host.Outcome State Fault Refusal :=
  let k := s.bank cl b.val
  match k.owner with
  | some t => if k.releasing && !s.bankBusy t cl b.val then .next (s.clearBank cl b.val) else noEvent s
  | none => noEvent s
/-- CAPACK: SRW 0x032 (R406). -/
def execCapack (a : SReg) (s : State) : Host.Outcome State Fault Refusal := seq32 s (srWrite s 0x032 (s.me.rs a))
/-- RNGCLR: SRW 0x410 (R127). -/
def execRngclr (a : SReg) (s : State) : Host.Outcome State Fault Refusal := seq32 s (srWrite s 0x410 (s.me.rs a))
/-- PGINV: SRW 0x435 (R259). -/
def execPginv (a : SReg) (s : State) : Host.Outcome State Fault Refusal := seq32 s (srWrite s 0x435 (s.me.rs a))
/-- FEOP: SRW 0x431 (R212). -/
def execFeop (a : SReg) (s : State) : Host.Outcome State Fault Refusal := seq32 s (srWrite s 0x431 (s.me.rs a))
/-- ACCDROP: SRW 0x433 (R246). -/
def execAccdrop (a : SReg) (s : State) : Host.Outcome State Fault Refusal := seq32 s (srWrite s 0x433 (s.me.rs a))
/-- SRW ACCSPILL (R245). -/
def execAccspillWrite (a : SReg) (s : State) : Host.Outcome State Fault Refusal := seq32 s (srWrite s 0x432 (s.me.rs a))
/-- SRW FFRGN (R264). -/
def execFfrgnWrite (a : SReg) (s : State) : Host.Outcome State Fault Refusal := seq32 s (srWrite s 0x436 (s.me.rs a))
/-- SRW TXSTG (R274). -/
def execTxstgWrite (a : SReg) (s : State) : Host.Outcome State Fault Refusal := seq32 s (srWrite s 0x439 (s.me.rs a))
/-- SRW CRECTn (R411). -/
def execCrectWrite (n : Fin 16) (a : SReg) (s : State) : Host.Outcome State Fault Refusal :=
  seq32 s (srWrite s (0x450 + n.val) (s.me.rs a))
/-- SRW FRPTR (R374). -/
def execFrptrWrite (a : SReg) (s : State) : Host.Outcome State Fault Refusal := seq32 s (srWrite s 0x442 (s.me.rs a))
/-- SRR FRPTR (R374). -/
def execFrptrRead (d : SReg) (s : State) : Host.Outcome State Fault Refusal := seq32 s (srRead s d 0x442)
/-- SRW CBn or CBFn (R153). -/
def execCbRegisterWrite (fill : Bool) (n : CReg) (a : SReg) (s : State) : Host.Outcome State Fault Refusal :=
  seq32 s (srWrite s (if fill then 0x018 + n.val else 0x010 + n.val) (s.me.rs a))
/-- TARCMD with OP = 0 (R268). -/
def execTarcmdRegister (a : SReg) (s : State) : Host.Outcome State Fault Refusal :=
  seq32 s (srWrite s 0x437 (keep (s.me.rs a) 0 55))
/-- TARCMD with OP = 1 (R268). -/
def execTarcmdDeregister (a : SReg) (s : State) : Host.Outcome State Fault Refusal :=
  seq32 s (srWrite s 0x437 (keep (s.me.rs a) 0 55 + BitVec.ofNat 64 (2 ^ 55)))

/-! Random numbers and the cycle counter. -/

/-- One round of the function of R125. -/
def rngRound (x : Word) (i : Nat) : Word :=
  let x := x + BitVec.ofNat 64 (i + 1) * 0x9D2C56811F3B4A67#64
  let x := x ^^^ (x >>> 32)
  let x := x * 0x8F1CD27A3B956E43#64
  let x := x ^^^ (x >>> 29)
  let x := x * 0xB3E50A8D71C429F7#64
  x ^^^ (x >>> 32)

/-- The random word of a seed and a counter (R125). -/
def rngWord (seed ctr : Word) : Word :=
  [0, 1, 2, 3].foldl rngRound ((ctr * 0xE7A35C19B46D2F0B#64) ^^^ seed)

/-- RNG (R125). -/
def execRng (d : SReg) (s : State) : Host.Outcome State Fault Refusal :=
  seq32 s (.ok (s.upMe (fun t => t.ws d (rngWord t.bind.seed (t.rs d)))))

/-- RNGRES (R126): precise faults leave the table unchanged; an overlap also ends the launch. -/
def execRngres (d a : SReg) (s : State) : Host.Outcome State Fault Refusal :=
  let t := s.me
  let base := (t.rs d).toNat
  let cnt := (t.rs a).toNat
  if cnt = 0 then seq32 s (.ok s)
  else if 2 ^ 64 < base + cnt then seq32 s (trap .RNG_RANGE)
  else if s.pkg.rng.any (fun e => e.asid == t.bind.asid && e.seed == t.bind.seed &&
      decide (base < e.base + e.count) && decide (e.base < base + cnt)) then
    .next ((s.freeze s.cur (Freeze.of .RNG_OVERLAP)).killLaunch t.bind.lid 8 (some s.cur))
  else if 1024 ≤ s.pkg.rng.length then seq32 s (trap .RNG_FULL)
  else seq32 s (.ok (s.upPkg (fun p => { p with rng := p.rng ++ [⟨t.bind.asid, t.bind.seed, base, cnt⟩] })))

/-- CYC (R128): cycles have passed since the count was last read, as many as the free value says (log entry 7). -/
def execCyc (d : SReg) (s : State) : Host.Outcome State Fault Refusal :=
  let now := s.myCore.cyc + BitVec.ofNat 64 (Config.cycles s.fresh)
  seq32 s (.ok ((s.upMyCore (fun c => { c with cyc := now })).upMe (fun t => t.ws d now)))

end Sys2Proof.Machine
end

