-- ==== Sys2Proof/Machine/Pod.lean ====
section
/-! DEFINITION. What the messages of a pod's other packages do here (R443, R444, R446, R447, R449, R452). -/

namespace Sys2Proof.Machine

/-- The place of a request that a transaction of pod scope has on a key: launch, transaction, request. -/
def State.podAsker (s : State) (rn : Nat) (k : TileKey) : Option (Nat × Nat × Nat) :=
  s.pkg.launches.findSome? (fun e => if !s.launchPod e.2 then none else e.2.txns.findSome? (fun t =>
    if t.2.rn ≠ rn then none
    else (t.2.reqs.findIdx? (fun q => q.key == k && !q.granted && !q.released)).map (fun i => (e.1, t.1, i))))

/-- An array's entry is made under an index that is free here, or taken out of the table unless something here is busy with it, when its
lines leave the caches of the package that owns it (R443). -/
def State.takeArray (s : State) (ix : Nat) (a : Option TileArray) : State :=
  match a, Assoc.find ix s.pkg.arrays with
  | some a, none => s.upPkg (fun p => { p with arrays := Assoc.put ix a p.arrays })
  | none, some b =>
    if !b.pod || s.arrayBusy ix then s
    else (if b.owner = s.pkgId then s.purgeArray b else s).upPkg (fun p => { p with arrays := Assoc.erase ix p.arrays })
  | _, _ => s

/-- The member of a gang here that has not passed START (R449). -/
def State.memberOf (s : State) (gid : Nat) : Option Nat :=
  (s.pkg.launches.find? (fun e => e.2.record.gangBit && e.2.record.gid == gid && !e.2.state.final && e.2.beforeStart)).map Prod.fst

/-- What a message does. A commit's tile is written by the lock manager of its key (R287); the requests that a message lets be granted are
granted (R279). -/
def State.takeMsg (s : State) (m : PodMsg) : State :=
  match m with
  | .array ix a => s.takeArray ix a
  | .request pkg rn key write => (s.upPkg (fun p => { p with podReqs := p.podReqs ++ [⟨pkg, rn, key, write, false⟩] })).grantScan none
  | .grant rn key push forwarded =>
    (match if s.ownsKey key then none else s.podAsker rn key with
      | some (lid, idx, i) => s.takeGrant lid idx i push forwarded
      | none => s)
  | .commit pkg rn key copy =>
    if s.pkg.podReqs.any (fun r => r.pkg == pkg && r.rn == rn && r.key == key && r.write && r.granted) then
      s.writeTile (Vector.replicate 9 0) (s.sliceDie (s.keySlice key)) key copy
    else s
  | .release pkg rn key copy =>
    (s.upPkg (fun p => { p with podReqs := p.podReqs.filter (fun r => !(r.pkg == pkg && r.rn == rn && r.key == key)) })).grantScan
      (copy.map (key, ·))
  | .assign rn =>
    (s.upPkg (fun p => { p with assigns := p.assigns ++ s.presentDies.map (fun d => (d, true, rn)) })).post
      (s.presentDies.map (fun d => .assignReceive d true rn))
  | .horizon slice pkg rank h =>
    let key := (hzSlice slice true, farSeq pkg rank)
    let v := Nat.max (s.hzFar slice pkg rank) h
    (s.upPkg (fun p => { p with hzSeen := (key, v) :: p.hzSeen.filter (fun e => e.1 != key) })).grantScan none
  | .ack gid a => s.takeAck gid a
  | .start gid acks =>
    (match s.memberOf gid with
      | some lid => (s.upLaunch lid (fun l => { l with started := acks })).post [.gangStart lid]
      | none => s)
  | .abort gid reason =>
    (match s.memberOf gid with
      | some lid => (s.upLaunch lid (fun l => { l with reason := reason })).post [.gangAbort lid]
      | none => s)
  | .page asid vpage answer =>
    let put := fun (r : PageFault) =>
      if r.asid = asid ∧ r.vpage = vpage ∧ r.owner ≠ s.pkgId ∧ r.answer = none then { r with answer := some answer } else r
    (s.upPkg (fun p => { p with pageFaults := p.pageFaults.map put })).post
      [if answer.isSome then .pageFaultResolved asid vpage else .pageFaultKill asid vpage]

/-- The oldest message of another package is taken. -/
def State.takePodMsg (s : State) : State :=
  match s.pkg.podIn with
  | [] => s
  | m :: r => (s.upPkg (fun p => { p with podIn := r })).takeMsg m

end Sys2Proof.Machine
end

