-- ==== Sys2Proof/Machine/Agents.lean ====
section
/-! DEFINITION. What may happen of itself when nothing is due on the agenda, and what a step does after its instruction or
event (log entries 5 and 6). -/

namespace Sys2Proof.Machine

/-- The timeouts and expiries that a thread slot allows (R122, R191, R193). -/
def Thread.timeouts (t : Thread) (tid : Tid) : List Instr :=
  (if t.held then [.yieldHoldExpiry tid] else []) ++
  match t.status with
  | .waiting .sleep => [.sleepTimeout tid]
  | .waiting (.vrtaket ..) => [.vrtaketTimeout tid]
  | _ => []

/-- Write-backs of dirty lines, updates to apply, and replica fills, that may happen now (R203, R210, R429, R430). -/
def State.cachesDue (s : State) : List Instr :=
  s.cores.flatMap (fun e => (e.2.l1.filter (fun l => l.dirty != 0)).map (fun l =>
    .writeBack e.1 (l.asid.getD 0) (BitVec.ofNat 64 (l.vline * 256))))
  ++ s.dies.flatMap (fun e => (e.2.updates.map (fun u => .updateApply e.1 u.src))
    ++ e.2.fills.map (fun f => .replicaFillInstall e.1 (f.1.asid.getD 0) (BitVec.ofNat 64 (f.1.vline * 256)))
    ++ e.2.replicas.map (fun f => .replicaDrop e.1 (f.asid.getD 0) (BitVec.ofNat 64 (f.vline * 256))))

/-- Reports being signed (R457) and the decay of scores (R395). -/
def State.firmwareDue (s : State) : List Instr :=
  (if s.pkg.portA.busy then [.attestationReportDone false] else []) ++ (if s.pkg.portB.busy then [.attestationReportDone true] else [])
    ++ (if s.pkg.unitTab.any (fun x => x.score != 0) then [.scoreDecay] else [])

/-- Events of the package's own agents that may happen now. Errors of storage and links, messages of other packages, and what hosts
and firmware do come only by the agenda (log entry 6). -/
def State.due (s : State) : List Instr :=
  s.threads.flatMap (fun e => e.2.timeouts (Tid.ofKey e.1)) ++ s.cachesDue ++ s.btuDue ++ s.accsDue ++ s.schedDue ++ s.framesDue ++ s.txnsDue
    ++ s.leasesDue    ++ s.feDue ++ s.firmwareDue

/-- Take one event, which the spec does not choose, among those that may happen now. -/
def State.dueOne (s : State) : List Instr := (pickFrom (s.fresh + 1) s.due).toList

/-- The current thread can issue. -/
def State.canIssue (s : State) : Bool := s.me.status == .ready

/-- An event comes before the next instruction: always one that follows at once, or when the current thread cannot issue. -/
def State.agentTurn (s : State) : Bool :=
  !s.urgent.isEmpty || !s.canIssue || (!s.agenda.isEmpty && Config.agentFirst s.fresh)

/-- The event of an agent's turn and the state in which it happens: one that follows at once, the head of the agenda, or one of the
events that may happen of themselves, or none. -/
def State.takeEvent (s : State) : Option Instr × State :=
  match s.urgent, s.agenda with
  | e :: r, _ => (some e, { s with urgent := r })
  | [], e :: r => (some e, { s with agenda := r })
  | [], [] => (s.dueOne.head?, s)

/-- The boot has failed, and the package stays in the ROM or untrained (R455, R461). -/
def State.bootFailed (s : State) : Bool := field s.pkg.bootst 0 4 == 15
/-- The package is not ready (R461): still to boot, or with a failed boot. -/
def State.notReady (s : State) : Bool := field s.pkg.bootst 0 4 != 5

/-- Nothing runs: a fatal error has stopped the package (R389), its power is removed (R460), or it is not ready (R461). -/
def State.halted (s : State) : Bool := s.pkg.stopped || s.pkg.tripped || s.notReady

/-- What follows a step of a package that runs: what other packages and firmware have asked for is done, and divisions and numberings
that waited for a cluster are made (R172, R275). -/
def State.housekeeping (s : State) : State :=
  if s.halted then s else s.takePodMsg.firmwareArms.lateDivisions.lateNumbering

/-- After a step: an event may become due of itself, the next thread is chosen, and the counter of the free values moves on. -/
def State.advance (s : State) : State :=
  let s := s.housekeeping
  { s.chooseNext with
    agenda := if s.agenda.isEmpty && Config.agentFirst (s.fresh + 1) then s.dueOne else s.agenda
    fresh := s.fresh + 1 }

/-- What a step does with the outcome of an instruction or event. -/
def finish (r : Host.Outcome State Fault Refusal) : Host.Outcome State Fault Refusal :=
  match r with
  | .next s => .next s.advance
  | .fault f => .fault f
  | .refused f => .refused f

/-- A doorbell, which a package that is not ready drops and counts (R461). -/
def isDoorbell : Instr → Bool
  | .doorbellRing .. | .doorbellReset .. | .doorbellDisable .. => true
  | _ => false

/-- An event that still happens in a package that is stopped, without power, or not ready. -/
def State.stillHappens (s : State) (e : Instr) : Bool :=
  if s.pkg.tripped then e == .packageReset else whileStopped e || (s.notReady && isDoorbell e)

end Sys2Proof.Machine
end

