-- ==== Sys2Proof/Machine/Atomic.lean ====
section
/-! DEFINITION. Atomics (R224, R236 to R239) and the operations on wide accumulators (R240 to R243). -/

namespace Sys2Proof.Machine

/-- The function of R237 on w-bit numbers. -/
def atomNew (f : AtomFn) (w old op : Nat) : Nat :=
  match f with
  | .add => (old + op) % 2 ^ w
  | .and => old &&& op
  | .or => old ||| op
  | .xor => old ^^^ op
  | .min => if toSigned w op < toSigned w old then op else old
  | .max => if toSigned w old < toSigned w op then op else old
  | .minu => Nat.min old op
  | .maxu => Nat.max old op
  | .swap => op
  | .cas => op

/-- An atomic writes, unless it is an ACAS that finds another value (R237). -/
def atomWrites (f : AtomFn) (old cmp : Nat) : Bool :=
  match f with
  | .cas => old == cmp
  | _ => true

/-- Before an atomic the issuing core writes back its dirty bytes of the line and invalidates it (R224). -/
def State.dropLine (s : State) (c : Nat) (asid : BitVec 16) (va : Nat) : State :=
  match (s.core c).lineIx asid va with
  | some i => s.evictLine c i
  | none => s

/-- A release precedes an atomic with ord 2 or 3 (R238). -/
def ordRelease (ord : BitVec 2) (s : State) : State := if ord.getLsbD 1 then s.release s.cur.coreKey scopeDie else s
/-- An acquire follows an atomic with ord 1 or 3 (R238). -/
def ordAcquire (ord : BitVec 2) (s : State) : Except Stop State := if ord.getLsbD 0 then acquireLast s scopeDie else .ok s

/-- What comes before an atomic is performed: alignment, the end of the D2 quantum, the release, the core's own copy of the line,
and the grant, which no replica gives (R210, R224, R229, R238). Answers the grant. -/
def atomStart (s : State) (a : Word) (n : Nat) (kind : AccessKind) (ord : BitVec 2) : Except Stop (State × Grant) := do
  needAligned a n (kindCode kind)
  let s ← quantumFirst s
  let s := (ordRelease ord s).dropLine s.cur.coreKey s.me.bind.asid a.toNat
  let (s, g) ← grantHome s a.toNat kind
  if paDevice (g.pline * 256) then do
    let _ ← deviceWindow s a.toNat (g.pline * 256 + a.toNat % 256) n kind false
    .ok (s, g)
  else .ok (s, g)

/-- Perform an atomic read-modify-write at the home slice of its line (R224, R237): the old value, and the write when there is one.
The issuing die keeps no replica of the line, so that a later load sees what the atomic saw or a later write. A device register that
the spec does not name gives any value and takes none (log entry 29). -/
def State.atomAt (s : State) (req home pa n : Nat) (f : Nat → Option Nat) : State × Nat :=
  if paDevice pa then (s, s.deviceLoad none n)
  else
    let old := s.mem.num pa n
    let s := s.upDie req (fun d => d.dropCopies (fun r => r.pline == pa / 256))
    match f old with
    | some v => (s.homeWrite req home (cellsAt pa (leBytes n v)), old)
    | none => (s, old)

/-- An atomic of memory: in a reconnaissance pass it reads as a load and writes nothing (R289), with its order as ever (R238); else it
is performed at the home (R224). `f` gives the value written, if any, and the flags. -/
def atomBody (s : State) (data base : SReg) (n : Nat) (ord : BitVec 2) (f : Nat → Option Nat × BitVec 5) : Except Stop State :=
  let a := s.me.rs base
  if s.me.inPass then do
    needAligned a n 1
    let (s, v) ← globalLoad (ordRelease ord s) a n false
    ordAcquire ord (s.upMe (fun t => t.ws data (BitVec.ofNat 64 v)))
  else do
    let (s, g) ← atomStart s a n .write ord
    unpoisoned s (s.poisonedAt (g.pline * 256 + a.toNat % 256) n)
    let home := s.sliceDie (s.home (some s.me.bind.asid) a.toNat g.tbl g.pline)
    let r := s.atomAt s.cur.die home (g.pline * 256 + a.toNat % 256) n (fun old => (f old).1)
    ordAcquire ord (r.1.upMe (fun t => (t.ws data (BitVec.ofNat 64 r.2)).orFlags (f r.2).2))

/-- Bytes of an atomic (R236). -/
def atomBytes (dw : Bool) : Nat := if dw then 8 else 4

/-- An integer atomic (R237). -/
def atomInt (fn : AtomFn) (data base b : SReg) (dw : Bool) (ord : BitVec 2) (s : State) : Host.Outcome State Fault Refusal :=
  let n := atomBytes dw
  let op := (s.me.rs b).toNat % 2 ^ (8 * n)
  let cmp := (s.me.rs data).toNat % 2 ^ (8 * n)
  seq32 s (atomBody s data base n ord
    (fun old => (if atomWrites fn old cmp then some (atomNew fn (8 * n) old op) else none, 0)))

/-- AADD (R237). -/
def execAadd (data base b : SReg) (dw : Bool) (ord : BitVec 2) (s : State) : Host.Outcome State Fault Refusal :=
  atomInt .add data base b dw ord s
/-- AAND (R237). -/
def execAand (data base b : SReg) (dw : Bool) (ord : BitVec 2) (s : State) : Host.Outcome State Fault Refusal :=
  atomInt .and data base b dw ord s
/-- AOR (R237). -/
def execAor (data base b : SReg) (dw : Bool) (ord : BitVec 2) (s : State) : Host.Outcome State Fault Refusal :=
  atomInt .or data base b dw ord s
/-- AXOR (R237). -/
def execAxor (data base b : SReg) (dw : Bool) (ord : BitVec 2) (s : State) : Host.Outcome State Fault Refusal :=
  atomInt .xor data base b dw ord s
/-- AMIN (R237). -/
def execAmin (data base b : SReg) (dw : Bool) (ord : BitVec 2) (s : State) : Host.Outcome State Fault Refusal :=
  atomInt .min data base b dw ord s
/-- AMAX (R237). -/
def execAmax (data base b : SReg) (dw : Bool) (ord : BitVec 2) (s : State) : Host.Outcome State Fault Refusal :=
  atomInt .max data base b dw ord s
/-- AMINU (R237). -/
def execAminu (data base b : SReg) (dw : Bool) (ord : BitVec 2) (s : State) : Host.Outcome State Fault Refusal :=
  atomInt .minu data base b dw ord s
/-- AMAXU (R237). -/
def execAmaxu (data base b : SReg) (dw : Bool) (ord : BitVec 2) (s : State) : Host.Outcome State Fault Refusal :=
  atomInt .maxu data base b dw ord s
/-- ASWAP (R237). -/
def execAswap (data base b : SReg) (dw : Bool) (ord : BitVec 2) (s : State) : Host.Outcome State Fault Refusal :=
  atomInt .swap data base b dw ord s
/-- ACAS (R237). -/
def execAcas (data base b : SReg) (dw : Bool) (ord : BitVec 2) (s : State) : Host.Outcome State Fault Refusal :=
  atomInt .cas data base b dw ord s

/-- AFADD (R239). -/
def execAfadd (data base b : SReg) (ord : BitVec 2) (s : State) : Host.Outcome State Fault Refusal :=
  let fpm := s.me.fpm
  let x := binary32.operand fpm ((s.me.rs b).toNat % 2 ^ 32)
  seq32 s (atomBody s data base 4 ord (fun old =>
    let r := binary32.finish fpm ((binary32.operand fpm old).add fpm x)
    (some r.1, r.2)))

/-- The word whose accumulator an operation names: its key, its address, and the physical line of a TBL page (R240, R255). -/
structure AccWord where
  key : Option (BitVec 16)
  va : Nat
  tbl : Option Nat

/-- Start an operation on a word's accumulator (R240). The word's address is a multiple of 4 for every function (R238, R243). -/
def accStart (s : State) (base : SReg) (kind : AccessKind) (ord : BitVec 2) : Except Stop (State × AccWord) := do
  let a := s.me.rs base
  let (s, g) ← atomStart s a 4 kind ord
  .ok (s, ⟨spaceKey s.me.bind.asid g.global, a.toNat, if g.tbl then some g.pline else none⟩)

/-- AFADD.D or ACCINIT in a reconnaissance pass is discarded (R289): it writes no accumulator, no register and no flag, and asks for no
translation; its address is still checked and it still orders as its ord says (R238; log entry 39). -/
def accDiscard (s : State) (base : SReg) (ord : BitVec 2) : Except Stop State := do
  needAligned (s.me.rs base) 4 1
  ordAcquire ord (ordRelease ord s)

/-- AFADD.D (R241): R52 at the word's accumulator, with a new entry when it has none; ACC_FULL without effect. -/
def execAfaddD (base b : SReg) (ord : BitVec 2) (s : State) : Host.Outcome State Fault Refusal :=
  seq32 s
    (if s.me.inPass then accDiscard s base ord
     else do
      let (s, w) ← accStart s base .write ord
      let s ← match s.accFind w.key w.va with
        | some _ => .ok s
        | none => (match s.accRoom (s.accSlice w.key w.va w.tbl) with | some s => .ok s | none => trapAt .ACC_FULL (s.me.rs base) 1)
      let r := (s.accRead w.key w.va).add s.me.fpm ((s.me.rs b).toNat % 2 ^ 32)
      let s := s.accPut ⟨w.key, w.va, w.tbl, r.1, (s.accFind w.key w.va).bind (·.spilled)⟩
      ordAcquire ord (s.upMe (fun t => t.orFlags r.2)))

/-- ACCINIT (R242): the read-out as binary32, then the zero state. DESIGN CHOICE (log 39): in a reconnaissance pass,
    where R289 discards ACCINIT and also gives an atomic a load's value, s[data] keeps its value; alignment and order stay. -/
def execAccinit (data base : SReg) (ord : BitVec 2) (s : State) : Host.Outcome State Fault Refusal :=
  seq32 s
    (if s.me.inPass then accDiscard s base ord
     else do
      let (s, w) ← accStart s base .write ord
      let r := (s.accRead w.key w.va).readOut binary32 s.me.fpm
      ordAcquire ord ((s.accFree w.key w.va).upMe (fun t => (t.ws data (BitVec.ofNat 64 r.1)).orFlags r.2)))

/-- ACCRD (R243): the read-out as binary32 or binary64, without change. -/
def execAccrd (data base : SReg) (dw : Bool) (ord : BitVec 2) (s : State) : Host.Outcome State Fault Refusal :=
  seq32 s (do
    let (s, w) ← accStart s base .read ord
    let r := (s.accRead w.key w.va).readOut (if dw then binary64 else binary32) s.me.fpm
    ordAcquire ord (s.upMe (fun t => (t.ws data (BitVec.ofNat 64 r.1)).orFlags r.2)))

/-- HOME_ATOMIC (R224, R237): an integer atomic of another agent is performed indivisibly at the home slice of its line, under a write
grant (R205). -/
def execHomeAtomic (asid : BitVec 16) (va : BitVec 64) (fn : AtomFn) (dw : Bool) (op cmp : BitVec 64) (s : State) :
    Host.Outcome State Fault Refusal :=
  let n := atomBytes dw
  let w := 8 * n
  match s.engineGrant asid true va.toNat .write with
  | .error _ => noEvent s
  | .ok (s', g) =>
    let pa := g.pline * 256 + va.toNat % 256
    if va.toNat % n ≠ 0 || paDevice pa then noEvent s
    else
      let s := s'
      let h := s.sliceDie (s.home (some asid) va.toNat g.tbl g.pline)
      .next (s.atomAt h h pa n (fun old =>
        if atomWrites fn old (cmp.toNat % 2 ^ w) then some (atomNew fn w old (op.toNat % 2 ^ w)) else none)).1

end Sys2Proof.Machine
end

