-- ==== Sys2Proof/Machine/Control.lean ====
section
/-! DEFINITION. Control transfers (R117 to R121), HALT, YIELD, NOP and CLEAVE (R122, R123, R381, R388, R407), the completion of
a halted slice (R30, R31), the end of a YIELD hold, and the service call and breakpoint (R129, R130). -/

namespace Sys2Proof.Machine

/-- The target of a B-format instruction (R69). -/
def bTarget (pc : Word) (off : BitVec 21) : Word := pc + (sext64 off <<< 1)
/-- The condition of a B-format instruction (R69). -/
def Thread.taken (t : Thread) (neg : Bool) (pred : PReg) : Bool := t.rp pred ^^ neg

/-- BR (R117). -/
def execBr (neg : Bool) (pred : PReg) (off : BitVec 21) (s : State) : Host.Outcome State Fault Refusal :=
  settle false s (if s.me.taken neg pred then transfer s (bTarget s.me.pc off) else .ok (s, s.me.pc + 4))

/-- CALL (R118): lr is s30. -/
def execCall (neg : Bool) (pred : PReg) (off : BitVec 21) (s : State) : Host.Outcome State Fault Refusal :=
  settle false s
    (if s.me.taken neg pred then transfer (s.upMe (fun t => t.ws 30 (t.pc + 4))) (bTarget s.me.pc off)
     else .ok (s, s.me.pc + 4))

/-- JR (R119). -/
def execJr (g : Guard) (a : SReg) (s : State) : Host.Outcome State Fault Refusal :=
  settle false s (if s.me.guard g then transfer s (s.me.rs a) else .ok (s, s.me.pc + 4))

/-- RET (R119): PC := lr. -/
def execRet (g : Guard) (s : State) : Host.Outcome State Fault Refusal :=
  settle false s (if s.me.guard g then transfer s (s.me.rs 30) else .ok (s, s.me.pc + 4))

/-- LOOP (R121): the body is the imm15 halfwords that end at the LOOP; LOOP with a = 0 never transfers. -/
def execLoop (a : SReg) (len : BitVec 15) (s : State) : Host.Outcome State Fault Refusal :=
  let n := s.me.rs a
  settle false s
    (if n = 0 then .ok (s, s.me.pc + 4)
     else
      let s' := s.upMe (fun t => t.ws a (n - 1))
      if n - 1 = 0 then .ok (s', s.me.pc + 4) else transfer s' (s.me.pc - (zext64 len <<< 1)))

/-- HALT (R122, R30, R286): the thread stops issuing; the slice or transaction ends once SLICE_COMPLETE finds its jobs done. At
D2 the last buffered stores commit in their round (R230; log entry 15). -/
def execHalt (s : State) : Host.Outcome State Fault Refusal :=
  let s' := if s.me.d2 && !s.me.qended then s.endQuantum s.cur else s
  settle false s (.error (.wait (s'.post [.sliceComplete s.cur]) .halt))

/-- YIELD (R122): the thread is held for 32 cycles. -/
def execYield (g : Guard) (s : State) : Host.Outcome State Fault Refusal :=
  guarded g s (.ok (s.upMe (fun t => { t with held := true })))

/-- NOP (R122). -/
def execNop (g : Guard) (s : State) : Host.Outcome State Fault Refusal := guarded g s (.ok s)

/-- YIELD_HOLD_EXPIRY (R122): the 32 cycles have passed. -/
def execYieldHoldExpiry (t : Tid) (s : State) : Host.Outcome State Fault Refusal :=
  match (s.thread t).status with
  | .free => noEvent s
  | _ => .next (s.upThread t (fun x => { x with held := false }))

/-- A capacity event is pending: CAPW.SEQ differs from the thread's mark, in a kernel launch with CAPEV = 1 (R407). -/
def State.capPending (s : State) (t : Thread) : Bool :=
  t.bind.capev && !t.bind.txn && (match s.launch? t.bind.lid with | some l => l.capSeq != t.evm | none => false)

/-- Take a capacity event at a CLEAVE: EVM := CAPW.SEQ, lr := the continuation, PC := CAPTGT (R407). -/
def State.takeCapEvent (s : State) (tid : Tid) (cont : Word) : State :=
  let seq := match s.launch? (s.thread tid).bind.lid with | some l => l.capSeq | none => 0
  s.upThread tid (fun t => { t.ws 30 cont with evm := seq, pc := t.bind.captgt })

/-- A CLEAVE retires: CLVCNT := 0, the thread is ready at `pc`. -/
def State.retireCleave (s : State) (tid : Tid) (pc : Word) : State :=
  (s.retire tid pc).upThread tid (fun t => { t with clvcnt := 0 })

/-- The closing CLEAVE of a rebuild stub (R388, R385): PC := CONT; a pending JOBERR is raised there and the event stays pending,
else a pending capacity event is taken with lr := CONT. -/
def closeStub (s : State) (cont : Word) : State :=
  let s := (s.retireCleave s.cur cont).upMe (fun t => { t with rebuild := none })
  if s.me.joberr != 0 then
    let f : Freeze := ⟨s.me.jobCause, 0, zext64 (s.me.joberr.extractLsb' 8 16), 0⟩
    (s.upMe (fun t => { t with joberr := 0 })).freeze s.cur f
  else if s.capPending s.me then s.takeCapEvent s.cur cont
  else s
/-- A CLEAVE outside a stub retires in a kernel thread (R123): the D2 quantum ends; a pending pre-emption takes effect, unless
deferred; else a pending capacity event is taken. -/
def passCleave (s : State) (idx : Nat) (live : Word) : State :=
  let cont := s.me.pc + 4
  let s := s.retireCleave s.cur cont
  let s := if s.me.d2 then (s.endQuantum s.cur).waitOn s.cur .round |>.upMe (fun t => { t with qended := false }) else s
  if s.canPreempt s.cur live then s.startDrain s.cur 1 idx live
  else if s.capPending s.me then s.takeCapEvent s.cur cont
  else s

/-- CLEAVE #n (R123, R381, R388): CLEAVE_INDEX without an entry, in every thread; CLEAVE_STUB inside a stub for any other index;
in a transaction thread only CLVCNT := 0. -/
def execCleave (idx : BitVec 12) (s : State) : Host.Outcome State Fault Refusal :=
  match s.cleaveEntry s.me idx.toNat with
  | none => .next (s.freeze s.cur (Freeze.of .CLEAVE_INDEX))
  | some e =>
    if s.me.bind.txn then
      match s.me.retireFault true with
      | some c => .next (s.freeze s.cur (Freeze.of c))
      | none => .next (s.retireCleave s.cur (s.me.pc + 4))
    else
      match s.me.rebuild with
      | some r =>
        if r.cidx ≠ idx.toNat then .next (s.freeze s.cur (Freeze.of .CLEAVE_STUB)) else .next (closeStub s r.cont)
      | none => .next (passCleave s idx.toNat e.1)

/-- SLICE_COMPLETE (R30, R31, R286, R462): a halted thread whose jobs have completed and, at D2, whose last round has committed
observes its jobs; a failure is raised at the HALT; otherwise its stores are performed at die scope, its banks, blocks, slot
and stack region are freed, and its slice, or its transaction without commit, is over. -/
def execSliceComplete (t : Tid) (s : State) : Host.Outcome State Fault Refusal :=
  let th := s.thread t
  match th.status with
  | .waiting .halt =>
    if s.hasJobs t || !s.roundDone th then noEvent s
    else
      let js := (s.core t.coreKey).doneOf t
      match failureOf js, th.retireFault false with
      | some _, _ => let (s, f) := s.observeOr t js
                     .next (match f with | some f => s.freeze t f | none => s)
      | none, some c => .next (s.freeze t (Freeze.of c))
      | none, none =>
        let s := (s.observe t js).release t.coreKey scopeDie
        match th.txn with
        | some b => .next (s.endTxn th.bind.lid b.idx false)
        | none => .next ((s.freeSlot t).endSlice th.bind.lid th.bind.unit th.region none)
  | _ => noEvent s

/-- ECALL (R129): it retires, PC moves past it, and the thread stops with SERVICE and the service number. -/
def execEcall (svc : BitVec 12) (s : State) : Host.Outcome State Fault Refusal :=
  match s.me.retireFault false with
  | some c => .next (s.freeze s.cur (Freeze.of c))
  | none =>
    let s := s.retire s.cur (s.me.pc + 4)
    .next (s.freeze s.cur ⟨.SERVICE, 0, svc.setWidth 64, 0⟩)

/-- BKPT (R130): BREAK with the tag, precisely, without retiring. -/
def execBkpt (tag : BitVec 12) (s : State) : Host.Outcome State Fault Refusal :=
  .next (s.freeze s.cur ⟨.BREAK, 0, tag.setWidth 64, 0⟩)

end Sys2Proof.Machine
end

