-- ==== Sys2Proof/Machine/LoadStore.lean ====
section
/-! DEFINITION. Scalar loads and stores (R114 to R116, R232) and the full-empty accesses (R233 to R235). -/

namespace Sys2Proof.Machine

/-- LD from scratch (R114, R116): MISALIGNED_DATA, then the scratch checks. -/
def ldScratch (s : State) (d : SReg) (a : Word) (n : Nat) : Except Stop State := do
  needAligned a n 0
  let v ← scratchLoad s a.toNat n
  .ok (s.upMe (fun t => t.ws d (BitVec.ofNat 64 v)))

/-- LD from global memory (R114, R116). -/
def ldGlobal (s : State) (d : SReg) (a : Word) (n : Nat) : Except Stop State := do
  needAligned a n 0
  let (s, v) ← globalLoad s a n true
  .ok (s.upMe (fun t => t.ws d (BitVec.ofNat 64 v)))

/-- LD, with the die-scope acquire of ord 1: the load is performed, then the clean bytes of the L1 are invalidated (R114, R232). -/
def execLd (data base : SReg) (sp : Bool) (size : BitVec 2) (acq : Bool) (off : BitVec 10) (s : State) :
    Host.Outcome State Fault Refusal :=
  let a := mAddr s.me base size off
  let n := 2 ^ size.toNat
  seq32 s (do
    let s ← if sp then ldScratch s data a n else ldGlobal s data a n
    if acq then acquireLast s scopeDie else .ok s)

/-- ST to scratch (R114, R116). -/
def stScratch (s : State) (a : Word) (n : Nat) (v : Word) : Except Stop State := do
  needAligned a n 1
  scratchStore s a.toNat n v.toNat

/-- ST to global memory (R114, R116): TX_STORE, then alignment, then the store. -/
def stGlobal (s : State) (a : Word) (n : Nat) (v : Word) : Except Stop State := do
  needStorable s a
  needAligned a n 1
  globalStore s a n (v.toNat % 2 ^ (8 * n)) true

/-- ST.REL (R115, R232): at D2 the quantum ends first; the dirty bytes go home, then the store is performed, never buffered: what a
rebuild stub's buffer, whose quantum does not end, still holds of its bytes is older and is forgotten. -/
def stRelease (s : State) (sp : Bool) (a : Word) (n : Nat) (v : Word) : Except Stop State := do
  if sp then .ok () else needStorable s a
  needAligned a n 1
  if sp then scratchCheck s a.toNat n true else .ok ()
  let s ← quantumFirst s
  let s := s.release s.cur.coreKey scopeDie
  if sp then scratchStore s a.toNat n v.toNat
  else if s.me.inPass then .ok s
  else do
    let s ← l1Store s a.toNat n (v.toNat % 2 ^ (8 * n)) true
    .ok ((s.release s.cur.coreKey scopeDie).forgetBytes a.toNat n)

/-- ST, plain or with the die-scope release of ord 2 (R114, R232). -/
def execSt (data base : SReg) (sp : Bool) (size : BitVec 2) (rel : Bool) (off : BitVec 10) (s : State) :
    Host.Outcome State Fault Refusal :=
  let a := mAddr s.me base size off
  let n := 2 ^ size.toNat
  let v := s.me.rs data
  seq32 s (if rel then stRelease s sp a n v else if sp then stScratch s a n v else stGlobal s a n v)

/-- The checks of LDFE and STFE, in order (R233, R235): alignment, SCRATCH_RANGE, KWIN_WRITE for a write or a clearing read at
user level; then TX_STAGE (R274), each at the access's scratch address (log entry 56). -/
def feCheck (s : State) (a : Word) (n : Nat) (write : Bool) : Except Stop Unit := do
  let kind := if write then 1 else 0
  needAligned a n kind
  needAt (decide (a.toNat + n ≤ s.myCore.scratchSize)) .SCRATCH_RANGE a kind
  needAt (!(write && !s.me.bind.sup && decide (a.toNat / 16 < 64))) .KWIN_WRITE a kind
  needAt (!s.stageBad a.toNat n) .TX_STAGE a kind

/-- Clear a granule's bit for an LDFE with .clr; on a granule of the thread's own staging area the bit stays full (R283). -/
def State.feTake (s : State) (tid : Tid) (a n : Nat) (clr : Bool) : State :=
  if clr && !((s.thread tid).bind.txn && s.ownStaging (s.thread tid) a n) then
    s.upScratch tid (fun at_ c => c.clearFull (at_ a / 16))
  else s

/-- LDFE (R233, R234): at D2 the quantum ends first; a full granule is read, and cleared with .clr; on an empty one the thread
waits. The spec does not order the end of the quantum and the faults of R116: the model, here, in ATOM and in ST.REL, raises alignment
and scratch faults first and ends no quantum for them, while a translation is asked for after it (DESIGN CHOICE, log entry 60). -/
def execLdfe (data base : SReg) (size : BitVec 2) (clr mark : Bool) (off : BitVec 10) (s : State) :
    Host.Outcome State Fault Refusal :=
  let a := mAddr s.me base size off
  let n := 2 ^ size.toNat
  seq32 s (do
    feCheck s a n clr
    let s ← quantumFirst s
    if s.myCore.full (a.toNat / 16) then do
      unpoisoned s (s.myCore.poisonedAt a.toNat n)
      let v := s.myCore.scratchNum a.toNat n
      .ok ((s.feTake s.cur a.toNat n clr).upMe (fun t => t.ws data (BitVec.ofNat 64 v)))
    else .error (.wait s (.ldfe data a.toNat size clr mark)))

/-- STFE (R235): the bytes are written, then the granule's bit is set; waiting LDFEs look again. -/
def execStfe (data base : SReg) (size : BitVec 2) (off : BitVec 10) (s : State) : Host.Outcome State Fault Refusal :=
  let a := mAddr s.me base size off
  let n := 2 ^ size.toNat
  let v := s.me.rs data
  seq32 s (do
    feCheck s a n true
    if s.stagingHold s.cur a.toNat n then .error (.wait s .staging) else .ok ()
    let s := s.upScratch s.cur (fun at_ c => (c.scratchWrite (at_ a.toNat) (leBytes n v.toNat)).setFull (at_ a.toNat / 16))
    .ok (s.feTold s.cur))

/-- LDFE_WAIT_END (R233): a waiting LDFE whose granule is full reads it, clears the bit with .clr, and retires. -/
def execLdfeWaitEnd (t : Tid) (s : State) : Host.Outcome State Fault Refusal :=
  match (s.thread t).status with
  | .waiting (.ldfe data a size clr _) =>
    let c := s.core t.coreKey
    let n := 2 ^ size.toNat
    if c.full (a / 16) && c.poisonedAt a n then .next (s.consumeBy t)
    else if c.full (a / 16) then
      .next (s.endWait t (fun s => (s.feTake t a n clr).upThread t (fun x => x.ws data (BitVec.ofNat 64 (c.scratchNum a n)))))
    else noEvent s
  | _ => noEvent s

end Sys2Proof.Machine
end

