-- ==== Sys2Proof/Machine/Scalar.lean ====
section
/-! DEFINITION. Scalar instructions: integer arithmetic and logic (R106, R107), bit operations (R108), compares and predicate
logic (R109, R110), immediate forms (R111, R112) and constant-window forms (R113). -/

namespace Sys2Proof.Machine

/-- A guarded instruction that writes an s register from the thread's registers (R105). -/
def aluOp (g : Guard) (d : SReg) (f : Thread → Word) (s : State) : Host.Outcome State Fault Refusal :=
  guarded g s (.ok (s.upMe (fun t => t.ws d (f t))))

/-- An unguarded instruction that writes an s register from the thread's registers. -/
def immOp (d : SReg) (f : Thread → Word) (s : State) : Host.Outcome State Fault Refusal :=
  seq32 s (.ok (s.upMe (fun t => t.ws d (f t))))

/-- A guarded instruction that writes a p register. -/
def predOp (g : Guard) (d : PReg) (f : Thread → Bool) (s : State) : Host.Outcome State Fault Refusal :=
  guarded g s (.ok (s.upMe (fun t => t.wp d (f t))))

/-- A compare with an immediate. -/
def cmpiOp (d : PReg) (f : Thread → Bool) (s : State) : Host.Outcome State Fault Refusal :=
  seq32 s (.ok (s.upMe (fun t => t.wp d (f t))))

/-- The shift amount s[b][5:0] (R106). -/
def shamt (b : Word) : Nat := b.toNat % 64

/-- Bits [127:64] of the signed product (R107). -/
def mulHigh (a b : Word) : Word := ((a.signExtend 128) * (b.signExtend 128)).extractLsb' 64 64
/-- Bits [127:64] of the unsigned product (R107). -/
def mulHighU (a b : Word) : Word := ((a.setWidth 128) * (b.setWidth 128)).extractLsb' 64 64
/-- Signed division truncated toward zero; a zero divisor gives −1, and −2^63 / −1 gives −2^63 (R107). -/
def divSigned (a b : Word) : Word := if b = 0 then BitVec.allOnes 64 else BitVec.ofInt 64 (a.toInt.tdiv b.toInt)
/-- Unsigned division; a zero divisor gives all ones (R107). -/
def divUnsigned (a b : Word) : Word := if b = 0 then BitVec.allOnes 64 else BitVec.ofNat 64 (a.toNat / b.toNat)
/-- Signed remainder, of the dividend's sign; a zero divisor gives the dividend (R107). -/
def remSigned (a b : Word) : Word := if b = 0 then a else BitVec.ofInt 64 (a.toInt.tmod b.toInt)
/-- Unsigned remainder; a zero divisor gives the dividend (R107). -/
def remUnsigned (a b : Word) : Word := if b = 0 then a else BitVec.ofNat 64 (a.toNat % b.toNat)

/-- Leading zeros among the low n bits. -/
def leadingZeros (x : Word) : Nat → Nat
  | 0 => 0
  | n + 1 => if x.getLsbD n then 0 else 1 + leadingZeros x n
/-- Trailing zeros of the 64 bits from bit i, by fuel. -/
def trailingZeros (x : Word) (i : Nat) : Nat → Nat
  | 0 => 0
  | n + 1 => if x.getLsbD i then 0 else 1 + trailingZeros x (i + 1) n
/-- Bit i moved to bit 63 − i (R108). -/
def reverseBits (x : Word) : Word := BitVec.ofNat 64 (bitsNat (tabulate 64 (fun i => x.getLsbD (63 - i))))
/-- Byte i moved to byte 7 − i (R108). -/
def reverseBytes (x : Word) : Word := BitVec.ofNat 64 (leNat (leBytes 8 x.toNat).reverse)

/-- Position and width of the field that s[b] names (R108). -/
def bitField (b : Word) : Nat × Nat :=
  let pos := field b 0 6
  (pos, Nat.min (Nat.min (field b 8 7) 64) (64 - pos))
/-- BEXT (R108). -/
def bitExtract (a b : Word) : Word :=
  let p := bitField b
  BitVec.ofNat 64 (a.toNat / 2 ^ p.1 % 2 ^ p.2)
/-- BINS (R108). -/
def bitInsert (d a b : Word) : Word :=
  let p := bitField b
  let mask : Word := BitVec.ofNat 64 (2 ^ p.2 - 1)
  (d &&& ~~~(mask <<< p.1)) ||| ((a &&& mask) <<< p.1)

/-- Constant word k (R20, R75). -/
def State.constWord (s : State) (k : Nat) : BitVec 32 := BitVec.ofNat 32 (s.myCore.scratchNum (4 * k) 4)
/-- A constant-window instruction that reads n words from word k (R113); a poisoned word is consumed (R392). -/
def constOp (d : SReg) (k n : Nat) (f : Thread → Word) (s : State) : Host.Outcome State Fault Refusal :=
  seq32 s (do
    unpoisoned s (s.myCore.poisonedAt (4 * k) (4 * n))
    .ok (s.upMe (fun t => t.ws d (f t))))

/-- ADD (R106). -/
def execAdd (g : Guard) (d a b : SReg) (s : State) : Host.Outcome State Fault Refusal :=
  aluOp g d (fun t => t.rs a + t.rs b) s

/-- SUB (R106). -/
def execSub (g : Guard) (d a b : SReg) (s : State) : Host.Outcome State Fault Refusal :=
  aluOp g d (fun t => t.rs a - t.rs b) s

/-- AND (R106). -/
def execAnd (g : Guard) (d a b : SReg) (s : State) : Host.Outcome State Fault Refusal :=
  aluOp g d (fun t => t.rs a &&& t.rs b) s

/-- OR (R106). -/
def execOr (g : Guard) (d a b : SReg) (s : State) : Host.Outcome State Fault Refusal :=
  aluOp g d (fun t => t.rs a ||| t.rs b) s

/-- XOR (R106). -/
def execXor (g : Guard) (d a b : SReg) (s : State) : Host.Outcome State Fault Refusal :=
  aluOp g d (fun t => t.rs a ^^^ t.rs b) s

/-- ANDN (R106). -/
def execAndn (g : Guard) (d a b : SReg) (s : State) : Host.Outcome State Fault Refusal :=
  aluOp g d (fun t => t.rs a &&& ~~~t.rs b) s

/-- SLL (R106). -/
def execSll (g : Guard) (d a b : SReg) (s : State) : Host.Outcome State Fault Refusal :=
  aluOp g d (fun t => t.rs a <<< shamt (t.rs b)) s

/-- SRL (R106). -/
def execSrl (g : Guard) (d a b : SReg) (s : State) : Host.Outcome State Fault Refusal :=
  aluOp g d (fun t => t.rs a >>> shamt (t.rs b)) s

/-- SRA (R106). -/
def execSra (g : Guard) (d a b : SReg) (s : State) : Host.Outcome State Fault Refusal :=
  aluOp g d (fun t => (t.rs a).sshiftRight (shamt (t.rs b))) s

/-- MIN (R106). -/
def execMin (g : Guard) (d a b : SReg) (s : State) : Host.Outcome State Fault Refusal :=
  aluOp g d (fun t => if (t.rs b).slt (t.rs a) then t.rs b else t.rs a) s

/-- MAX (R106). -/
def execMax (g : Guard) (d a b : SReg) (s : State) : Host.Outcome State Fault Refusal :=
  aluOp g d (fun t => if (t.rs a).slt (t.rs b) then t.rs b else t.rs a) s

/-- MINU (R106). -/
def execMinu (g : Guard) (d a b : SReg) (s : State) : Host.Outcome State Fault Refusal :=
  aluOp g d (fun t => if (t.rs b).ult (t.rs a) then t.rs b else t.rs a) s

/-- MAXU (R106). -/
def execMaxu (g : Guard) (d a b : SReg) (s : State) : Host.Outcome State Fault Refusal :=
  aluOp g d (fun t => if (t.rs a).ult (t.rs b) then t.rs b else t.rs a) s

/-- MUL (R107). -/
def execMul (g : Guard) (d a b : SReg) (s : State) : Host.Outcome State Fault Refusal :=
  aluOp g d (fun t => t.rs a * t.rs b) s

/-- MULH (R107). -/
def execMulh (g : Guard) (d a b : SReg) (s : State) : Host.Outcome State Fault Refusal :=
  aluOp g d (fun t => mulHigh (t.rs a) (t.rs b)) s

/-- MULHU (R107). -/
def execMulhu (g : Guard) (d a b : SReg) (s : State) : Host.Outcome State Fault Refusal :=
  aluOp g d (fun t => mulHighU (t.rs a) (t.rs b)) s

/-- DIV (R107). -/
def execDiv (g : Guard) (d a b : SReg) (s : State) : Host.Outcome State Fault Refusal :=
  aluOp g d (fun t => divSigned (t.rs a) (t.rs b)) s

/-- DIVU (R107). -/
def execDivu (g : Guard) (d a b : SReg) (s : State) : Host.Outcome State Fault Refusal :=
  aluOp g d (fun t => divUnsigned (t.rs a) (t.rs b)) s

/-- REM (R107). -/
def execRem (g : Guard) (d a b : SReg) (s : State) : Host.Outcome State Fault Refusal :=
  aluOp g d (fun t => remSigned (t.rs a) (t.rs b)) s

/-- REMU (R107). -/
def execRemu (g : Guard) (d a b : SReg) (s : State) : Host.Outcome State Fault Refusal :=
  aluOp g d (fun t => remUnsigned (t.rs a) (t.rs b)) s

/-- CLZ (R108). -/
def execClz (g : Guard) (d a : SReg) (s : State) : Host.Outcome State Fault Refusal :=
  aluOp g d (fun t => BitVec.ofNat 64 (leadingZeros (t.rs a) 64)) s

/-- CTZ (R108). -/
def execCtz (g : Guard) (d a : SReg) (s : State) : Host.Outcome State Fault Refusal :=
  aluOp g d (fun t => BitVec.ofNat 64 (trailingZeros (t.rs a) 0 64)) s

/-- POPC (R108). -/
def execPopc (g : Guard) (d a : SReg) (s : State) : Host.Outcome State Fault Refusal :=
  aluOp g d (fun t => BitVec.ofNat 64 (popcount (t.rs a))) s

/-- BREV (R108). -/
def execBrev (g : Guard) (d a : SReg) (s : State) : Host.Outcome State Fault Refusal :=
  aluOp g d (fun t => reverseBits (t.rs a)) s

/-- BSWAP (R108). -/
def execBswap (g : Guard) (d a : SReg) (s : State) : Host.Outcome State Fault Refusal :=
  aluOp g d (fun t => reverseBytes (t.rs a)) s

/-- SEXT8 (R108). -/
def execSext8 (g : Guard) (d a : SReg) (s : State) : Host.Outcome State Fault Refusal :=
  aluOp g d (fun t => sext64 ((t.rs a).extractLsb' 0 8)) s

/-- SEXT16 (R108). -/
def execSext16 (g : Guard) (d a : SReg) (s : State) : Host.Outcome State Fault Refusal :=
  aluOp g d (fun t => sext64 ((t.rs a).extractLsb' 0 16)) s

/-- SEXT32 (R108). -/
def execSext32 (g : Guard) (d a : SReg) (s : State) : Host.Outcome State Fault Refusal :=
  aluOp g d (fun t => sext64 ((t.rs a).extractLsb' 0 32)) s

/-- BEXT (R108). -/
def execBext (g : Guard) (d a b : SReg) (s : State) : Host.Outcome State Fault Refusal :=
  aluOp g d (fun t => bitExtract (t.rs a) (t.rs b)) s

/-- BINS (R108); s[d] is also a source. -/
def execBins (g : Guard) (d a b : SReg) (s : State) : Host.Outcome State Fault Refusal :=
  aluOp g d (fun t => bitInsert (t.rs d) (t.rs a) (t.rs b)) s

/-- CMPEQ (R109). -/
def execCmpeq (g : Guard) (d : PReg) (a b : SReg) (s : State) : Host.Outcome State Fault Refusal :=
  predOp g d (fun t => t.rs a == t.rs b) s

/-- CMPNE (R109). -/
def execCmpne (g : Guard) (d : PReg) (a b : SReg) (s : State) : Host.Outcome State Fault Refusal :=
  predOp g d (fun t => t.rs a != t.rs b) s

/-- CMPLT (R109). -/
def execCmplt (g : Guard) (d : PReg) (a b : SReg) (s : State) : Host.Outcome State Fault Refusal :=
  predOp g d (fun t => (t.rs a).slt (t.rs b)) s

/-- CMPGE (R109). -/
def execCmpge (g : Guard) (d : PReg) (a b : SReg) (s : State) : Host.Outcome State Fault Refusal :=
  predOp g d (fun t => !(t.rs a).slt (t.rs b)) s

/-- CMPLTU (R109). -/
def execCmpltu (g : Guard) (d : PReg) (a b : SReg) (s : State) : Host.Outcome State Fault Refusal :=
  predOp g d (fun t => (t.rs a).ult (t.rs b)) s

/-- CMPGEU (R109). -/
def execCmpgeu (g : Guard) (d : PReg) (a b : SReg) (s : State) : Host.Outcome State Fault Refusal :=
  predOp g d (fun t => !(t.rs a).ult (t.rs b)) s

/-- PAND (R110). -/
def execPand (g : Guard) (d a b : PReg) (s : State) : Host.Outcome State Fault Refusal :=
  predOp g d (fun t => t.rp a && t.rp b) s

/-- POR (R110). -/
def execPor (g : Guard) (d a b : PReg) (s : State) : Host.Outcome State Fault Refusal :=
  predOp g d (fun t => t.rp a || t.rp b) s

/-- PXOR (R110). -/
def execPxor (g : Guard) (d a b : PReg) (s : State) : Host.Outcome State Fault Refusal :=
  predOp g d (fun t => t.rp a ^^ t.rp b) s

/-- PANDN (R110). -/
def execPandn (g : Guard) (d a b : PReg) (s : State) : Host.Outcome State Fault Refusal :=
  predOp g d (fun t => t.rp a && !t.rp b) s

/-- PNOT (R110). -/
def execPnot (g : Guard) (d a : PReg) (s : State) : Host.Outcome State Fault Refusal :=
  predOp g d (fun t => !t.rp a) s

/-- ADDI (R111). -/
def execAddi (d a : SReg) (imm : BitVec 15) (s : State) : Host.Outcome State Fault Refusal :=
  immOp d (fun t => t.rs a + sext64 imm) s

/-- ANDI (R111). -/
def execAndi (d a : SReg) (imm : BitVec 15) (s : State) : Host.Outcome State Fault Refusal :=
  immOp d (fun t => t.rs a &&& sext64 imm) s

/-- ORI (R111). -/
def execOri (d a : SReg) (imm : BitVec 15) (s : State) : Host.Outcome State Fault Refusal :=
  immOp d (fun t => t.rs a ||| sext64 imm) s

/-- XORI (R111). -/
def execXori (d a : SReg) (imm : BitVec 15) (s : State) : Host.Outcome State Fault Refusal :=
  immOp d (fun t => t.rs a ^^^ sext64 imm) s

/-- LDHI (R111). -/
def execLdhi (d a : SReg) (imm : BitVec 15) (s : State) : Host.Outcome State Fault Refusal :=
  immOp d (fun t => (t.rs a <<< 15) ||| zext64 imm) s

/-- SLLI (R111). -/
def execSlli (d a : SReg) (sh : BitVec 6) (s : State) : Host.Outcome State Fault Refusal :=
  immOp d (fun t => t.rs a <<< sh.toNat) s

/-- SRLI (R111). -/
def execSrli (d a : SReg) (sh : BitVec 6) (s : State) : Host.Outcome State Fault Refusal :=
  immOp d (fun t => t.rs a >>> sh.toNat) s

/-- SRAI (R111). -/
def execSrai (d a : SReg) (sh : BitVec 6) (s : State) : Host.Outcome State Fault Refusal :=
  immOp d (fun t => (t.rs a).sshiftRight sh.toNat) s

/-- RORI (R111). -/
def execRori (d a : SReg) (sh : BitVec 6) (s : State) : Host.Outcome State Fault Refusal :=
  immOp d (fun t => (t.rs a).rotateRight sh.toNat) s

/-- CMPI.EQ (R111). -/
def execCmpiEq (d : PReg) (a : SReg) (imm : BitVec 12) (s : State) : Host.Outcome State Fault Refusal :=
  cmpiOp d (fun t => t.rs a == sext64 imm) s

/-- CMPI.NE (R111). -/
def execCmpiNe (d : PReg) (a : SReg) (imm : BitVec 12) (s : State) : Host.Outcome State Fault Refusal :=
  cmpiOp d (fun t => t.rs a != sext64 imm) s

/-- CMPI.LT (R111). -/
def execCmpiLt (d : PReg) (a : SReg) (imm : BitVec 12) (s : State) : Host.Outcome State Fault Refusal :=
  cmpiOp d (fun t => (t.rs a).slt (sext64 imm)) s

/-- CMPI.GE (R111). -/
def execCmpiGe (d : PReg) (a : SReg) (imm : BitVec 12) (s : State) : Host.Outcome State Fault Refusal :=
  cmpiOp d (fun t => !(t.rs a).slt (sext64 imm)) s

/-- CMPI.LTU (R111). -/
def execCmpiLtu (d : PReg) (a : SReg) (imm : BitVec 12) (s : State) : Host.Outcome State Fault Refusal :=
  cmpiOp d (fun t => (t.rs a).ult (sext64 imm)) s

/-- CMPI.GEU (R111). -/
def execCmpiGeu (d : PReg) (a : SReg) (imm : BitVec 12) (s : State) : Host.Outcome State Fault Refusal :=
  cmpiOp d (fun t => !(t.rs a).ult (sext64 imm)) s

/-- KLD (R113). -/
def execKld (d : SReg) (k : BitVec 8) (s : State) : Host.Outcome State Fault Refusal :=
  constOp d k.toNat 1 (fun _ => zext64 (s.constWord k.toNat)) s

/-- KLDS (R113). -/
def execKlds (d : SReg) (k : BitVec 8) (s : State) : Host.Outcome State Fault Refusal :=
  constOp d k.toNat 1 (fun _ => sext64 (s.constWord k.toNat)) s

/-- KADD (R113). -/
def execKadd (d a : SReg) (k : BitVec 8) (s : State) : Host.Outcome State Fault Refusal :=
  constOp d k.toNat 1 (fun t => t.rs a + sext64 (s.constWord k.toNat)) s

/-- KSUB (R113). -/
def execKsub (d a : SReg) (k : BitVec 8) (s : State) : Host.Outcome State Fault Refusal :=
  constOp d k.toNat 1 (fun t => t.rs a - sext64 (s.constWord k.toNat)) s

/-- KMUL (R113). -/
def execKmul (d a : SReg) (k : BitVec 8) (s : State) : Host.Outcome State Fault Refusal :=
  constOp d k.toNat 1 (fun t => t.rs a * sext64 (s.constWord k.toNat)) s

/-- KAND (R113). -/
def execKand (d a : SReg) (k : BitVec 8) (s : State) : Host.Outcome State Fault Refusal :=
  constOp d k.toNat 1 (fun t => t.rs a &&& sext64 (s.constWord k.toNat)) s

/-- KOR (R113). -/
def execKor (d a : SReg) (k : BitVec 8) (s : State) : Host.Outcome State Fault Refusal :=
  constOp d k.toNat 1 (fun t => t.rs a ||| sext64 (s.constWord k.toNat)) s

/-- KLDD (R113): k[n+1] above k[n]. -/
def execKldd (d : SReg) (k : BitVec 8) (s : State) : Host.Outcome State Fault Refusal :=
  constOp d k.toNat 2 (fun _ => s.constWord (k.toNat + 1) ++ s.constWord k.toNat) s

end Sys2Proof.Machine
end

