-- ==== Sys2Proof/Machine/VectorLanes.lean ====
section
/-! DEFINITION. Lane-by-lane vector instructions: integer (R134, R135), floating point (R136, R137), fused and special (R138 to R140),
compares and mask logic (R141, R142), and conversions (R143). -/

namespace Sys2Proof.Machine

/-! Integer lanes. -/

/-- The lane function of VADD (R134). -/
def laneVadd (w a b : Nat) : Nat := (a + b) % 2 ^ w
/-- The lane function of VSUB (R134). -/
def laneVsub (w a b : Nat) : Nat := (2 ^ w + a - b) % 2 ^ w
/-- The lane function of VMULLO (R134). -/
def laneVmullo (w a b : Nat) : Nat := a * b % 2 ^ w
/-- The lane function of VMULHI (R134). -/
def laneVmulhi (w a b : Nat) : Nat := mulhLane w a b
/-- The lane function of VMULHIU (R134). -/
def laneVmulhiu (w a b : Nat) : Nat := a * b / 2 ^ w
/-- The lane function of VAND (R134). -/
def laneVand (_w a b : Nat) : Nat := a &&& b
/-- The lane function of VOR (R134). -/
def laneVor (_w a b : Nat) : Nat := a ||| b
/-- The lane function of VXOR (R134). -/
def laneVxor (_w a b : Nat) : Nat := a ^^^ b
/-- The lane function of VANDN (R134). -/
def laneVandn (w a b : Nat) : Nat := a &&& (b ^^^ (2 ^ w - 1))
/-- The lane function of VMAX (R134). -/
def laneVmax (w a b : Nat) : Nat := smaxLane w a b
/-- The lane function of VMIN (R134). -/
def laneVmin (w a b : Nat) : Nat := sminLane w a b
/-- The lane function of VMAXU (R134). -/
def laneVmaxu (_w a b : Nat) : Nat := Nat.max a b
/-- The lane function of VMINU (R134). -/
def laneVminu (_w a b : Nat) : Nat := Nat.min a b
/-- The lane function of VSHL (R134). -/
def laneVshl (w a b : Nat) : Nat := a * 2 ^ (b % w) % 2 ^ w
/-- The lane function of VSHR (R134). -/
def laneVshr (w a b : Nat) : Nat := a / 2 ^ (b % w)
/-- The lane function of VSRA (R134). -/
def laneVsra (w a b : Nat) : Nat := sraLane w a (b % w)
/-- The lane function of VADDS (R134). -/
def laneVadds (w a b : Nat) : Nat := satS w (toSigned w a + toSigned w b)
/-- The lane function of VADDSU (R134). -/
def laneVaddsu (w a b : Nat) : Nat := satU w ((a : Int) + b)
/-- The lane function of VSUBS (R134). -/
def laneVsubs (w a b : Nat) : Nat := satS w (toSigned w a - toSigned w b)
/-- The lane function of VSUBSU (R134). -/
def laneVsubsu (w a b : Nat) : Nat := satU w ((a : Int) - b)

/-- VADD (R134). -/
def execVadd (esz : BitVec 2) (mk : MReg) (vd va vb : VName) (s : State) : Host.Outcome State Fault Refusal :=
  lane2 esz mk vd va vb (fun _ a b => pureLane (laneVadd (eszW esz) a b)) s

/-- VSUB (R134). -/
def execVsub (esz : BitVec 2) (mk : MReg) (vd va vb : VName) (s : State) : Host.Outcome State Fault Refusal :=
  lane2 esz mk vd va vb (fun _ a b => pureLane (laneVsub (eszW esz) a b)) s

/-- VMULLO (R134). -/
def execVmullo (esz : BitVec 2) (mk : MReg) (vd va vb : VName) (s : State) : Host.Outcome State Fault Refusal :=
  lane2 esz mk vd va vb (fun _ a b => pureLane (laneVmullo (eszW esz) a b)) s

/-- VMULHI (R134). -/
def execVmulhi (esz : BitVec 2) (mk : MReg) (vd va vb : VName) (s : State) : Host.Outcome State Fault Refusal :=
  lane2 esz mk vd va vb (fun _ a b => pureLane (laneVmulhi (eszW esz) a b)) s

/-- VMULHIU (R134). -/
def execVmulhiu (esz : BitVec 2) (mk : MReg) (vd va vb : VName) (s : State) : Host.Outcome State Fault Refusal :=
  lane2 esz mk vd va vb (fun _ a b => pureLane (laneVmulhiu (eszW esz) a b)) s

/-- VAND (R134). -/
def execVand (esz : BitVec 2) (mk : MReg) (vd va vb : VName) (s : State) : Host.Outcome State Fault Refusal :=
  lane2 esz mk vd va vb (fun _ a b => pureLane (laneVand (eszW esz) a b)) s

/-- VOR (R134). -/
def execVor (esz : BitVec 2) (mk : MReg) (vd va vb : VName) (s : State) : Host.Outcome State Fault Refusal :=
  lane2 esz mk vd va vb (fun _ a b => pureLane (laneVor (eszW esz) a b)) s

/-- VXOR (R134). -/
def execVxor (esz : BitVec 2) (mk : MReg) (vd va vb : VName) (s : State) : Host.Outcome State Fault Refusal :=
  lane2 esz mk vd va vb (fun _ a b => pureLane (laneVxor (eszW esz) a b)) s

/-- VANDN (R134). -/
def execVandn (esz : BitVec 2) (mk : MReg) (vd va vb : VName) (s : State) : Host.Outcome State Fault Refusal :=
  lane2 esz mk vd va vb (fun _ a b => pureLane (laneVandn (eszW esz) a b)) s

/-- VMAX (R134). -/
def execVmax (esz : BitVec 2) (mk : MReg) (vd va vb : VName) (s : State) : Host.Outcome State Fault Refusal :=
  lane2 esz mk vd va vb (fun _ a b => pureLane (laneVmax (eszW esz) a b)) s

/-- VMIN (R134). -/
def execVmin (esz : BitVec 2) (mk : MReg) (vd va vb : VName) (s : State) : Host.Outcome State Fault Refusal :=
  lane2 esz mk vd va vb (fun _ a b => pureLane (laneVmin (eszW esz) a b)) s

/-- VMAXU (R134). -/
def execVmaxu (esz : BitVec 2) (mk : MReg) (vd va vb : VName) (s : State) : Host.Outcome State Fault Refusal :=
  lane2 esz mk vd va vb (fun _ a b => pureLane (laneVmaxu (eszW esz) a b)) s

/-- VMINU (R134). -/
def execVminu (esz : BitVec 2) (mk : MReg) (vd va vb : VName) (s : State) : Host.Outcome State Fault Refusal :=
  lane2 esz mk vd va vb (fun _ a b => pureLane (laneVminu (eszW esz) a b)) s

/-- VSHL (R134). -/
def execVshl (esz : BitVec 2) (mk : MReg) (vd va vb : VName) (s : State) : Host.Outcome State Fault Refusal :=
  lane2 esz mk vd va vb (fun _ a b => pureLane (laneVshl (eszW esz) a b)) s

/-- VSHR (R134). -/
def execVshr (esz : BitVec 2) (mk : MReg) (vd va vb : VName) (s : State) : Host.Outcome State Fault Refusal :=
  lane2 esz mk vd va vb (fun _ a b => pureLane (laneVshr (eszW esz) a b)) s

/-- VSRA (R134). -/
def execVsra (esz : BitVec 2) (mk : MReg) (vd va vb : VName) (s : State) : Host.Outcome State Fault Refusal :=
  lane2 esz mk vd va vb (fun _ a b => pureLane (laneVsra (eszW esz) a b)) s

/-- VADDS (R134). -/
def execVadds (esz : BitVec 2) (mk : MReg) (vd va vb : VName) (s : State) : Host.Outcome State Fault Refusal :=
  lane2 esz mk vd va vb (fun _ a b => pureLane (laneVadds (eszW esz) a b)) s

/-- VADDSU (R134). -/
def execVaddsu (esz : BitVec 2) (mk : MReg) (vd va vb : VName) (s : State) : Host.Outcome State Fault Refusal :=
  lane2 esz mk vd va vb (fun _ a b => pureLane (laneVaddsu (eszW esz) a b)) s

/-- VSUBS (R134). -/
def execVsubs (esz : BitVec 2) (mk : MReg) (vd va vb : VName) (s : State) : Host.Outcome State Fault Refusal :=
  lane2 esz mk vd va vb (fun _ a b => pureLane (laneVsubs (eszW esz) a b)) s

/-- VSUBSU (R134). -/
def execVsubsu (esz : BitVec 2) (mk : MReg) (vd va vb : VName) (s : State) : Host.Outcome State Fault Refusal :=
  lane2 esz mk vd va vb (fun _ a b => pureLane (laneVsubsu (eszW esz) a b)) s

/-- VABS (R134): the minimum stays as it is. -/
def execVabs (esz : BitVec 2) (mk : MReg) (vd va : VName) (s : State) : Host.Outcome State Fault Refusal :=
  lane1 esz mk vd va (fun _ a => pureLane (ofInteger (eszW esz) (toSigned (eszW esz) a).natAbs)) s

/-- VNEG (R134). -/
def execVneg (esz : BitVec 2) (mk : MReg) (vd va : VName) (s : State) : Host.Outcome State Fault Refusal :=
  lane1 esz mk vd va (fun _ a => pureLane ((2 ^ eszW esz - a) % 2 ^ eszW esz)) s

/-- VMOV (R134). -/
def execVmov (esz : BitVec 2) (mk : MReg) (vd va : VName) (s : State) : Host.Outcome State Fault Refusal :=
  lane1 esz mk vd va (fun _ a => pureLane a) s

/-- VBCAST (R134). -/
def execVbcast (esz : BitVec 2) (mk : MReg) (vd : VName) (a : SReg) (s : State) : Host.Outcome State Fault Refusal :=
  vOp esz [] vd (fun t _ old => maskedLanes (eszW esz) (t.rm mk) old (fun _ => pureLane ((t.rs a).toNat % 2 ^ eszW esz))) s

/-! The 16-bit lane form. -/

/-- VADD, 16-bit form (R135). -/
def execVadd16 (w : Bool) (vd vs : VName) (s : State) : Host.Outcome State Fault Refusal :=
  lane16 w vd vs (fun esz _ a b => pureLane (laneVadd (eszW esz) a b)) s

/-- VSUB, 16-bit form (R135). -/
def execVsub16 (w : Bool) (vd vs : VName) (s : State) : Host.Outcome State Fault Refusal :=
  lane16 w vd vs (fun esz _ a b => pureLane (laneVsub (eszW esz) a b)) s

/-- VMULLO, 16-bit form (R135). -/
def execVmullo16 (w : Bool) (vd vs : VName) (s : State) : Host.Outcome State Fault Refusal :=
  lane16 w vd vs (fun esz _ a b => pureLane (laneVmullo (eszW esz) a b)) s

/-- VAND, 16-bit form (R135). -/
def execVand16 (w : Bool) (vd vs : VName) (s : State) : Host.Outcome State Fault Refusal :=
  lane16 w vd vs (fun esz _ a b => pureLane (laneVand (eszW esz) a b)) s

/-- VOR, 16-bit form (R135). -/
def execVor16 (w : Bool) (vd vs : VName) (s : State) : Host.Outcome State Fault Refusal :=
  lane16 w vd vs (fun esz _ a b => pureLane (laneVor (eszW esz) a b)) s

/-- VXOR, 16-bit form (R135). -/
def execVxor16 (w : Bool) (vd vs : VName) (s : State) : Host.Outcome State Fault Refusal :=
  lane16 w vd vs (fun esz _ a b => pureLane (laneVxor (eszW esz) a b)) s

/-- VMAX, 16-bit form (R135). -/
def execVmax16 (w : Bool) (vd vs : VName) (s : State) : Host.Outcome State Fault Refusal :=
  lane16 w vd vs (fun esz _ a b => pureLane (laneVmax (eszW esz) a b)) s

/-- VMIN, 16-bit form (R135). -/
def execVmin16 (w : Bool) (vd vs : VName) (s : State) : Host.Outcome State Fault Refusal :=
  lane16 w vd vs (fun esz _ a b => pureLane (laneVmin (eszW esz) a b)) s

/-- VSHL, 16-bit form (R135). -/
def execVshl16 (w : Bool) (vd vs : VName) (s : State) : Host.Outcome State Fault Refusal :=
  lane16 w vd vs (fun esz _ a b => pureLane (laneVshl (eszW esz) a b)) s

/-- VSHR, 16-bit form (R135). -/
def execVshr16 (w : Bool) (vd vs : VName) (s : State) : Host.Outcome State Fault Refusal :=
  lane16 w vd vs (fun esz _ a b => pureLane (laneVshr (eszW esz) a b)) s

/-- VMOV, 16-bit form (R135). -/
def execVmov16 (w : Bool) (vd vs : VName) (s : State) : Host.Outcome State Fault Refusal :=
  seq16 s (vBody s (eszW (wEsz w)) [vs] vd (fun _ vs _ => (vs.getD 0 0, 0)))

/-- VFADD, 16-bit form (R135). -/
def execVfadd16 (w : Bool) (vd vs : VName) (s : State) : Host.Outcome State Fault Refusal :=
  lane16 w vd vs (fun esz => fpLane2 (eszF esz) FVal.add) s

/-- VFSUB, 16-bit form (R135). -/
def execVfsub16 (w : Bool) (vd vs : VName) (s : State) : Host.Outcome State Fault Refusal :=
  lane16 w vd vs (fun esz => fpLane2 (eszF esz) FVal.sub) s

/-- VFMUL, 16-bit form (R135). -/
def execVfmul16 (w : Bool) (vd vs : VName) (s : State) : Host.Outcome State Fault Refusal :=
  lane16 w vd vs (fun esz => fpLane2 (eszF esz) (fun _ => FVal.mul)) s

/-- VFMAX, 16-bit form (R135). -/
def execVfmax16 (w : Bool) (vd vs : VName) (s : State) : Host.Outcome State Fault Refusal :=
  lane16 w vd vs (fun esz t => (eszF esz).maxmin t.fpm true) s

/-- VFMIN, 16-bit form (R135). -/
def execVfmin16 (w : Bool) (vd vs : VName) (s : State) : Host.Outcome State Fault Refusal :=
  lane16 w vd vs (fun esz t => (eszF esz).maxmin t.fpm false) s

/-! Floating-point lanes. -/

/-- VFADD (R136). -/
def execVfadd (esz : BitVec 2) (mk : MReg) (vd va vb : VName) (s : State) : Host.Outcome State Fault Refusal :=
  lane2 esz mk vd va vb (fpLane2 (eszF esz) FVal.add) s

/-- VFSUB (R136). -/
def execVfsub (esz : BitVec 2) (mk : MReg) (vd va vb : VName) (s : State) : Host.Outcome State Fault Refusal :=
  lane2 esz mk vd va vb (fpLane2 (eszF esz) FVal.sub) s

/-- VFMUL (R136). -/
def execVfmul (esz : BitVec 2) (mk : MReg) (vd va vb : VName) (s : State) : Host.Outcome State Fault Refusal :=
  lane2 esz mk vd va vb (fpLane2 (eszF esz) (fun _ => FVal.mul)) s

/-- VFDIV (R136). -/
def execVfdiv (esz : BitVec 2) (mk : MReg) (vd va vb : VName) (s : State) : Host.Outcome State Fault Refusal :=
  lane2 esz mk vd va vb (fpLane2 (eszF esz) (fun _ => FVal.div)) s

/-- VFMAX (R137). -/
def execVfmax (esz : BitVec 2) (mk : MReg) (vd va vb : VName) (s : State) : Host.Outcome State Fault Refusal :=
  lane2 esz mk vd va vb (fun t => (eszF esz).maxmin t.fpm true) s

/-- VFMIN (R137). -/
def execVfmin (esz : BitVec 2) (mk : MReg) (vd va vb : VName) (s : State) : Host.Outcome State Fault Refusal :=
  lane2 esz mk vd va vb (fun t => (eszF esz).maxmin t.fpm false) s

/-- VFABS (R136): the sign bit is cleared. -/
def execVfabs (esz : BitVec 2) (mk : MReg) (vd va : VName) (s : State) : Host.Outcome State Fault Refusal :=
  lane1 esz mk vd va (fun _ a => pureLane (a % 2 ^ (eszW esz - 1))) s

/-- VFNEG (R136): the sign bit is inverted. -/
def execVfneg (esz : BitVec 2) (mk : MReg) (vd va : VName) (s : State) : Host.Outcome State Fault Refusal :=
  lane1 esz mk vd va (fun _ a => pureLane (a ^^^ 2 ^ (eszW esz - 1))) s

/-- VFSQRT (R136). -/
def execVfsqrt (esz : BitVec 2) (mk : MReg) (vd va : VName) (s : State) : Host.Outcome State Fault Refusal :=
  lane1 esz mk vd va (fpLane1 (eszF esz) FVal.sqrt) s

/-- VFMA (R138). -/
def execVfma (esz : BitVec 2) (mk : MReg) (vd va vb : VName) (s : State) : Host.Outcome State Fault Refusal :=
  lane3 esz mk vd va vb (fpLane3 (eszF esz) (fun fpm a b c => a.fma fpm b c)) s

/-- VFMS (R138). -/
def execVfms (esz : BitVec 2) (mk : MReg) (vd va vb : VName) (s : State) : Host.Outcome State Fault Refusal :=
  lane3 esz mk vd va vb (fpLane3 (eszF esz) (fun fpm a b c => a.fma fpm b c.negate)) s

/-- VFNMA (R138). -/
def execVfnma (esz : BitVec 2) (mk : MReg) (vd va vb : VName) (s : State) : Host.Outcome State Fault Refusal :=
  lane3 esz mk vd va vb (fpLane3 (eszF esz) (fun fpm a b c => a.negate.fma fpm b c)) s

/-- VFNMS (R138). -/
def execVfnms (esz : BitVec 2) (mk : MReg) (vd va vb : VName) (s : State) : Host.Outcome State Fault Refusal :=
  lane3 esz mk vd va vb (fpLane3 (eszF esz) (fun fpm a b c => a.negate.fma fpm b c.negate)) s

/-- VMAC (R139). -/
def execVmac (esz : BitVec 2) (mk : MReg) (vd va vb : VName) (s : State) : Host.Outcome State Fault Refusal :=
  lane3 esz mk vd va vb (fun _ a b c => pureLane ((c + a * b) % 2 ^ eszW esz)) s

/-- VEXP2 (R140). -/
def execVexp2 (esz : BitVec 2) (mk : MReg) (vd va : VName) (s : State) : Host.Outcome State Fault Refusal :=
  lane1 esz mk vd va (fpLane1 (eszF esz) SpecFn.exp2.apply) s

/-- VLOG2 (R140). -/
def execVlog2 (esz : BitVec 2) (mk : MReg) (vd va : VName) (s : State) : Host.Outcome State Fault Refusal :=
  lane1 esz mk vd va (fpLane1 (eszF esz) SpecFn.log2.apply) s

/-- VRCP (R140). -/
def execVrcp (esz : BitVec 2) (mk : MReg) (vd va : VName) (s : State) : Host.Outcome State Fault Refusal :=
  lane1 esz mk vd va (fpLane1 (eszF esz) SpecFn.rcp.apply) s

/-- VRSQRT (R140). -/
def execVrsqrt (esz : BitVec 2) (mk : MReg) (vd va : VName) (s : State) : Host.Outcome State Fault Refusal :=
  lane1 esz mk vd va (fpLane1 (eszF esz) SpecFn.rsqrt.apply) s

/-- VSIN (R140). -/
def execVsin (esz : BitVec 2) (mk : MReg) (vd va : VName) (s : State) : Host.Outcome State Fault Refusal :=
  lane1 esz mk vd va (fpLane1 (eszF esz) SpecFn.sin.apply) s

/-- VTANH (R140). -/
def execVtanh (esz : BitVec 2) (mk : MReg) (vd va : VName) (s : State) : Host.Outcome State Fault Refusal :=
  lane1 esz mk vd va (fpLane1 (eszF esz) SpecFn.tanh.apply) s

/-- VSIGM (R140). -/
def execVsigm (esz : BitVec 2) (mk : MReg) (vd va : VName) (s : State) : Host.Outcome State Fault Refusal :=
  lane1 esz mk vd va (fpLane1 (eszF esz) SpecFn.sigm.apply) s

/-! Compares and masks (R141, R142). -/

/-- A compare into a mask register: active lanes give the truth, inactive lanes keep their bit, higher bits are cleared. -/
def vCompare (esz : BitVec 2) (mk md : MReg) (va vb : VName) (f : Thread → Nat → Nat → Bool × BitVec 5) (s : State) :
    Host.Outcome State Fault Refusal :=
  let w := eszW esz
  seq32 s (do
    vCheck s.me [va, vb] []
    let (t, vs) := s.me.vReads w [va, vb]
    let m := t.rm mk
    let rs := tabulate (laneCount w) (fun i =>
      if m.getLsbD i then f t (arg w vs 0 i) (arg w vs 1 i) else ((t.rm md).getLsbD i, 0))
    .ok (s.setMe ((t.wm md (BitVec.ofNat 128 (bitsNat (rs.map Prod.fst)))).orFlags (rs.foldl (fun a r => a ||| r.2) 0))))

/-- A floating-point compare: `quiet` compares raise NV for a signalling NaN only. -/
def fpCompare (F : FloatFmt) (quiet : Bool) (onNan : Bool) (op : FVal → FVal → Bool) (t : Thread) (a b : Nat) : Bool × BitVec 5 :=
  let x := F.operand t.fpm a
  let y := F.operand t.fpm b
  if x.isNan || y.isNan then (onNan, if quiet then snanFlag [x, y] else flagNV) else (op x y, 0)

/-- VCMPEQ (R141). -/
def execVcmpeq (esz : BitVec 2) (mk : MReg) (md : MReg) (va vb : VName) (s : State) : Host.Outcome State Fault Refusal :=
  vCompare esz mk md va vb (fun _ a b => (a == b, 0)) s

/-- VCMPNE (R141). -/
def execVcmpne (esz : BitVec 2) (mk : MReg) (md : MReg) (va vb : VName) (s : State) : Host.Outcome State Fault Refusal :=
  vCompare esz mk md va vb (fun _ a b => (a != b, 0)) s

/-- VCMPLT (R141). -/
def execVcmplt (esz : BitVec 2) (mk : MReg) (md : MReg) (va vb : VName) (s : State) : Host.Outcome State Fault Refusal :=
  vCompare esz mk md va vb (fun _ a b => (decide (toSigned (eszW esz) a < toSigned (eszW esz) b), 0)) s

/-- VCMPLE (R141). -/
def execVcmple (esz : BitVec 2) (mk : MReg) (md : MReg) (va vb : VName) (s : State) : Host.Outcome State Fault Refusal :=
  vCompare esz mk md va vb (fun _ a b => (decide (toSigned (eszW esz) a ≤ toSigned (eszW esz) b), 0)) s

/-- VCMPLTU (R141). -/
def execVcmpltu (esz : BitVec 2) (mk : MReg) (md : MReg) (va vb : VName) (s : State) : Host.Outcome State Fault Refusal :=
  vCompare esz mk md va vb (fun _ a b => (decide (a < b), 0)) s

/-- VCMPLEU (R141). -/
def execVcmpleu (esz : BitVec 2) (mk : MReg) (md : MReg) (va vb : VName) (s : State) : Host.Outcome State Fault Refusal :=
  vCompare esz mk md va vb (fun _ a b => (decide (a ≤ b), 0)) s

/-- VFCMPEQ (R141). -/
def execVfcmpeq (esz : BitVec 2) (mk : MReg) (md : MReg) (va vb : VName) (s : State) : Host.Outcome State Fault Refusal :=
  vCompare esz mk md va vb (fpCompare (eszF esz) true false FVal.eq) s

/-- VFCMPLT (R141). -/
def execVfcmplt (esz : BitVec 2) (mk : MReg) (md : MReg) (va vb : VName) (s : State) : Host.Outcome State Fault Refusal :=
  vCompare esz mk md va vb (fpCompare (eszF esz) false false FVal.lt) s

/-- VFCMPLE (R141). -/
def execVfcmple (esz : BitVec 2) (mk : MReg) (md : MReg) (va vb : VName) (s : State) : Host.Outcome State Fault Refusal :=
  vCompare esz mk md va vb (fpCompare (eszF esz) false false (fun x y => !y.lt x)) s

/-- VFCMPUN (R141). -/
def execVfcmpun (esz : BitVec 2) (mk : MReg) (md : MReg) (va vb : VName) (s : State) : Host.Outcome State Fault Refusal :=
  vCompare esz mk md va vb (fpCompare (eszF esz) true true (fun _ _ => false)) s

/-- VMAND (R142). -/
def execVmand (md ma mb : MReg) (s : State) : Host.Outcome State Fault Refusal :=
  seq32 s (.ok (s.upMe (fun t => t.wm md (t.rm ma &&& t.rm mb))))

/-- VMOR (R142). -/
def execVmor (md ma mb : MReg) (s : State) : Host.Outcome State Fault Refusal :=
  seq32 s (.ok (s.upMe (fun t => t.wm md (t.rm ma ||| t.rm mb))))

/-- VMXOR (R142). -/
def execVmxor (md ma mb : MReg) (s : State) : Host.Outcome State Fault Refusal :=
  seq32 s (.ok (s.upMe (fun t => t.wm md (t.rm ma ^^^ t.rm mb))))

/-- VMNOT (R142). -/
def execVmnot (md ma : MReg) (s : State) : Host.Outcome State Fault Refusal :=
  seq32 s (.ok (s.upMe (fun t => t.wm md (~~~t.rm ma))))

/-! Conversions (R143). -/

/-- The lanes of a conversion: n = 1024 / max(ws, wd); when it narrows, the lanes from n upward are cleared. -/
def cvtLanes (ks kd : Elem) (fpm : BitVec 6) (sat : Bool) (m : Mask) (src old : VReg) : VReg × BitVec 5 :=
  let n := 1024 / Nat.max ks.width kd.width
  let rs := tabulate n (fun i =>
    if m.getLsbD i then convert ks kd fpm sat (lane ks.width i src) else (lane kd.width i old, 0))
  (packLanes kd.width (rs.map Prod.fst), rs.foldl (fun a r => a ||| r.2) 0)

/-- An integer lane copied to the same format is unchanged; cv 1 clamps, cv 2 rounds toward zero. -/
def execVcvt (src dst : BitVec 5) (cv : BitVec 2) (mk : MReg) (vd va : VName) (s : State) :
    Host.Outcome State Fault Refusal :=
  match elemOf src.toNat, elemOf dst.toNat with
  | some ks, some kd =>
    seq32 s (vBody s ks.width [va] vd (fun t vs old =>
      let fpm := if cv = 2 then (t.fpm &&& 0b111100#6) ||| 1#6 else t.fpm
      cvtLanes ks kd fpm (cv == 1) (t.rm mk) (vs.getD 0 0) old))
  | _, _ => seq32 s (trap .BAD_FORMAT)

end Sys2Proof.Machine
end

