-- ==== Sys2Proof/Machine/VectorMove.lean ====
section
/-! DEFINITION. Vector reductions and scans (R54, R55, R144, R145), permutes (R146, R147) and lane moves (R148). -/

namespace Sys2Proof.Machine

/-! Reductions. -/

/-- A leaf or node of a tree or a scan: its value, and whether it is padding alone (R55). -/
abbrev LaneLeaf := Nat × Bool

/-- The operation of a node: whether one of its operands is padding (R56), then the operands. -/
abbrev NodeOp := Bool → Nat → Nat → Nat × BitVec 5

/-- Combine two leaves or nodes. -/
def NodeOp.node (op : NodeOp) (a b : LaneLeaf) : LaneLeaf × BitVec 5 :=
  let r := op (a.2 || b.2) a.1 b.1
  ((r.1, a.2 && b.2), r.2)

/-- One step of a tree: node i combines x[i] and x[i + h]. -/
def treeStep (op : NodeOp) (xs : List LaneLeaf) : List (LaneLeaf × BitVec 5) :=
  let h := xs.length / 2
  ((xs.take h).zip (xs.drop h)).map (fun p => op.node p.1 p.2)

/-- The pairwise tree of R54 over a power of two of leaves, by its depth; flags of every node. -/
def treeReduce (op : NodeOp) : Nat → List LaneLeaf → BitVec 5 → Nat × BitVec 5
  | 0, xs, fl => ((xs.headD (0, false)).1, fl)
  | d + 1, xs, fl =>
    let r := treeStep op xs
    treeReduce op d (r.map Prod.fst) (r.foldl (fun a x => a ||| x.2) fl)

/-- The lanes of a source, with padding that holds an identity in the masked ones (R55). -/
def padded (w : Nat) (m : Mask) (ident : Nat) (v : VReg) : List LaneLeaf :=
  tabulate (laneCount w) (fun i => if m.getLsbD i then (lane w i v, false) else (ident, true))

/-- Some lane takes part. -/
def anyLane (w : Nat) (m : Mask) : Bool := (List.range (laneCount w)).any (fun i => m.getLsbD i)

/-- A reduction (R144): the result in lane 0, zero in every other lane; `empty` is the result when every lane is masked. -/
def vReduce (esz : BitVec 2) (mk : MReg) (vd va : VName) (ident empty : Nat) (op : Thread → NodeOp)
    (s : State) : Host.Outcome State Fault Refusal :=
  let w := eszW esz
  vOp esz [va] vd (fun t vs _ =>
    let m := t.rm mk
    let r := treeReduce (op t) (Nat.log2 (laneCount w)) (padded w m ident (vs.getD 0 0)) 0
    if anyLane w m then (BitVec.ofNat 1024 (r.1 % 2 ^ w), r.2) else (BitVec.ofNat 1024 empty, r.2)) s

/-- A reduction of integers. -/
def iReduce (esz : BitVec 2) (mk : MReg) (vd va : VName) (ident : Nat) (op : Nat → Nat → Nat) (s : State) :
    Host.Outcome State Fault Refusal :=
  vReduce esz mk vd va ident ident (fun _ _ a b => (op a b, 0)) s

/-- −0, the identity of a floating-point sum (R55). -/
def fpSumIdent (F : FloatFmt) : Nat := F.signBit true
/-- The node of a floating-point sum (R144, R145): with padding among its operands the sign of a zero is the other's (R56). -/
def sumNode (F : FloatFmt) (t : Thread) : NodeOp := fun pad =>
  let fpm := if pad then fpmNearest t.fpm else t.fpm
  fpLane2 F FVal.add { t with fpm := fpm }
/-- +1.0, the identity of a product. -/
def fpOneBits (F : FloatFmt) : Nat := F.bias * 2 ^ F.fbits

/-- VRSUM (R144). -/
def execVrsum (esz : BitVec 2) (mk : MReg) (vd va : VName) (s : State) : Host.Outcome State Fault Refusal :=
  iReduce esz mk vd va 0 (fun a b => (a + b) % 2 ^ eszW esz) s
/-- VRMAX (R144). -/
def execVrmax (esz : BitVec 2) (mk : MReg) (vd va : VName) (s : State) : Host.Outcome State Fault Refusal :=
  iReduce esz mk vd va (2 ^ (eszW esz - 1)) (smaxLane (eszW esz)) s
/-- VRMIN (R144). -/
def execVrmin (esz : BitVec 2) (mk : MReg) (vd va : VName) (s : State) : Host.Outcome State Fault Refusal :=
  iReduce esz mk vd va (2 ^ (eszW esz - 1) - 1) (sminLane (eszW esz)) s
/-- VRMAXU (R144). -/
def execVrmaxu (esz : BitVec 2) (mk : MReg) (vd va : VName) (s : State) : Host.Outcome State Fault Refusal :=
  iReduce esz mk vd va 0 Nat.max s
/-- VRMINU (R144). -/
def execVrminu (esz : BitVec 2) (mk : MReg) (vd va : VName) (s : State) : Host.Outcome State Fault Refusal :=
  iReduce esz mk vd va (2 ^ eszW esz - 1) Nat.min s
/-- VRAND (R144). -/
def execVrand (esz : BitVec 2) (mk : MReg) (vd va : VName) (s : State) : Host.Outcome State Fault Refusal :=
  iReduce esz mk vd va (2 ^ eszW esz - 1) (fun a b => a &&& b) s
/-- VROR (R144). -/
def execVror (esz : BitVec 2) (mk : MReg) (vd va : VName) (s : State) : Host.Outcome State Fault Refusal :=
  iReduce esz mk vd va 0 (fun a b => a ||| b) s
/-- VRXOR (R144). -/
def execVrxor (esz : BitVec 2) (mk : MReg) (vd va : VName) (s : State) : Host.Outcome State Fault Refusal :=
  iReduce esz mk vd va 0 (fun a b => a ^^^ b) s
/-- VFRSUM (R144): empty gives +0. -/
def execVfrsum (esz : BitVec 2) (mk : MReg) (vd va : VName) (s : State) : Host.Outcome State Fault Refusal :=
  vReduce esz mk vd va (fpSumIdent (eszF esz)) 0 (sumNode (eszF esz)) s
/-- VFRMAX (R144). -/
def execVfrmax (esz : BitVec 2) (mk : MReg) (vd va : VName) (s : State) : Host.Outcome State Fault Refusal :=
  vReduce esz mk vd va ((eszF esz).infBits true) ((eszF esz).infBits true) (fun t _ => (eszF esz).maxmin t.fpm true) s
/-- VFRMIN (R144). -/
def execVfrmin (esz : BitVec 2) (mk : MReg) (vd va : VName) (s : State) : Host.Outcome State Fault Refusal :=
  vReduce esz mk vd va ((eszF esz).infBits false) ((eszF esz).infBits false) (fun t _ => (eszF esz).maxmin t.fpm false) s
/-- VFRPROD (R144). -/
def execVfrprod (esz : BitVec 2) (mk : MReg) (vd va : VName) (s : State) : Host.Outcome State Fault Refusal :=
  vReduce esz mk vd va (fpOneBits (eszF esz)) (fpOneBits (eszF esz)) (fun t _ => fpLane2 (eszF esz) (fun _ => FVal.mul) t) s

/-! Scans (R145). -/

/-- The node of step d at lane j enters the result of an active lane. -/
def scanCounts (n d j : Nat) (m : Mask) : Bool :=
  (List.range n).any (fun i => m.getLsbD i && decide (j ≤ i) && (i - j) % (2 * d) == 0)

/-- The steps d = 2^k, 2^(k+1), … of an inclusive scan, by fuel. -/
def scanSteps (op : NodeOp) (n : Nat) (m : Mask) : Nat → Nat → List LaneLeaf → BitVec 5 → List LaneLeaf × BitVec 5
  | 0, _, xs, fl => (xs, fl)
  | f + 1, d, xs, fl =>
    let rs := tabulate n (fun i =>
      if d ≤ i then
        let r := op.node (xs.getD (i - d) (0, false)) (xs.getD i (0, false))
        (r.1, if scanCounts n d i m then r.2 else 0)
      else (xs.getD i (0, false), 0))
    scanSteps op n m f (2 * d) (rs.map Prod.fst) (rs.foldl (fun a r => a ||| r.2) fl)

/-- An inclusive prefix scan (R145); inactive lanes of the destination are kept. -/
def vScan (esz : BitVec 2) (mk : MReg) (vd va : VName) (ident : Nat) (op : Thread → NodeOp) (s : State) :
    Host.Outcome State Fault Refusal :=
  let w := eszW esz
  let n := laneCount w
  vOp esz [va] vd (fun t vs old =>
    let m := t.rm mk
    let r := scanSteps (op t) n m (Nat.log2 n) 1 (padded w m ident (vs.getD 0 0)) 0
    ((maskedLanes w m old (fun i => ((r.1.getD i (0, false)).1, 0))).1, r.2)) s

/-- VSCAN (R145). -/
def execVscan (esz : BitVec 2) (mk : MReg) (vd va : VName) (s : State) : Host.Outcome State Fault Refusal :=
  vScan esz mk vd va 0 (fun _ _ a b => ((a + b) % 2 ^ eszW esz, 0)) s
/-- VFSCAN (R145). -/
def execVfscan (esz : BitVec 2) (mk : MReg) (vd va : VName) (s : State) : Host.Outcome State Fault Refusal :=
  vScan esz mk vd va (fpSumIdent (eszF esz)) (sumNode (eszF esz)) s

/-! Permutes (R146, R147). -/

/-- A permute: lane i of the destination from the lists of source lanes, under the mask. -/
def vPermute (esz : BitVec 2) (mk : MReg) (vd : VName) (reads : List VName)
    (f : Thread → Nat → List (List Nat) → Nat → Nat) (s : State) : Host.Outcome State Fault Refusal :=
  let w := eszW esz
  vOp esz reads vd (fun t vs old =>
    let ls := vs.map (unpackLanes w)
    maskedLanes w (t.rm mk) old (fun i => (f t (laneCount w) ls i, 0))) s

/-- Lane i of the k-th source list; out-of-range lanes read 0. -/
def src (ls : List (List Nat)) (k i : Nat) : Nat := (ls.getD k []).getD i 0

/-- VPERM (R146). -/
def execVperm (esz : BitVec 2) (mk : MReg) (vd va vb : VName) (s : State) : Host.Outcome State Fault Refusal :=
  vPermute esz mk vd [va, vb] (fun _ n ls i => src ls 0 (src ls 1 i % n)) s
/-- VROTL (R146). -/
def execVrotl (esz : BitVec 2) (mk : MReg) (vd va : VName) (b : SReg) (s : State) : Host.Outcome State Fault Refusal :=
  vPermute esz mk vd [va] (fun t n ls i => src ls 0 ((i + n - (t.rs b).toNat % n) % n)) s
/-- VSLIDEUP (R146). -/
def execVslideup (esz : BitVec 2) (mk : MReg) (vd va : VName) (b : SReg) (s : State) : Host.Outcome State Fault Refusal :=
  vPermute esz mk vd [va] (fun t _ ls i => if (t.rs b).toNat ≤ i then src ls 0 (i - (t.rs b).toNat) else 0) s
/-- VSLIDEDN (R146). -/
def execVslidedn (esz : BitVec 2) (mk : MReg) (vd va : VName) (b : SReg) (s : State) : Host.Outcome State Fault Refusal :=
  vPermute esz mk vd [va] (fun t n ls i => if i + (t.rs b).toNat < n then src ls 0 (i + (t.rs b).toNat) else 0) s
/-- VZIPLO (R146). -/
def execVziplo (esz : BitVec 2) (mk : MReg) (vd va vb : VName) (s : State) : Host.Outcome State Fault Refusal :=
  vPermute esz mk vd [va, vb] (fun _ _ ls i => if i % 2 = 0 then src ls 0 (i / 2) else src ls 1 ((i - 1) / 2)) s
/-- VZIPHI (R146). -/
def execVziphi (esz : BitVec 2) (mk : MReg) (vd va vb : VName) (s : State) : Host.Outcome State Fault Refusal :=
  vPermute esz mk vd [va, vb]
    (fun _ n ls i => if i % 2 = 0 then src ls 0 (n / 2 + i / 2) else src ls 1 (n / 2 + (i - 1) / 2)) s
/-- Element k of the 2n lanes of two sources. -/
def catLane (n : Nat) (ls : List (List Nat)) (k : Nat) : Nat := if k < n then src ls 0 k else src ls 1 (k - n)
/-- VUNZIPE (R146). -/
def execVunzipe (esz : BitVec 2) (mk : MReg) (vd va vb : VName) (s : State) : Host.Outcome State Fault Refusal :=
  vPermute esz mk vd [va, vb] (fun _ n ls i => catLane n ls (2 * i)) s
/-- VUNZIPO (R146). -/
def execVunzipo (esz : BitVec 2) (mk : MReg) (vd va vb : VName) (s : State) : Host.Outcome State Fault Refusal :=
  vPermute esz mk vd [va, vb] (fun _ n ls i => catLane n ls (2 * i + 1)) s

/-- The active lane numbers, ascending. -/
def activeLanes (n : Nat) (m : Mask) : List Nat := (List.range n).filter (fun i => m.getLsbD i)

/-- VCOMPRESS (R147). -/
def execVcompress (esz : BitVec 2) (mk : MReg) (vd va : VName) (s : State) : Host.Outcome State Fault Refusal :=
  let w := eszW esz
  vOp esz [va] vd (fun t vs _ =>
    (packLanes w ((activeLanes (laneCount w) (t.rm mk)).map (fun i => lane w i (vs.getD 0 0))), 0)) s
/-- VEXPAND (R147). -/
def execVexpand (esz : BitVec 2) (mk : MReg) (vd va : VName) (s : State) : Host.Outcome State Fault Refusal :=
  let w := eszW esz
  vOp esz [va] vd (fun t vs old =>
    let m := t.rm mk
    maskedLanes w m old (fun i => (lane w ((activeLanes i m).length) (vs.getD 0 0), 0))) s

/-! Lane moves (R148). -/

/-- L = u(s[b]) mod n. -/
def laneOf (t : Thread) (b : SReg) (w : Nat) : Nat := (t.rs b).toNat % laneCount w

/-- VEXT (R148). -/
def execVext (esz : BitVec 2) (mk : MReg) (d : SReg) (va : VName) (b : SReg) (s : State) : Host.Outcome State Fault Refusal :=
  let w := eszW esz
  seq32 s (do
    vCheck s.me [va] []
    let l := laneOf s.me b w
    let (t, v) := s.me.vRead w va
    .ok (s.setMe (t.ws d (if (t.rm mk).getLsbD l then BitVec.ofNat 64 (lane w l v) else 0))))
/-- VINS (R148). -/
def execVins (esz : BitVec 2) (mk : MReg) (vd : VName) (a b : SReg) (s : State) : Host.Outcome State Fault Refusal :=
  let w := eszW esz
  vOp esz [] vd (fun t _ old =>
    let l := laneOf t b w
    maskedLanes w ((t.rm mk) &&& (BitVec.ofNat 128 (2 ^ l))) old (fun _ => ((t.rs a).toNat % 2 ^ w, 0))) s
/-- VSPLAT (R148). -/
def execVsplat (esz : BitVec 2) (mk : MReg) (vd va : VName) (b : SReg) (s : State) : Host.Outcome State Fault Refusal :=
  let w := eszW esz
  vOp esz [va] vd (fun t vs old =>
    let x := lane w (laneOf t b w) (vs.getD 0 0)
    maskedLanes w (t.rm mk) old (fun _ => (x, 0))) s
/-- VMTOS (R148). -/
def execVmtos (d : SReg) (ma : MReg) (s : State) : Host.Outcome State Fault Refusal :=
  seq32 s (.ok (s.upMe (fun t => t.ws d ((t.rm ma).extractLsb' 0 64))))
/-- VMTOSH (R148). -/
def execVmtosh (d : SReg) (ma : MReg) (s : State) : Host.Outcome State Fault Refusal :=
  seq32 s (.ok (s.upMe (fun t => t.ws d ((t.rm ma).extractLsb' 64 64))))
/-- VSTOM (R148). -/
def execVstom (md : MReg) (a b : SReg) (s : State) : Host.Outcome State Fault Refusal :=
  seq32 s (.ok (s.upMe (fun t => t.wm md (t.rs b ++ t.rs a))))
/-- MPOP (R148). -/
def execMpop (d : SReg) (ma : MReg) (s : State) : Host.Outcome State Fault Refusal :=
  seq32 s (.ok (s.upMe (fun t => t.ws d (BitVec.ofNat 64 (popcount (t.rm ma))))))

end Sys2Proof.Machine
end

