-- ==== Sys2Proof/Machine/Dispatch.lean ====
section
/-! DEFINITION. The dispatcher: one arm per constructor of Instr, each a direct call of its meaning. -/

namespace Sys2Proof.Machine

def exec (i : Instr) (s : State) : Host.Outcome State Fault Refusal :=
  match i with
  | .mxfree a => Sys2Proof.Machine.execMxfree a s
  | .bankRelease cl b => Sys2Proof.Machine.execBankRelease cl b s
  | .capack a => Sys2Proof.Machine.execCapack a s
  | .rngclr a => Sys2Proof.Machine.execRngclr a s
  | .pginv a => Sys2Proof.Machine.execPginv a s
  | .feop a => Sys2Proof.Machine.execFeop a s
  | .accdrop a => Sys2Proof.Machine.execAccdrop a s
  | .accspillWrite a => Sys2Proof.Machine.execAccspillWrite a s
  | .ffrgnWrite a => Sys2Proof.Machine.execFfrgnWrite a s
  | .txstgWrite a => Sys2Proof.Machine.execTxstgWrite a s
  | .crectWrite n a => Sys2Proof.Machine.execCrectWrite n a s
  | .frptrWrite a => Sys2Proof.Machine.execFrptrWrite a s
  | .frptrRead d => Sys2Proof.Machine.execFrptrRead d s
  | .cbRegisterWrite fill n a => Sys2Proof.Machine.execCbRegisterWrite fill n a s
  | .tarcmdRegister a => Sys2Proof.Machine.execTarcmdRegister a s
  | .tarcmdDeregister a => Sys2Proof.Machine.execTarcmdDeregister a s
  | .sliceBind lid die threads => Sys2Proof.Machine.execSliceBind lid die threads s
  | .sliceComplete t => Sys2Proof.Machine.execSliceComplete t s
  | .restartRerun lid idx t => Sys2Proof.Machine.execRestartRerun lid idx t s
  | .ageingStep => Sys2Proof.Machine.execAgeingStep s
  | .priorityPreemption lid => Sys2Proof.Machine.execPriorityPreemption lid s
  | .workSteal lid thief => Sys2Proof.Machine.execWorkSteal lid thief s
  | .statusExpiry lid => Sys2Proof.Machine.execStatusExpiry lid s
  | .barrierRelease lid grp => Sys2Proof.Machine.execBarrierRelease lid grp s
  | .barrierLeave core => Sys2Proof.Machine.execBarrierLeave core s
  | .d2QuantumExpiry t => Sys2Proof.Machine.execD2QuantumExpiry t s
  | .d2RoundCommit lid grp => Sys2Proof.Machine.execD2RoundCommit lid grp s
  | .vrClaimGrant core => Sys2Proof.Machine.execVrClaimGrant core s
  | .vrResumerPreempt core => Sys2Proof.Machine.execVrResumerPreempt core s
  | .vrtaketTimeout t => Sys2Proof.Machine.execVrtaketTimeout t s
  | .sleepTimeout t => Sys2Proof.Machine.execSleepTimeout t s
  | .yieldHoldExpiry t => Sys2Proof.Machine.execYieldHoldExpiry t s
  | .ldfeWaitEnd t => Sys2Proof.Machine.execLdfeWaitEnd t s
  | .cbwaitEnd t => Sys2Proof.Machine.execCbwaitEnd t s
  | .jobWaitEnd t => Sys2Proof.Machine.execJobWaitEnd t s
  | .lrwaitEnd t => Sys2Proof.Machine.execLrwaitEnd t s
  | .quantWaitEnd t => Sys2Proof.Machine.execQuantWaitEnd t s
  | .engineQueueEntryFree t => Sys2Proof.Machine.execEngineQueueEntryFree t s
  | .mxeStep cl => Sys2Proof.Machine.execMxeStep cl s
  | .rsuPass cl => Sys2Proof.Machine.execRsuPass cl s
  | .btuJobStart core id => Sys2Proof.Machine.execBtuJobStart core id s
  | .btuJobComplete core id => Sys2Proof.Machine.execBtuJobComplete core id s
  | .collectiveExecute lid c => Sys2Proof.Machine.execCollectiveExecute lid c s
  | .lineGrantRequest core asid va kind user => Sys2Proof.Machine.execLineGrantRequest core asid va kind user s
  | .tableWalkComplete asid va kind user => Sys2Proof.Machine.execTableWalkComplete asid va kind user s
  | .sectorFill core asid va => Sys2Proof.Machine.execSectorFill core asid va s
  | .writeBack core asid va => Sys2Proof.Machine.execWriteBack core asid va s
  | .homeAtomic asid va fn dw op cmp => Sys2Proof.Machine.execHomeAtomic asid va fn dw op cmp s
  | .updateApply die src => Sys2Proof.Machine.execUpdateApply die src s
  | .replicaFillInstall die asid va => Sys2Proof.Machine.execReplicaFillInstall die asid va s
  | .replicaDrop die asid va => Sys2Proof.Machine.execReplicaDrop die asid va s
  | .clockRequest t die => Sys2Proof.Machine.execClockRequest t die s
  | .packageAcquireEnd t => Sys2Proof.Machine.execPackageAcquireEnd t s
  | .accSpill slice back => Sys2Proof.Machine.execAccSpill slice back s
  | .faultFrameWrite t => Sys2Proof.Machine.execFaultFrameWrite t s
  | .pageFaultRecord t => Sys2Proof.Machine.execPageFaultRecord t s
  | .pageFaultResolved asid vpage => Sys2Proof.Machine.execPageFaultResolved asid vpage s
  | .pageFaultKill asid vpage => Sys2Proof.Machine.execPageFaultKill asid vpage s
  | .faultFrameRestore lid idx t => Sys2Proof.Machine.execFaultFrameRestore lid idx t s
  | .remoteFaultRecord pkg asid vpage => Sys2Proof.Machine.execRemoteFaultRecord pkg asid vpage s
  | .faultPacketWrite die => Sys2Proof.Machine.execFaultPacketWrite die s
  | .debugWindowAccess t off data => Sys2Proof.Machine.execDebugWindowAccess t off data s
  | .dctlResume t clr => Sys2Proof.Machine.execDctlResume t clr s
  | .dctlTerminateSlice t => Sys2Proof.Machine.execDctlTerminateSlice t s
  | .dctlTerminateLaunch t => Sys2Proof.Machine.execDctlTerminateLaunch t s
  | .dctlPreempt t => Sys2Proof.Machine.execDctlPreempt t s
  | .contextFrameWrite t => Sys2Proof.Machine.execContextFrameWrite t s
  | .contextResume lid idx t => Sys2Proof.Machine.execContextResume lid idx t s
  | .fatalError cause => Sys2Proof.Machine.execFatalError cause s
  | .seqSetCompute die => Sys2Proof.Machine.execSeqSetCompute die s
  | .reconPassBind die t => Sys2Proof.Machine.execReconPassBind die t s
  | .seqReserve die t => Sys2Proof.Machine.execSeqReserve die t s
  | .seqSendRequests die => Sys2Proof.Machine.execSeqSendRequests die s
  | .assignReceive die pod rn => Sys2Proof.Machine.execAssignReceive die pod rn s
  | .lkmRequest slice die => Sys2Proof.Machine.execLkmRequest slice die s
  | .lkmHorizon slice die => Sys2Proof.Machine.execLkmHorizon slice die s
  | .lkmPush lid idx slot granule => Sys2Proof.Machine.execLkmPush lid idx slot granule s
  | .transactionBind lid idx => Sys2Proof.Machine.execTransactionBind lid idx s
  | .lkmCommit lid idx slot => Sys2Proof.Machine.execLkmCommit lid idx slot s
  | .lkmRelease lid idx slot => Sys2Proof.Machine.execLkmRelease lid idx slot s
  | .transactionReland lid idx t => Sys2Proof.Machine.execTransactionReland lid idx t s
  | .registerScrub core word => Sys2Proof.Machine.execRegisterScrub core word s
  | .patrolRead die ch pa => Sys2Proof.Machine.execPatrolRead die ch pa s
  | .scoreDecay => Sys2Proof.Machine.execScoreDecay s
  | .leaseIssue u => Sys2Proof.Machine.execLeaseIssue u s
  | .leaseDrainComplete u => Sys2Proof.Machine.execLeaseDrainComplete u s
  | .leaseDrainTimeout u => Sys2Proof.Machine.execLeaseDrainTimeout u s
  | .assayResult u res => Sys2Proof.Machine.execAssayResult u res s
  | .channelTestWindow die ch => Sys2Proof.Machine.execChannelTestWindow die ch s
  | .ueConsumption u => Sys2Proof.Machine.execUeConsumption u s
  | .pairedCompare t agree => Sys2Proof.Machine.execPairedCompare t agree s
  | .pairTimeout t => Sys2Proof.Machine.execPairTimeout t s
  | .flitReplay u => Sys2Proof.Machine.execFlitReplay u s
  | .boundaryFailure die ix => Sys2Proof.Machine.execBoundaryFailure die ix s
  | .dywinLinkFailure die ix => Sys2Proof.Machine.execDywinLinkFailure die ix s
  | .packageSilence pkg => Sys2Proof.Machine.execPackageSilence pkg s
  | .gangAck lid => Sys2Proof.Machine.execGangAck lid s
  | .gangAcksComplete lid => Sys2Proof.Machine.execGangAcksComplete lid s
  | .gangStart lid => Sys2Proof.Machine.execGangStart lid s
  | .gangAbort lid => Sys2Proof.Machine.execGangAbort lid s
  | .doorbellRing port page qid => Sys2Proof.Machine.execDoorbellRing port page qid s
  | .doorbellReset port page qid => Sys2Proof.Machine.execDoorbellReset port page qid s
  | .doorbellDisable port page qid => Sys2Proof.Machine.execDoorbellDisable port page qid s
  | .fePendingService q => Sys2Proof.Machine.execFePendingService q s
  | .queueMap port slot => Sys2Proof.Machine.execQueueMap port slot s
  | .queueSlotRelease slot => Sys2Proof.Machine.execQueueSlotRelease slot s
  | .packetFetch slot => Sys2Proof.Machine.execPacketFetch slot s
  | .packetNop slot => Sys2Proof.Machine.execPacketNop slot s
  | .packetLaunch slot => Sys2Proof.Machine.execPacketLaunch slot s
  | .packetBundle slot => Sys2Proof.Machine.execPacketBundle slot s
  | .launchSignalWrite lid => Sys2Proof.Machine.execLaunchSignalWrite lid s
  | .packetWait slot => Sys2Proof.Machine.execPacketWait slot s
  | .packetWaitMet slot => Sys2Proof.Machine.execPacketWaitMet slot s
  | .packetSignalStore slot => Sys2Proof.Machine.execPacketSignalStore slot s
  | .packetSignalAdd slot => Sys2Proof.Machine.execPacketSignalAdd slot s
  | .packetIb slot => Sys2Proof.Machine.execPacketIb slot s
  | .packetPred slot => Sys2Proof.Machine.execPacketPred slot s
  | .packetLoop slot => Sys2Proof.Machine.execPacketLoop slot s
  | .packetFetchfence slot => Sys2Proof.Machine.execPacketFetchfence slot s
  | .packetCopy slot => Sys2Proof.Machine.execPacketCopy slot s
  | .hostMemoryAccess port off data => Sys2Proof.Machine.execHostMemoryAccess port off data s
  | .hostRegisterWrite port off val => Sys2Proof.Machine.execHostRegisterWrite port off val s
  | .attestationGo port => Sys2Proof.Machine.execAttestationGo port s
  | .attestationReportDone port => Sys2Proof.Machine.execAttestationReportDone port s
  | .packageReset => Sys2Proof.Machine.execPackageReset s
  | .thermalThrottle die => Sys2Proof.Machine.execThermalThrottle die s
  | .thermalTrip => Sys2Proof.Machine.execThermalTrip s
  | .islandGate island => Sys2Proof.Machine.execIslandGate island s
  | .islandPowerUp island => Sys2Proof.Machine.execIslandPowerUp island s
  | .contactRegained pkg => Sys2Proof.Machine.execContactRegained pkg s
  | .dvfsChange island mhz => Sys2Proof.Machine.execDvfsChange island mhz s
  | .dumpComplete => Sys2Proof.Machine.execDumpComplete s
  | .add g d a b => Sys2Proof.Machine.execAdd g d a b s
  | .sub g d a b => Sys2Proof.Machine.execSub g d a b s
  | .and g d a b => Sys2Proof.Machine.execAnd g d a b s
  | .or g d a b => Sys2Proof.Machine.execOr g d a b s
  | .xor g d a b => Sys2Proof.Machine.execXor g d a b s
  | .andn g d a b => Sys2Proof.Machine.execAndn g d a b s
  | .sll g d a b => Sys2Proof.Machine.execSll g d a b s
  | .srl g d a b => Sys2Proof.Machine.execSrl g d a b s
  | .sra g d a b => Sys2Proof.Machine.execSra g d a b s
  | .min g d a b => Sys2Proof.Machine.execMin g d a b s
  | .max g d a b => Sys2Proof.Machine.execMax g d a b s
  | .minu g d a b => Sys2Proof.Machine.execMinu g d a b s
  | .maxu g d a b => Sys2Proof.Machine.execMaxu g d a b s
  | .mul g d a b => Sys2Proof.Machine.execMul g d a b s
  | .mulh g d a b => Sys2Proof.Machine.execMulh g d a b s
  | .mulhu g d a b => Sys2Proof.Machine.execMulhu g d a b s
  | .div g d a b => Sys2Proof.Machine.execDiv g d a b s
  | .divu g d a b => Sys2Proof.Machine.execDivu g d a b s
  | .rem g d a b => Sys2Proof.Machine.execRem g d a b s
  | .remu g d a b => Sys2Proof.Machine.execRemu g d a b s
  | .clz g d a => Sys2Proof.Machine.execClz g d a s
  | .ctz g d a => Sys2Proof.Machine.execCtz g d a s
  | .popc g d a => Sys2Proof.Machine.execPopc g d a s
  | .brev g d a => Sys2Proof.Machine.execBrev g d a s
  | .bswap g d a => Sys2Proof.Machine.execBswap g d a s
  | .bext g d a b => Sys2Proof.Machine.execBext g d a b s
  | .bins g d a b => Sys2Proof.Machine.execBins g d a b s
  | .sext8 g d a => Sys2Proof.Machine.execSext8 g d a s
  | .sext16 g d a => Sys2Proof.Machine.execSext16 g d a s
  | .sext32 g d a => Sys2Proof.Machine.execSext32 g d a s
  | .cmpeq g d a b => Sys2Proof.Machine.execCmpeq g d a b s
  | .cmpne g d a b => Sys2Proof.Machine.execCmpne g d a b s
  | .cmplt g d a b => Sys2Proof.Machine.execCmplt g d a b s
  | .cmpge g d a b => Sys2Proof.Machine.execCmpge g d a b s
  | .cmpltu g d a b => Sys2Proof.Machine.execCmpltu g d a b s
  | .cmpgeu g d a b => Sys2Proof.Machine.execCmpgeu g d a b s
  | .pand g d a b => Sys2Proof.Machine.execPand g d a b s
  | .por g d a b => Sys2Proof.Machine.execPor g d a b s
  | .pxor g d a b => Sys2Proof.Machine.execPxor g d a b s
  | .pandn g d a b => Sys2Proof.Machine.execPandn g d a b s
  | .pnot g d a => Sys2Proof.Machine.execPnot g d a s
  | .addi d a imm => Sys2Proof.Machine.execAddi d a imm s
  | .andi d a imm => Sys2Proof.Machine.execAndi d a imm s
  | .ori d a imm => Sys2Proof.Machine.execOri d a imm s
  | .xori d a imm => Sys2Proof.Machine.execXori d a imm s
  | .slli d a sh => Sys2Proof.Machine.execSlli d a sh s
  | .srli d a sh => Sys2Proof.Machine.execSrli d a sh s
  | .srai d a sh => Sys2Proof.Machine.execSrai d a sh s
  | .rori d a sh => Sys2Proof.Machine.execRori d a sh s
  | .ldhi d a imm => Sys2Proof.Machine.execLdhi d a imm s
  | .cmpiEq d a imm => Sys2Proof.Machine.execCmpiEq d a imm s
  | .cmpiNe d a imm => Sys2Proof.Machine.execCmpiNe d a imm s
  | .cmpiLt d a imm => Sys2Proof.Machine.execCmpiLt d a imm s
  | .cmpiGe d a imm => Sys2Proof.Machine.execCmpiGe d a imm s
  | .cmpiLtu d a imm => Sys2Proof.Machine.execCmpiLtu d a imm s
  | .cmpiGeu d a imm => Sys2Proof.Machine.execCmpiGeu d a imm s
  | .kld d k => Sys2Proof.Machine.execKld d k s
  | .klds d k => Sys2Proof.Machine.execKlds d k s
  | .kadd d a k => Sys2Proof.Machine.execKadd d a k s
  | .ksub d a k => Sys2Proof.Machine.execKsub d a k s
  | .kmul d a k => Sys2Proof.Machine.execKmul d a k s
  | .kand d a k => Sys2Proof.Machine.execKand d a k s
  | .kor d a k => Sys2Proof.Machine.execKor d a k s
  | .kldd d k => Sys2Proof.Machine.execKldd d k s
  | .ld data base sp size acq off => Sys2Proof.Machine.execLd data base sp size acq off s
  | .st data base sp size rel off => Sys2Proof.Machine.execSt data base sp size rel off s
  | .ldfe data base size clr mark off => Sys2Proof.Machine.execLdfe data base size clr mark off s
  | .stfe data base size off => Sys2Proof.Machine.execStfe data base size off s
  | .aadd data base b dw ord => Sys2Proof.Machine.execAadd data base b dw ord s
  | .aand data base b dw ord => Sys2Proof.Machine.execAand data base b dw ord s
  | .aor data base b dw ord => Sys2Proof.Machine.execAor data base b dw ord s
  | .axor data base b dw ord => Sys2Proof.Machine.execAxor data base b dw ord s
  | .amin data base b dw ord => Sys2Proof.Machine.execAmin data base b dw ord s
  | .amax data base b dw ord => Sys2Proof.Machine.execAmax data base b dw ord s
  | .aminu data base b dw ord => Sys2Proof.Machine.execAminu data base b dw ord s
  | .amaxu data base b dw ord => Sys2Proof.Machine.execAmaxu data base b dw ord s
  | .aswap data base b dw ord => Sys2Proof.Machine.execAswap data base b dw ord s
  | .acas data base b dw ord => Sys2Proof.Machine.execAcas data base b dw ord s
  | .afadd data base b ord => Sys2Proof.Machine.execAfadd data base b ord s
  | .afaddD base b ord => Sys2Proof.Machine.execAfaddD base b ord s
  | .accinit data base ord => Sys2Proof.Machine.execAccinit data base ord s
  | .accrd data base dw ord => Sys2Proof.Machine.execAccrd data base dw ord s
  | .br neg pred off => Sys2Proof.Machine.execBr neg pred off s
  | .call neg pred off => Sys2Proof.Machine.execCall neg pred off s
  | .loop a len => Sys2Proof.Machine.execLoop a len s
  | .jr g a => Sys2Proof.Machine.execJr g a s
  | .ret g => Sys2Proof.Machine.execRet g s
  | .halt => Sys2Proof.Machine.execHalt s
  | .yield g => Sys2Proof.Machine.execYield g s
  | .nop g => Sys2Proof.Machine.execNop g s
  | .cleave idx => Sys2Proof.Machine.execCleave idx s
  | .vadd esz mk vd va vb => Sys2Proof.Machine.execVadd esz mk vd va vb s
  | .vsub esz mk vd va vb => Sys2Proof.Machine.execVsub esz mk vd va vb s
  | .vmullo esz mk vd va vb => Sys2Proof.Machine.execVmullo esz mk vd va vb s
  | .vmulhi esz mk vd va vb => Sys2Proof.Machine.execVmulhi esz mk vd va vb s
  | .vmulhiu esz mk vd va vb => Sys2Proof.Machine.execVmulhiu esz mk vd va vb s
  | .vand esz mk vd va vb => Sys2Proof.Machine.execVand esz mk vd va vb s
  | .vor esz mk vd va vb => Sys2Proof.Machine.execVor esz mk vd va vb s
  | .vxor esz mk vd va vb => Sys2Proof.Machine.execVxor esz mk vd va vb s
  | .vandn esz mk vd va vb => Sys2Proof.Machine.execVandn esz mk vd va vb s
  | .vmax esz mk vd va vb => Sys2Proof.Machine.execVmax esz mk vd va vb s
  | .vmin esz mk vd va vb => Sys2Proof.Machine.execVmin esz mk vd va vb s
  | .vmaxu esz mk vd va vb => Sys2Proof.Machine.execVmaxu esz mk vd va vb s
  | .vminu esz mk vd va vb => Sys2Proof.Machine.execVminu esz mk vd va vb s
  | .vshl esz mk vd va vb => Sys2Proof.Machine.execVshl esz mk vd va vb s
  | .vshr esz mk vd va vb => Sys2Proof.Machine.execVshr esz mk vd va vb s
  | .vsra esz mk vd va vb => Sys2Proof.Machine.execVsra esz mk vd va vb s
  | .vadds esz mk vd va vb => Sys2Proof.Machine.execVadds esz mk vd va vb s
  | .vaddsu esz mk vd va vb => Sys2Proof.Machine.execVaddsu esz mk vd va vb s
  | .vsubs esz mk vd va vb => Sys2Proof.Machine.execVsubs esz mk vd va vb s
  | .vsubsu esz mk vd va vb => Sys2Proof.Machine.execVsubsu esz mk vd va vb s
  | .vabs esz mk vd va => Sys2Proof.Machine.execVabs esz mk vd va s
  | .vneg esz mk vd va => Sys2Proof.Machine.execVneg esz mk vd va s
  | .vmov esz mk vd va => Sys2Proof.Machine.execVmov esz mk vd va s
  | .vbcast esz mk vd a => Sys2Proof.Machine.execVbcast esz mk vd a s
  | .vadd16 w vd vs => Sys2Proof.Machine.execVadd16 w vd vs s
  | .vsub16 w vd vs => Sys2Proof.Machine.execVsub16 w vd vs s
  | .vmullo16 w vd vs => Sys2Proof.Machine.execVmullo16 w vd vs s
  | .vand16 w vd vs => Sys2Proof.Machine.execVand16 w vd vs s
  | .vor16 w vd vs => Sys2Proof.Machine.execVor16 w vd vs s
  | .vxor16 w vd vs => Sys2Proof.Machine.execVxor16 w vd vs s
  | .vmax16 w vd vs => Sys2Proof.Machine.execVmax16 w vd vs s
  | .vmin16 w vd vs => Sys2Proof.Machine.execVmin16 w vd vs s
  | .vshl16 w vd vs => Sys2Proof.Machine.execVshl16 w vd vs s
  | .vshr16 w vd vs => Sys2Proof.Machine.execVshr16 w vd vs s
  | .vfadd16 w vd vs => Sys2Proof.Machine.execVfadd16 w vd vs s
  | .vfsub16 w vd vs => Sys2Proof.Machine.execVfsub16 w vd vs s
  | .vfmul16 w vd vs => Sys2Proof.Machine.execVfmul16 w vd vs s
  | .vfmax16 w vd vs => Sys2Proof.Machine.execVfmax16 w vd vs s
  | .vfmin16 w vd vs => Sys2Proof.Machine.execVfmin16 w vd vs s
  | .vmov16 w vd vs => Sys2Proof.Machine.execVmov16 w vd vs s
  | .vfadd esz mk vd va vb => Sys2Proof.Machine.execVfadd esz mk vd va vb s
  | .vfsub esz mk vd va vb => Sys2Proof.Machine.execVfsub esz mk vd va vb s
  | .vfmul esz mk vd va vb => Sys2Proof.Machine.execVfmul esz mk vd va vb s
  | .vfdiv esz mk vd va vb => Sys2Proof.Machine.execVfdiv esz mk vd va vb s
  | .vfmax esz mk vd va vb => Sys2Proof.Machine.execVfmax esz mk vd va vb s
  | .vfmin esz mk vd va vb => Sys2Proof.Machine.execVfmin esz mk vd va vb s
  | .vfabs esz mk vd va => Sys2Proof.Machine.execVfabs esz mk vd va s
  | .vfneg esz mk vd va => Sys2Proof.Machine.execVfneg esz mk vd va s
  | .vfsqrt esz mk vd va => Sys2Proof.Machine.execVfsqrt esz mk vd va s
  | .vcmpeq esz mk md va vb => Sys2Proof.Machine.execVcmpeq esz mk md va vb s
  | .vcmpne esz mk md va vb => Sys2Proof.Machine.execVcmpne esz mk md va vb s
  | .vcmplt esz mk md va vb => Sys2Proof.Machine.execVcmplt esz mk md va vb s
  | .vcmple esz mk md va vb => Sys2Proof.Machine.execVcmple esz mk md va vb s
  | .vcmpltu esz mk md va vb => Sys2Proof.Machine.execVcmpltu esz mk md va vb s
  | .vcmpleu esz mk md va vb => Sys2Proof.Machine.execVcmpleu esz mk md va vb s
  | .vfcmpeq esz mk md va vb => Sys2Proof.Machine.execVfcmpeq esz mk md va vb s
  | .vfcmplt esz mk md va vb => Sys2Proof.Machine.execVfcmplt esz mk md va vb s
  | .vfcmple esz mk md va vb => Sys2Proof.Machine.execVfcmple esz mk md va vb s
  | .vfcmpun esz mk md va vb => Sys2Proof.Machine.execVfcmpun esz mk md va vb s
  | .vmand md ma mb => Sys2Proof.Machine.execVmand md ma mb s
  | .vmor md ma mb => Sys2Proof.Machine.execVmor md ma mb s
  | .vmxor md ma mb => Sys2Proof.Machine.execVmxor md ma mb s
  | .vmnot md ma => Sys2Proof.Machine.execVmnot md ma s
  | .vcvt src dst cv mk vd va => Sys2Proof.Machine.execVcvt src dst cv mk vd va s
  | .vrsum esz mk vd va => Sys2Proof.Machine.execVrsum esz mk vd va s
  | .vrmax esz mk vd va => Sys2Proof.Machine.execVrmax esz mk vd va s
  | .vrmin esz mk vd va => Sys2Proof.Machine.execVrmin esz mk vd va s
  | .vrmaxu esz mk vd va => Sys2Proof.Machine.execVrmaxu esz mk vd va s
  | .vrminu esz mk vd va => Sys2Proof.Machine.execVrminu esz mk vd va s
  | .vrand esz mk vd va => Sys2Proof.Machine.execVrand esz mk vd va s
  | .vror esz mk vd va => Sys2Proof.Machine.execVror esz mk vd va s
  | .vrxor esz mk vd va => Sys2Proof.Machine.execVrxor esz mk vd va s
  | .vfrsum esz mk vd va => Sys2Proof.Machine.execVfrsum esz mk vd va s
  | .vfrmax esz mk vd va => Sys2Proof.Machine.execVfrmax esz mk vd va s
  | .vfrmin esz mk vd va => Sys2Proof.Machine.execVfrmin esz mk vd va s
  | .vfrprod esz mk vd va => Sys2Proof.Machine.execVfrprod esz mk vd va s
  | .vscan esz mk vd va => Sys2Proof.Machine.execVscan esz mk vd va s
  | .vfscan esz mk vd va => Sys2Proof.Machine.execVfscan esz mk vd va s
  | .vperm esz mk vd va vb => Sys2Proof.Machine.execVperm esz mk vd va vb s
  | .vrotl esz mk vd va b => Sys2Proof.Machine.execVrotl esz mk vd va b s
  | .vslideup esz mk vd va b => Sys2Proof.Machine.execVslideup esz mk vd va b s
  | .vslidedn esz mk vd va b => Sys2Proof.Machine.execVslidedn esz mk vd va b s
  | .vziplo esz mk vd va vb => Sys2Proof.Machine.execVziplo esz mk vd va vb s
  | .vziphi esz mk vd va vb => Sys2Proof.Machine.execVziphi esz mk vd va vb s
  | .vunzipe esz mk vd va vb => Sys2Proof.Machine.execVunzipe esz mk vd va vb s
  | .vunzipo esz mk vd va vb => Sys2Proof.Machine.execVunzipo esz mk vd va vb s
  | .vcompress esz mk vd va => Sys2Proof.Machine.execVcompress esz mk vd va s
  | .vexpand esz mk vd va => Sys2Proof.Machine.execVexpand esz mk vd va s
  | .vld esz mk vd a b => Sys2Proof.Machine.execVld esz mk vd a b s
  | .vlds esz mk vd a b => Sys2Proof.Machine.execVlds esz mk vd a b s
  | .vldsp esz mk vd a b => Sys2Proof.Machine.execVldsp esz mk vd a b s
  | .vldsps esz mk vd a b => Sys2Proof.Machine.execVldsps esz mk vd a b s
  | .vst esz mk vd a b => Sys2Proof.Machine.execVst esz mk vd a b s
  | .vsts esz mk vd a b => Sys2Proof.Machine.execVsts esz mk vd a b s
  | .vstsp esz mk vd a b => Sys2Proof.Machine.execVstsp esz mk vd a b s
  | .vstsps esz mk vd a b => Sys2Proof.Machine.execVstsps esz mk vd a b s
  | .vgath esz mk vd a vb => Sys2Proof.Machine.execVgath esz mk vd a vb s
  | .vscat esz mk vd a vb => Sys2Proof.Machine.execVscat esz mk vd a vb s
  | .vgathsp esz mk vd a vb => Sys2Proof.Machine.execVgathsp esz mk vd a vb s
  | .vscatsp esz mk vd a vb => Sys2Proof.Machine.execVscatsp esz mk vd a vb s
  | .vldc esz mk vd c b => Sys2Proof.Machine.execVldc esz mk vd c b s
  | .vstc esz mk vd c b => Sys2Proof.Machine.execVstc esz mk vd c b s
  | .vfma esz mk vd va vb => Sys2Proof.Machine.execVfma esz mk vd va vb s
  | .vfms esz mk vd va vb => Sys2Proof.Machine.execVfms esz mk vd va vb s
  | .vfnma esz mk vd va vb => Sys2Proof.Machine.execVfnma esz mk vd va vb s
  | .vfnms esz mk vd va vb => Sys2Proof.Machine.execVfnms esz mk vd va vb s
  | .vmac esz mk vd va vb => Sys2Proof.Machine.execVmac esz mk vd va vb s
  | .vexp2 esz mk vd va => Sys2Proof.Machine.execVexp2 esz mk vd va s
  | .vlog2 esz mk vd va => Sys2Proof.Machine.execVlog2 esz mk vd va s
  | .vrcp esz mk vd va => Sys2Proof.Machine.execVrcp esz mk vd va s
  | .vrsqrt esz mk vd va => Sys2Proof.Machine.execVrsqrt esz mk vd va s
  | .vsin esz mk vd va => Sys2Proof.Machine.execVsin esz mk vd va s
  | .vtanh esz mk vd va => Sys2Proof.Machine.execVtanh esz mk vd va s
  | .vsigm esz mk vd va => Sys2Proof.Machine.execVsigm esz mk vd va s
  | .vext esz mk d va b => Sys2Proof.Machine.execVext esz mk d va b s
  | .vins esz mk vd a b => Sys2Proof.Machine.execVins esz mk vd a b s
  | .vsplat esz mk vd va b => Sys2Proof.Machine.execVsplat esz mk vd va b s
  | .vmtos d ma => Sys2Proof.Machine.execVmtos d ma s
  | .vmtosh d ma => Sys2Proof.Machine.execVmtosh d ma s
  | .vstom md a b => Sys2Proof.Machine.execVstom md a b s
  | .mpop d ma => Sys2Proof.Machine.execMpop d ma s
  | .hmov hd ha => Sys2Proof.Machine.execHmov hd ha s
  | .hld hd x => Sys2Proof.Machine.execHld hd x s
  | .hst hd x => Sys2Proof.Machine.execHst hd x s
  | .hsetb hd x => Sys2Proof.Machine.execHsetb hd x s
  | .hsetd hd x => Sys2Proof.Machine.execHsetd hd x s
  | .hsets hd x => Sys2Proof.Machine.execHsets hd x s
  | .hsetf hd x => Sys2Proof.Machine.execHsetf hd x s
  | .hcur hd x => Sys2Proof.Machine.execHcur hd x s
  | .hnext hd => Sys2Proof.Machine.execHnext hd s
  | .hget ha f x => Sys2Proof.Machine.execHget ha f x s
  | .htaddr ha x => Sys2Proof.Machine.execHtaddr ha x s
  | .mxmul hd ha hb acc x => Sys2Proof.Machine.execMxmul hd ha hb acc x s
  | .mxgmul hd ha hb acc x => Sys2Proof.Machine.execMxgmul hd ha hb acc x s
  | .mxrank hd ha hb acc x => Sys2Proof.Machine.execMxrank hd ha hb acc x s
  | .mxload hd acc x => Sys2Proof.Machine.execMxload hd acc x s
  | .mxstore hd acc x => Sys2Proof.Machine.execMxstore hd acc x s
  | .mxzero acc x => Sys2Proof.Machine.execMxzero acc x s
  | .mxwait x => Sys2Proof.Machine.execMxwait x s
  | .mxpoll pd x => Sys2Proof.Machine.execMxpoll pd x s
  | .mxwgt x => Sys2Proof.Machine.execMxwgt x s
  | .cpy hd ha x => Sys2Proof.Machine.execCpy hd ha x s
  | .cpyg hd ha hb x => Sys2Proof.Machine.execCpyg hd ha hb x s
  | .cpyf hd x => Sys2Proof.Machine.execCpyf hd x s
  | .cpywFill c ha x => Sys2Proof.Machine.execCpywFill c ha x s
  | .cpywDrain hd c x => Sys2Proof.Machine.execCpywDrain hd c x s
  | .cpyp pd x => Sys2Proof.Machine.execCpyp pd x s
  | .rksort hd ha x => Sys2Proof.Machine.execRksort hd ha x s
  | .rktopk hd ha x => Sys2Proof.Machine.execRktopk hd ha x s
  | .rktab ha x => Sys2Proof.Machine.execRktab ha x s
  | .rkval hd ha x => Sys2Proof.Machine.execRkval hd ha x s
  | .rkwait x => Sys2Proof.Machine.execRkwait x s
  | .colred hd ha acc x => Sys2Proof.Machine.execColred hd ha acc x s
  | .colbc hd ha x => Sys2Proof.Machine.execColbc hd ha x s
  | .colwait x => Sys2Proof.Machine.execColwait x s
  | .fence kind scope => Sys2Proof.Machine.execFence kind scope s
  | .xfence scope paths => Sys2Proof.Machine.execXfence scope paths s
  | .ifence => Sys2Proof.Machine.execIfence s
  | .quant => Sys2Proof.Machine.execQuant s
  | .bar => Sys2Proof.Machine.execBar s
  | .bararv d => Sys2Proof.Machine.execBararv d s
  | .barwt a => Sys2Proof.Machine.execBarwt a s
  | .stag a => Sys2Proof.Machine.execStag a s
  | .domq d a => Sys2Proof.Machine.execDomq d a s
  | .sleep a => Sys2Proof.Machine.execSleep a s
  | .wake a => Sys2Proof.Machine.execWake a s
  | .cbwaitf c n => Sys2Proof.Machine.execCbwaitf c n s
  | .cbwaite c n => Sys2Proof.Machine.execCbwaite c n s
  | .cbpop c n => Sys2Proof.Machine.execCbpop c n s
  | .cbpush c n => Sys2Proof.Machine.execCbpush c n s
  | .vrtake slots => Sys2Proof.Machine.execVrtake slots s
  | .vrtaket pd a slots => Sys2Proof.Machine.execVrtaket pd a slots s
  | .vrgive slots => Sys2Proof.Machine.execVrgive slots s
  | .vrquery d => Sys2Proof.Machine.execVrquery d s
  | .txh hd slot => Sys2Proof.Machine.execTxh hd slot s
  | .txend => Sys2Proof.Machine.execTxend s
  | .txinfo d item => Sys2Proof.Machine.execTxinfo d item s
  | .txtouch a slot w => Sys2Proof.Machine.execTxtouch a slot w s
  | .txcheck pd a slot w => Sys2Proof.Machine.execTxcheck pd a slot w s
  | .srr d idx => Sys2Proof.Machine.execSrr d idx s
  | .srw idx a => Sys2Proof.Machine.execSrw idx a s
  | .rng d => Sys2Proof.Machine.execRng d s
  | .rngres d a => Sys2Proof.Machine.execRngres d a s
  | .cyc d => Sys2Proof.Machine.execCyc d s
  | .ecall svc => Sys2Proof.Machine.execEcall svc s
  | .bkpt tag => Sys2Proof.Machine.execBkpt tag s
  | .lrpatch d a word => Sys2Proof.Machine.execLrpatch d a word s
  | .lrarm d a => Sys2Proof.Machine.execLrarm d a s
  | .lrwait d a => Sys2Proof.Machine.execLrwait d a s
  | .lrstat d a => Sys2Proof.Machine.execLrstat d a s

end Sys2Proof.Machine
end

