-- ==== Sys2Proof/Machine/Step.lean ====
section
/-! DEFINITION. One step of the machine, and the state in which a given word is the next instruction. -/

namespace Sys2Proof.Machine

/-- Fetch, decode and execute the current thread's next instruction; a word that is no instruction takes ILLEGAL. -/
noncomputable def issue (s : State) : Host.Outcome State Fault Refusal :=
  match fetchHalves s with
  | .error e => takeFetchStop s e
  | .ok (s', hs) =>
    match decodeHalves hs with
    | .ok i => exec i s'
    | .error _ => takeIllegal s' hs

/-- A package still to boot, whose power is on (R461). -/
def State.boots (s : State) : Bool := s.notReady && !s.bootFailed && !s.pkg.tripped

/-- A step of a package in which nothing runs: the next event that still happens (R389, R460), or, after a reset, the boot (R461). -/
noncomputable def haltedStep (s : State) : Host.Outcome State Fault Refusal :=
  match s.urgent ++ s.agenda with
  | [] => if s.boots then finish (exec .packageReset s) else .next s
  | e :: r =>
    let s := { s with urgent := [], agenda := r }
    if s.stillHappens e then finish (exec e s) else .next s

/-- One step: an event of another agent, or the current thread's next instruction. -/
noncomputable def step (s : State) : Host.Outcome State Fault Refusal :=
  if s.halted then haltedStep s
  else if s.agentTurn then
    match s.takeEvent with
    | (some e, s') => finish (exec e s')
    | (none, s') => finish (.next s')
  else finish (issue s.takeTurn)

/-- The state with an instruction placed where the current thread fetches next, in a package that has booted: its two halfwords
stand in the core's instruction cache at PC, PC lies in a text section of the launch's code object, the thread is ready and no event
of another agent is due. A slot without a launch takes a launch and a code object that hold nothing else (log entry 11). -/
def State.withFetchWord (s : State) (nbits w : Nat) : State :=
  let v := BitVec.ofNat 32 (w % 2 ^ nbits)
  let t := s.me
  let pc : Word := t.pc - t.pc % 2
  let l : Launch := (s.launch? t.bind.lid).getD Launch.blank
  let img : Image := ((s.pkg.images.find? (fun i => i.asid == l.asid && i.digest == l.record.digest)).getD ⟨l.asid, l.record.digest, [], []⟩)
  let img : Image := { img with texts := (pc.toNat, 2) :: ((pc + 2).toNat, 2) :: img.texts }
  let s := { s with agenda := [], urgent := [] }
  let s := s.upPkg (fun p => { p with
    stopped := false, tripped := false, bootst := if s.notReady then 5 else p.bootst, images := img :: p.images })
  let s := s.setLaunch t.bind.lid l
  let s := s.setMe { t with pc := pc, status := .ready }
  s.upMyCore (fun c =>
    { c with icache := ⟨some t.bind.asid, pc.toNat, v.extractLsb' 0 16⟩ :: ⟨some t.bind.asid, (pc + 2).toNat, v.extractLsb' 16 16⟩ :: c.icache })

end Sys2Proof.Machine
end

