-- ==== Sys2Proof/Safety.lean ====
section
/-! DEFINITION. What counts as a safe run: no step of it stops, and the memory keeps its canonical form; and when a thread may
retire an instruction. -/

namespace Sys2Proof

/-- A step from a state does not stop the model. -/
def StepsOn (s : Machine.State) : Prop := ∃ t, Machine.step s = .next t

/-- A run of n steps from a state stays inside a property. -/
def RunsIn (P : Machine.State → Prop) : Nat → Machine.State → Prop
  | 0, s => P s
  | n + 1, s => P s ∧ ∃ t, Machine.step s = .next t ∧ RunsIn P n t

/-- The physical memory and every core's scratchpad are in canonical form. -/
def Machine.State.memoryOk (s : Machine.State) : Bool := s.mem.wf && s.cores.all (fun e => e.2.scratch.wf)

/-- A safe run: it does not stop, and every memory in it is in canonical form. -/
def SafeRun (n : Nat) (s : Machine.State) : Prop := RunsIn (fun s => s.memoryOk = true) n s

/-- No limit stops the thread's next instruction when it would retire: CLVCNT is below CLVMAX in a kernel thread (R382), and in
a transaction the instructions of the run are below TXMAX (R285). -/
def Machine.Thread.mayRetire (t : Machine.Thread) : Prop :=
  if t.bind.txn then ∀ b, t.txn = some b → b.retired < t.bind.txmax else t.clvcnt < t.bind.clvmax

end Sys2Proof
end

