-- ==== Sys2Proof/Certificates/Slice0/Obligations.lean ====
section
/-! DEFINITION. The statements for the provers. -/

/-! ## What the statements share -/

namespace Sys2Proof.Claims
open Sys2Proof.Machine

/-- The state after an instruction of the current thread, `len` bytes long, whose only effect is on the thread's own registers. -/
def after (len : Nat) (f : Thread → Thread) (s : State) : State := (s.upMe f).retire s.cur (s.me.pc + BitVec.ofNat 64 len)

/-- The outcome of an instruction of the current thread, 4 bytes long, whose effect leads from `s` to `w` and which then retires. -/
def completes (s w : State) : Host.Outcome State Fault Refusal := .next (w.retire s.cur (s.me.pc + 4))

/-- The outcome of an instruction of the current thread that uses a poisoned value (R392): its thread waits, its registers as they were,
and the consumption by its core is due at once. -/
def consumes (s : State) (r : Host.Outcome State Fault Refusal) : Prop :=
  ∃ u, r = .next u ∧ u.me = { s.me with status := .waiting .poison } ∧ u.urgent = s.urgent ++ [.ueConsumption (.used ⟨0, s.cur.die, s.cur.core⟩)]

/-- The outcome of an instruction of the current thread that waits: its registers are as they were, and so is memory. -/
def waits (s : State) (w : Wait) (r : Host.Outcome State Fault Refusal) : Prop :=
  ∃ u, r = .next u ∧ u.me = { s.me with status := .waiting w } ∧ u.mem = s.mem

/-- R106, R107: the result of each register-register instruction from the values of s[a] and s[b]. -/
def alu : List ((Guard → SReg → SReg → SReg → Instr) × (Word → Word → Word)) :=
  [(.add, fun a b => a + b), (.sub, fun a b => a - b), (.and, fun a b => a &&& b), (.or, fun a b => a ||| b),
   (.xor, fun a b => a ^^^ b), (.andn, fun a b => a &&& ~~~b),
   (.sll, fun a b => a <<< (b.toNat % 64)), (.srl, fun a b => a >>> (b.toNat % 64)),
   (.sra, fun a b => a.sshiftRight (b.toNat % 64)),
   (.min, fun a b => if a.toInt ≤ b.toInt then a else b), (.max, fun a b => if a.toInt ≤ b.toInt then b else a),
   (.minu, fun a b => if a.toNat ≤ b.toNat then a else b), (.maxu, fun a b => if a.toNat ≤ b.toNat then b else a),
   (.mul, fun a b => a * b),
   (.mulh, fun a b => BitVec.ofInt 64 (a.toInt * b.toInt / 2 ^ 64)),
   (.mulhu, fun a b => BitVec.ofNat 64 (a.toNat * b.toNat / 2 ^ 64)),
   (.div, fun a b => if b = 0 then BitVec.allOnes 64 else BitVec.ofInt 64 (a.toInt.tdiv b.toInt)),
   (.divu, fun a b => if b = 0 then BitVec.allOnes 64 else BitVec.ofNat 64 (a.toNat / b.toNat)),
   (.rem, fun a b => if b = 0 then a else BitVec.ofInt 64 (a.toInt - b.toInt * a.toInt.tdiv b.toInt)),
   (.remu, fun a b => if b = 0 then a else BitVec.ofNat 64 (a.toNat - b.toNat * (a.toNat / b.toNat)))]

/-- R108: BEXT and BINS as the rule computes them; pos, len and width from s[b]. -/
def fieldMask (b : Word) : Word := BitVec.ofNat 64 (2 ^ Nat.min (Nat.min (b.toNat / 256 % 128) 64) (64 - b.toNat % 64) - 1)

/-- R109: the condition of each compare. -/
def compares : List ((Guard → PReg → SReg → SReg → Instr) × (Word → Word → Bool)) :=
  [(.cmpeq, fun a b => decide (a = b)), (.cmpne, fun a b => decide (a ≠ b)),
   (.cmplt, fun a b => decide (a.toInt < b.toInt)), (.cmpge, fun a b => decide (b.toInt ≤ a.toInt)),
   (.cmpltu, fun a b => decide (a.toNat < b.toNat)), (.cmpgeu, fun a b => decide (b.toNat ≤ a.toNat))]

/-- R110: predicate logic. -/
def predicateOps : List ((Guard → PReg → PReg → PReg → Instr) × (Bool → Bool → Bool)) :=
  [(.pand, fun a b => a && b), (.por, fun a b => a || b), (.pxor, fun a b => a != b), (.pandn, fun a b => a && !b)]

/-- R111: the immediate forms of majors 0x08 to 0x0B and 0x0D. -/
def immediates : List ((SReg → SReg → BitVec 15 → Instr) × (Word → BitVec 15 → Word)) :=
  [(.addi, fun a i => a + i.signExtend 64), (.andi, fun a i => a &&& i.signExtend 64), (.ori, fun a i => a ||| i.signExtend 64),
   (.xori, fun a i => a ^^^ i.signExtend 64), (.ldhi, fun a i => (a <<< 15) ||| i.setWidth 64)]

/-- R111: the shifts by an immediate. -/
def immediateShifts : List ((SReg → SReg → BitVec 6 → Instr) × (Word → Nat → Word)) :=
  [(.slli, fun a n => a <<< n), (.srli, fun a n => a >>> n), (.srai, fun a n => a.sshiftRight n),
   (.rori, fun a n => (a >>> n) ||| (a <<< (64 - n)))]

/-- R111: CMPI under the conditions of R89. -/
def immediateCompares : List ((PReg → SReg → BitVec 12 → Instr) × (Word → Word → Bool)) :=
  [(.cmpiEq, fun a b => decide (a = b)), (.cmpiNe, fun a b => decide (a ≠ b)),
   (.cmpiLt, fun a b => decide (a.toInt < b.toInt)), (.cmpiGe, fun a b => decide (b.toInt ≤ a.toInt)),
   (.cmpiLtu, fun a b => decide (a.toNat < b.toNat)), (.cmpiGeu, fun a b => decide (b.toNat ≤ a.toNat))]

/-- The constant word k[n] of the current thread's core: the four bytes of scratch from 4n, little-endian (R20). -/
def constant (s : State) (n : Nat) : BitVec 32 :=
  s.myCore.scratch.read (4 * n + 3) ++ s.myCore.scratch.read (4 * n + 2) ++ s.myCore.scratch.read (4 * n + 1) ++
    s.myCore.scratch.read (4 * n)

/-- R113: the constant-window forms with two operands. -/
def constantOps : List ((SReg → SReg → BitVec 8 → Instr) × (Word → Word → Word)) :=
  [(.kadd, fun a k => a + k), (.ksub, fun a k => a - k), (.kmul, fun a k => a * k), (.kand, fun a k => a &&& k),
   (.kor, fun a k => a ||| k)]

end Sys2Proof.Claims

section
open Sys2Proof Sys2Proof.Machine

/-- R106, R107: with a true guard (R73) each instruction of majors 0x01 and 0x02 retires with s[d] holding its result; a write to s0
is discarded (R9). -/
def Sys2Proof.Claims.IntegerArithmetic : Prop :=
  ∀ row ∈ Claims.alu, ∀ (g : Guard) (d a b : SReg) (s : State), s.me.mayRetire → s.me.guard g = true →
    exec (row.1 g d a b) s = .next (Claims.after 4 (fun t => if d = 0 then t else { t with s := t.s.set d (row.2 (t.rs a) (t.rs b)) }) s)

/-- R108: bit operations; the destination's bits from those of the source. -/
def Obligations.BitOperations : Prop :=
  ∀ (g : Guard) (d a b : SReg) (s : State), s.me.mayRetire → s.me.guard g = true →
    let put := fun (v : Word) => Host.Outcome.next (φ := Fault) (ρ := Refusal) (Claims.after 4 (fun t => t.ws d v) s)
    let x := s.me.rs a
    let y := s.me.rs b
    (∃ v, exec (.brev g d a) s = put v ∧ ∀ i, i < 64 → v.getLsbD i = x.getLsbD (63 - i)) ∧
    (∃ v, exec (.bswap g d a) s = put v ∧
      ∀ i, i < 8 → v.extractLsb' (8 * i) 8 = x.extractLsb' (8 * (7 - i)) 8) ∧
    (∃ n, exec (.clz g d a) s = put (BitVec.ofNat 64 n) ∧ n ≤ 64 ∧
      (∀ i, i < n → x.getLsbD (63 - i) = false) ∧ (n < 64 → x.getLsbD (63 - n) = true)) ∧
    (∃ n, exec (.ctz g d a) s = put (BitVec.ofNat 64 n) ∧ n ≤ 64 ∧
      (∀ i, i < n → x.getLsbD i = false) ∧ (n < 64 → x.getLsbD n = true)) ∧
    exec (.popc g d a) s = put (BitVec.ofNat 64 ((List.range 64).countP (fun i => x.getLsbD i))) ∧
    exec (.sext8 g d a) s = put ((x.setWidth 8).signExtend 64) ∧
    exec (.sext16 g d a) s = put ((x.setWidth 16).signExtend 64) ∧
    exec (.sext32 g d a) s = put ((x.setWidth 32).signExtend 64) ∧
    exec (.bext g d a b) s = put ((x >>> (y.toNat % 64)) &&& Claims.fieldMask y) ∧
    exec (.bins g d a b) s = put ((s.me.rs d &&& ~~~(Claims.fieldMask y <<< (y.toNat % 64))) |||
      ((x &&& Claims.fieldMask y) <<< (y.toNat % 64)))

/-- R109, R110: compares and predicate logic write p[d]; a write to p0 is discarded (R9). -/
def Sys2Proof.Claims.ComparesAndPredicates : Prop :=
  ∀ (g : Guard) (d : PReg) (s : State), s.me.mayRetire → s.me.guard g = true →
    let put := fun (v : Bool) => Host.Outcome.next (φ := Fault) (ρ := Refusal)
      (Claims.after 4 (fun t => if d = 0 then t else { t with p := t.p.set d v }) s)
    (∀ row ∈ Claims.compares, ∀ a b : SReg, exec (row.1 g d a b) s = put (row.2 (s.me.rs a) (s.me.rs b))) ∧
    (∀ row ∈ Claims.predicateOps, ∀ a b : PReg, exec (row.1 g d a b) s = put (row.2 (s.me.rp a) (s.me.rp b))) ∧
    (∀ a : PReg, exec (.pnot g d a) s = put (!s.me.rp a))

/-- R111: the immediate forms. -/
def Sys2Proof.Claims.ImmediateForms : Prop :=
  ∀ (d a : SReg) (p : PReg) (s : State), s.me.mayRetire →
    (∀ row ∈ Claims.immediates, ∀ i : BitVec 15,
      exec (row.1 d a i) s = .next (Claims.after 4 (fun t => t.ws d (row.2 (t.rs a) i)) s)) ∧
    (∀ row ∈ Claims.immediateShifts, ∀ n : BitVec 6,
      exec (row.1 d a n) s = .next (Claims.after 4 (fun t => t.ws d (row.2 (t.rs a) n.toNat)) s)) ∧
    (∀ row ∈ Claims.immediateCompares, ∀ i : BitVec 12,
      exec (row.1 p a i) s = .next (Claims.after 4 (fun t => t.wp p (row.2 (t.rs a) (i.signExtend 64))) s))

/-- R113 with R20: the constant-window forms read the words of the core's constant window, of which none is poisoned. -/
def Sys2Proof.Claims.ConstantWindowForms : Prop :=
  ∀ (d a : SReg) (k : BitVec 8) (s : State), s.me.mayRetire → s.myCore.poisonedAt (4 * k.toNat) 8 = false →
    exec (.kld d k) s = .next (Claims.after 4 (fun t => t.ws d ((Claims.constant s k.toNat).setWidth 64)) s) ∧
    exec (.klds d k) s = .next (Claims.after 4 (fun t => t.ws d ((Claims.constant s k.toNat).signExtend 64)) s) ∧
    exec (.kldd d k) s =
      .next (Claims.after 4 (fun t => t.ws d (Claims.constant s (k.toNat + 1) ++ Claims.constant s k.toNat)) s) ∧
    (∀ row ∈ Claims.constantOps,
      exec (row.1 d a k) s = .next (Claims.after 4 (fun t => t.ws d (row.2 (t.rs a) ((Claims.constant s k.toNat).signExtend 64))) s))

/-- R9, R73, R106, R107, R109, R110: the register-register instructions of the scalar unit. -/
def Obligations.ScalarOperations : Prop := Claims.IntegerArithmetic ∧ Claims.ComparesAndPredicates

/-- R111, R113: the immediate forms and the forms with a word of the constant window. -/
def Obligations.ImmediateAndConstantForms : Prop := Claims.ImmediateForms ∧ Claims.ConstantWindowForms

end

namespace Sys2Proof.Claims
open Sys2Proof.Machine

/-- The guarded forms (R73): every instruction of the R format, with its operands. -/
def guardedForms (g : Guard) (d a b : SReg) (p q r : PReg) : List Instr :=
  alu.map (fun row => row.1 g d a b) ++ [.clz g d a, .ctz g d a, .popc g d a, .brev g d a, .bswap g d a, .bext g d a b, .bins g d a b,
    .sext8 g d a, .sext16 g d a, .sext32 g d a] ++ compares.map (fun row => row.1 g p a b) ++
  predicateOps.map (fun row => row.1 g p q r) ++ [.pnot g p q, .jr g a, .ret g, .yield g, .nop g]

/-- The state after a fault of the current thread with a cause that carries neither address nor information. -/
def trapped (c : Cause) (s : State) : State := s.freeze s.cur ⟨c, 0, 0, 0⟩

/-- An outcome is a fault of the current thread with a cause, whatever address its packet gives. -/
def faultsWith (c : Cause) (s : State) (r : Host.Outcome State Fault Refusal) : Prop :=
  ∃ va kind, r = .next (s.freeze s.cur ⟨c, va, 0, kind⟩)

end Sys2Proof.Claims

section
open Sys2Proof Sys2Proof.Machine

/-- R73: when the guard is false the instruction retires without effect; a NOP has none either way, and an instruction whose guard
is false raises no fault but the limits on retired instructions. -/
def Sys2Proof.Claims.FalseGuard : Prop :=
  ∀ (g : Guard) (d a b : SReg) (p q r : PReg) (s : State), s.me.mayRetire →
    (s.me.guard g = false → ∀ i ∈ Claims.guardedForms g d a b p q r, exec i s = .next (s.retire s.cur (s.me.pc + 4))) ∧
    exec (.nop g) s = .next (s.retire s.cur (s.me.pc + 4)) ∧
    (s.me.guard g = true → exec (.yield g) s = .next (Claims.after 4 (fun t => { t with held := true }) s))

/-- R9: s0, p0 and m0 read as constants, and writes to them change nothing; any other register reads what was written last, and a
write leaves the others alone. -/
def Obligations.RegisterFile : Prop :=
  ∀ (t : Thread) (v : Word) (x : Bool) (m : Mask),
    (t.rs 0 = 0 ∧ t.ws 0 v = t ∧ t.rp 0 = true ∧ t.wp 0 x = t ∧ t.rm 0 = BitVec.allOnes 128 ∧ t.wm 0 m = t) ∧
    (∀ a b : SReg, (t.ws a v).rs b = if b = a ∧ b ≠ 0 then v else t.rs b) ∧
    (∀ a b : PReg, (t.wp a x).rp b = if b = a ∧ b ≠ 0 then x else t.rp b) ∧
    (∀ a b : MReg, (t.wm a m).rm b = if b = a ∧ b ≠ 0 then m else t.rm b)

/-- R117 to R119, R69: where BR, CALL, JR and RET go from an even PC; CALL leaves PC + 4 in lr. -/
def Sys2Proof.Claims.Transfers : Prop :=
  ∀ (neg : Bool) (pred : PReg) (off : BitVec 21) (g : Guard) (a : SReg) (s : State),
    s.me.mayRetire → s.me.pc.getLsbD 0 = false →
    let target := s.me.pc + off.signExtend 64 * 2
    let taken := s.me.rp pred != neg
    exec (.br neg pred off) s = .next (s.retire s.cur (if taken then target else s.me.pc + 4)) ∧
    exec (.call neg pred off) s =
      .next (if taken then (s.setMe (s.me.ws 30 (s.me.pc + 4))).retire s.cur target else s.retire s.cur (s.me.pc + 4)) ∧
    (s.me.guard g = true → (s.me.rs a).getLsbD 0 = false → exec (.jr g a) s = .next (s.retire s.cur (s.me.rs a))) ∧
    (s.me.guard g = true → (s.me.rs 30).getLsbD 0 = false → exec (.ret g) s = .next (s.retire s.cur (s.me.rs 30)))

/-- R29, R119: a transfer to an odd target raises MISALIGNED_PC at the transferring instruction, and it does not occur. -/
def Sys2Proof.Claims.OddTargets : Prop :=
  ∀ (neg : Bool) (pred : PReg) (off : BitVec 21) (g : Guard) (a : SReg) (s : State),
    (s.me.pc.getLsbD 0 = true → (s.me.rp pred != neg) = true →
      Claims.faultsWith .MISALIGNED_PC s (exec (.br neg pred off) s) ∧
      Claims.faultsWith .MISALIGNED_PC s (exec (.call neg pred off) s)) ∧
    (s.me.guard g = true → (s.me.rs a).getLsbD 0 = true → Claims.faultsWith .MISALIGNED_PC s (exec (.jr g a) s)) ∧
    (s.me.guard g = true → (s.me.rs 30).getLsbD 0 = true → Claims.faultsWith .MISALIGNED_PC s (exec (.ret g) s))

/-- R121: LOOP counts s[a] down and transfers to the start of its body until the count is 0; with a = 0 it never transfers. -/
def Sys2Proof.Claims.HardwareLoop : Prop :=
  ∀ (a : SReg) (len : BitVec 15) (s : State), s.me.mayRetire → s.me.pc.getLsbD 0 = false →
    (s.me.rs a = 0 → exec (.loop a len) s = .next (s.retire s.cur (s.me.pc + 4))) ∧
    (s.me.rs a = 1 → exec (.loop a len) s = .next ((s.setMe (s.me.ws a 0)).retire s.cur (s.me.pc + 4))) ∧
    (s.me.rs a ≠ 0 → s.me.rs a ≠ 1 →
      exec (.loop a len) s = .next ((s.setMe (s.me.ws a (s.me.rs a - 1))).retire s.cur (s.me.pc - 2 * len.setWidth 64))) ∧
    (a = 0 → exec (.loop a len) s = .next (s.retire s.cur (s.me.pc + 4)))

/-- R122, R123, R229, R383, R384, R407: HALT stops the thread until its slice completes; CLEAVE #n clears CLVCNT, in a transaction
nothing more; in a kernel thread below D2 with nothing pending, or with a request to leave that is deferred, it does nothing else, and
with a capacity event pending PC goes to the launch's capacity target with lr holding the continuation. A request that is not deferred
takes effect: the thread drains, behind the CLEAVE, for a frame of KIND 1. At D2 the quantum ends, and the thread waits for its round. -/
def Sys2Proof.Claims.HaltAndCleaveEffects : Prop :=
  (∀ s : State, ∃ t, exec .halt s = .next t ∧ t.cur = s.cur ∧ t.me.status = .waiting .halt ∧ Instr.sliceComplete s.cur ∈ t.agenda ∧
    t.mem = s.mem) ∧
  (∀ (idx : BitVec 12) (e : Word × BitVec 32) (s : State), s.cleaveEntry s.me idx.toNat = some e →
    let t := (s.retire s.cur (s.me.pc + 4)).upMe (fun x => { x with clvcnt := 0 })
    (s.me.bind.txn = true → s.me.mayRetire → exec (.cleave idx) s = .next t) ∧
    (s.me.bind.txn = false → s.me.rebuild = none → s.me.d2 = false → s.canPreempt s.cur e.1 = false →
      (s.capPending s.me = false → exec (.cleave idx) s = .next t) ∧
      (s.capPending s.me = true → ∃ u, exec (.cleave idx) s = .next u ∧ u.me.pc = s.me.bind.captgt ∧ u.me.rs 30 = s.me.pc + 4 ∧
        u.me.clvcnt = 0 ∧ s.capPending u.me = false)) ∧
    (s.me.bind.txn = false → s.me.rebuild = none → s.me.d2 = false → s.canPreempt s.cur e.1 = true →
      ∃ u w g, exec (.cleave idx) s = .next u ∧ u.mem = s.mem ∧ Instr.contextFrameWrite s.cur ∈ u.agenda ∧
        u.me = { s.me.retire (s.me.pc + 4) with
          clvcnt := 0
          preempt := false
          status := .waiting (.drain 1 idx.toNat e.1 w g) }) ∧
    (s.me.rebuild = none → s.me.d2 = true → s.canPreempt s.cur e.1 = false → s.capPending s.me = false →
      ∃ u grp, exec (.cleave idx) s = .next u ∧ u.mem = s.mem ∧ Instr.d2RoundCommit s.me.bind.lid grp ∈ u.agenda ∧
        u.me = { s.me.retire (s.me.pc + 4) with
          clvcnt := 0
          quanta := s.me.quanta + 1
          qretired := 0
          status := .waiting .round }))

/-- R388, R385, R407: the closing CLEAVE of a rebuild stub clears CLVCNT and leads to CONT, whatever request is pending; there a pending
JOBERR is raised, and any capacity event stays pending; without one a capacity event is taken, with lr holding CONT. -/
def Sys2Proof.Claims.ClosingCleave : Prop :=
  ∀ (idx : BitVec 12) (e : Word × BitVec 32) (r : Rebuild) (s : State), s.cleaveEntry s.me idx.toNat = some e → s.me.bind.txn = false →
    s.me.d2 = false → s.me.rebuild = some r → r.cidx = idx.toNat →
    ∃ u, exec (.cleave idx) s = .next u ∧ u.me.rebuild = none ∧ u.me.clvcnt = 0 ∧ u.me.preempt = s.me.preempt ∧ u.mem = s.mem ∧
      (s.me.joberr = 0 → s.capPending s.me = false → u.me.pc = r.cont ∧ u.me.status = .ready ∧ u.me.s = s.me.s) ∧
      (s.me.joberr = 0 → s.capPending s.me = true → u.me.pc = s.me.bind.captgt ∧ u.me.rs 30 = r.cont ∧ u.me.status = .ready ∧
        s.capPending u.me = false) ∧
      (s.me.joberr ≠ 0 → u.me.pc = r.cont ∧ u.me.evm = s.me.evm ∧ u.me.joberr = 0 ∧ u.me.s = s.me.s ∧
        u.me.status = .frozen ⟨s.me.jobCause, 0, (s.me.joberr.extractLsb' 8 16).setWidth 64, 0⟩)

/-- R381, R388: CLEAVE without an entry raises CLEAVE_INDEX, and inside a rebuild stub of another index CLEAVE_STUB. -/
def Sys2Proof.Claims.CleaveFaults : Prop :=
  ∀ (idx : BitVec 12) (s : State),
    (s.cleaveEntry s.me idx.toNat = none → exec (.cleave idx) s = .next (Claims.trapped .CLEAVE_INDEX s)) ∧
    (∀ e r, s.cleaveEntry s.me idx.toNat = some e → s.me.bind.txn = false → s.me.rebuild = some r → r.cidx ≠ idx.toNat →
      exec (.cleave idx) s = .next (Claims.trapped .CLEAVE_STUB s))

/-- R382, R285: at the limit an instruction does not retire; it raises CLEAVE_DISTANCE in a kernel thread and TX_LONG in a
transaction, and leaves the state as a fault does: every guarded form with a false guard, and with a true one when its target, if it
transfers, is even; the forms without a guard alike; and a vector instruction that passes its slot and queue checks. -/
def Sys2Proof.Claims.RetirementLimits : Prop :=
  ∀ (g : Guard) (d a b : SReg) (p q r : PReg) (s : State),
    let limited := fun (i : Instr) =>
      (s.me.bind.txn = false → s.me.clvcnt = s.me.bind.clvmax → exec i s = .next (Claims.trapped .CLEAVE_DISTANCE s)) ∧
      (∀ x, s.me.bind.txn = true → s.me.txn = some x → x.retired = s.me.bind.txmax → exec i s = .next (Claims.trapped .TX_LONG s))
    (s.me.guard g = false ∨ (s.me.rs a).getLsbD 0 = false ∧ (s.me.rs 30).getLsbD 0 = false →
      ∀ i ∈ Claims.guardedForms g d a b p q r, limited i) ∧
    (∀ row ∈ Claims.immediates, ∀ n, limited (row.1 d a n)) ∧ (∀ row ∈ Claims.immediateShifts, ∀ n, limited (row.1 d a n)) ∧
    (∀ row ∈ Claims.immediateCompares, ∀ n, limited (row.1 p a n)) ∧ limited (.rng d) ∧
    (s.me.pc.getLsbD 0 = false → ∀ neg off, limited (.br neg p off) ∧ limited (.call neg p off)) ∧
    (∀ esz mk vd va vb, vCheck s.me [va, vb] [vd] = .ok () →
      ∀ i ∈ [Instr.vadd esz mk vd va vb, .vmullo esz mk vd va vb, .vshl esz mk vd va vb, .vfadd esz mk vd va vb, .vfdiv esz mk vd va vb,
        .vperm esz mk vd va vb], limited i)

/-- R123, R229: what retiring does: PC moves and CLVCNT rises by 1; a thread below D2 is ready again. Every register of the thread,
every other thread, and everything outside the threads stays as it was. -/
def Obligations.Retirement : Prop :=
  ∀ (s : State) (t : Tid) (pc : Word),
    let u := s.retire t pc
    (u.thread t).pc = pc ∧ (u.thread t).clvcnt = (s.thread t).clvcnt + 1 ∧
    ((s.thread t).d2 = false → (u.thread t).status = .ready) ∧
    ((∀ r, (u.thread t).rs r = (s.thread t).rs r) ∧ (∀ r, (u.thread t).rp r = (s.thread t).rp r) ∧
      (∀ r, (u.thread t).rm r = (s.thread t).rm r) ∧ (u.thread t).slots = (s.thread t).slots ∧ (u.thread t).ldq = (s.thread t).ldq ∧
      (u.thread t).sdq = (s.thread t).sdq ∧ (u.thread t).h = (s.thread t).h ∧ (u.thread t).c = (s.thread t).c ∧
      (u.thread t).fpm = (s.thread t).fpm ∧ (u.thread t).fpf = (s.thread t).fpf) ∧
    (∀ v : Tid, v.key ≠ t.key → u.thread v = s.thread v) ∧
    u.mem = s.mem ∧ u.cores = s.cores ∧ u.clusters = s.clusters ∧ u.dies = s.dies ∧ u.pkg = s.pkg ∧ u.cur = s.cur

/-- R129, R130: ECALL retires and stops its thread with SERVICE and the service number; BKPT stops it at the BKPT with BREAK and the
tag. -/
def Sys2Proof.Claims.ServiceAndBreak : Prop :=
  (∀ (svc : BitVec 12) (s : State), s.me.mayRetire →
    exec (.ecall svc) s = .next ((s.retire s.cur (s.me.pc + 4)).freeze s.cur ⟨.SERVICE, 0, svc.setWidth 64, 0⟩)) ∧
  (∀ (tag : BitVec 12) (s : State), exec (.bkpt tag) s = .next (s.freeze s.cur ⟨.BREAK, 0, tag.setWidth 64, 0⟩))

/-- R369, R373, R374: TAKING A FAULT. The thread is frozen with its PC and registers as they are; its packet, with cause, level, PC,
address and information, stands last among those of its die and its delivery is due; nothing else changes. -/
def Sys2Proof.Claims.FaultEntry : Prop :=
  ∀ (s : State) (t : Tid) (f : Freeze),
    let u := s.freeze t f
    u.thread t = { s.thread t with status := .frozen f } ∧
    (u.die t.die).held = (s.die t.die).held ++ [(s.thread t).packet t f] ∧
    u.agenda = s.agenda ++ [.faultPacketWrite t.die] ∧
    (∀ v : Tid, v.key ≠ t.key → u.thread v = s.thread v) ∧ (∀ d, d ≠ t.die → u.die d = s.die d) ∧
    u.mem = s.mem ∧ u.cores = s.cores ∧ u.clusters = s.clusters ∧ u.pkg = s.pkg ∧ u.cur = s.cur

/-- R379: RETURN FROM A FAULT. A frozen thread restarts at its PC with its registers as they stand; with CLR, CLVCNT becomes 0. A
thread frozen by TX_UNSTABLE, and one that is not frozen, are not resumed. -/
def Sys2Proof.Claims.FaultReturn : Prop :=
  ∀ (s : State) (t : Tid) (clr : Bool),
    (∀ f, (s.thread t).status = .frozen f → f.cause ≠ .TX_UNSTABLE → f.cause ≠ .TX_LONG → (s.thread t).d2 = false →
      s.resume t clr = s.setThread t { s.thread t with
        status := .ready
        clvcnt := if clr then 0 else (s.thread t).clvcnt }) ∧
    (∀ f, (s.thread t).status = .frozen f → f.cause = .TX_UNSTABLE → s.resume t clr = s) ∧
    (∀ f, (s.thread t).status = .resuming f → f.cause ≠ .TX_UNSTABLE → f.cause ≠ .TX_LONG → (s.thread t).d2 = false →
      s.resume t clr = s.setThread t { s.thread t with
        status := .ready
        clvcnt := if clr then 0 else (s.thread t).clvcnt }) ∧
    ((∀ f, (s.thread t).status ≠ .frozen f ∧ (s.thread t).status ≠ .resuming f) → s.resume t clr = s)

/-- R117 to R119, R121: branches, calls, returns and the hardware loop, and where a transfer does not occur. -/
def Obligations.ControlTransfers : Prop := Claims.Transfers ∧ Claims.OddTargets ∧ Claims.HardwareLoop

/-- R122, R123, R229, R381, R383 to R385, R388, R407: HALT and CLEAVE. -/
def Obligations.HaltAndCleave : Prop := Claims.HaltAndCleaveEffects ∧ Claims.ClosingCleave ∧ Claims.CleaveFaults

/-- R73, R285, R382: a false guard, and the limits on retired instructions. -/
def Obligations.GuardsAndLimits : Prop := Claims.FalseGuard ∧ Claims.RetirementLimits

/-- R129, R130, R369, R373, R374, R379: taking a fault, the instructions that take one by design, and the return from one. -/
def Obligations.FaultEntryAndReturn : Prop := Claims.FaultEntry ∧ Claims.ServiceAndBreak ∧ Claims.FaultReturn

end

namespace Sys2Proof.Claims
open Sys2Proof.Machine

/-- The special registers of a thread, and of its launch, at user indices (R23, R124, R325), by index. -/
def threadRegisters : List (Nat × (Thread → Word)) :=
  [(0x001, fun t => t.fpm.setWidth 64), (0x002, fun t => t.fpf.setWidth 64), (0x008, fun t => BitVec.ofNat 64 t.clvcnt),
   (0x009, fun t => BitVec.ofNat 64 t.bind.clvmax), (0x00A, fun t => t.bind.asid.setWidth 64), (0x00C, fun t => t.bind.seed),
   (0x021, fun t => t.bind.lidReg), (0x02A, fun t => t.mxerr), (0x02C, fun t => t.rkcfg), (0x02D, fun t => t.rkerr),
   (0x02E, fun t => t.bterr), (0x02F, fun t => t.colerr)]

/-- The instructions that a user thread may not run (R25, R104): SRR and SRW of an index from 0x400 to 0x7FF, STAG, MXWGT, and the
supervisor's commands. -/
noncomputable def privileged (idx : BitVec 12) (d a : SReg) (n : Fin 16) : List Instr :=
  [.srr d idx, .srw idx a, .stag a, .mxwgt a, .rngclr a, .pginv a, .feop a, .accdrop a, .accspillWrite a, .ffrgnWrite a, .txstgWrite a,
   .crectWrite n a, .frptrWrite a, .frptrRead d, .tarcmdRegister a, .tarcmdDeregister a]

/-- What the special registers of the machine hold that a thread reads at user indices (R23, R124, R185, R200, R406). -/
def machineRegisters : List (Nat × (State → Word)) :=
  [(0x004, fun s => s.pkg.units), (0x022, fun s => s.me.bind.rsig.extractLsb' 0 64), (0x023, fun s => s.me.bind.rsig.extractLsb' 64 64),
   (0x024, fun s => s.myDie.bstep.setWidth 64), (0x025, fun s => s.myCore.l1q.setWidth 64)]

/-- What the supervisor's special registers hold (R126, R201, R245, R252, R264, R268, R274, R372, R393 to R398, R411, R441). -/
def supervisorRegisters : List (Nat × (State → Word)) :=
  [(0x411, fun s => BitVec.ofNat 64 s.pkg.rng.length), (0x420, fun s => s.pkg.ageq.setWidth 64),
   (0x430, fun s => 0#57 ++ s.myCore.l1next ++ 0#1 ++ s.myCore.l1q), (0x432, fun s => s.myDie.accspill), (0x434, fun s => s.pkg.astb),
   (0x436, fun s => s.myDie.ffrgn), (0x438, fun s => s.me.tarst.setWidth 64),
   (0x439, fun s => if s.myDie.txstg = 0 then 1 else s.myDie.txstg.setWidth 64), (0x440, fun s => s.myDie.supv),
   (0x441, fun s => s.myDie.fring), (0x443, fun s => s.pkg.ustb), (0x444, fun s => s.pkg.assaycfg), (0x445, fun s => s.myDie.patrol),
   (0x446, fun s => s.pkg.fslog), (0x470, fun s => s.pkg.podcfg), (0x471, fun s => s.pkg.arotb)]

/-- R125: one round of the random function, for i = 0 to 3. -/
def randomRound (x : Word) (i : Nat) : Word :=
  let x := x + BitVec.ofNat 64 (i + 1) * 0x9D2C56811F3B4A67
  let x := (x ^^^ (x >>> 32)) * 0x8F1CD27A3B956E43
  let x := (x ^^^ (x >>> 29)) * 0xB3E50A8D71C429F7
  x ^^^ (x >>> 32)

/-- R125: the word of a seed and a counter. -/
def randomWord (seed counter : Word) : Word :=
  randomRound (randomRound (randomRound (randomRound ((counter * 0xE7A35C19B46D2F0B) ^^^ seed) 0) 1) 2) 3

/-- The state after a command of the current thread that changes the machine by `f`. -/
def commanded (f : State → State) (s : State) : State := (f s).retire s.cur (s.me.pc + 4)

end Sys2Proof.Claims

section
open Sys2Proof Sys2Proof.Machine

/-- R124, R23: SRR puts a special register's value into s[d], at supervisor level at any index, at user level below 0x400. The
registers of the thread, its launch and the machine, CBn and CBFn, THID, DOMM, CAPW and CAPQ, and the supervisor's registers
read as follows; MXERR, RKERR, BTERR and COLERR as their observations left them. -/
def Sys2Proof.Claims.SpecialRegisterReads : Prop :=
  ∀ (d : SReg) (s : State), s.me.mayRetire →
    (∀ row ∈ Claims.threadRegisters,
      exec (.srr d (BitVec.ofNat 12 row.1)) s = .next (Claims.after 4 (fun t => t.ws d (row.2 t)) s)) ∧
    (∀ n : CReg,
      exec (.srr d (BitVec.ofNat 12 (0x010 + n.val))) s =
        .next (Claims.after 4 (fun t => t.ws d (0#4 ++ (t.rc n).tail ++ (t.rc n).head ++ (t.rc n).count ++ (t.rc n).slotsz ++ 0#1 ++
          (t.rc n).base)) s) ∧
      exec (.srr d (BitVec.ofNat 12 (0x018 + n.val))) s = .next (Claims.after 4 (fun t => t.ws d ((t.rc n).fill.setWidth 64)) s)) ∧
    (∀ row ∈ Claims.machineRegisters,
      exec (.srr d (BitVec.ofNat 12 row.1)) s = .next (Claims.after 4 (fun t => t.ws d (row.2 s)) s)) ∧
    (let reads := fun (i : BitVec 12) (f : Word → Prop) => ∃ v, exec (.srr d i) s = .next (Claims.after 4 (fun t => t.ws d v) s) ∧ f v
     reads 0x000 (fun v => s.cur.tnum < 8 → v.toNat = s.cur.tnum + 8 * (s.cur.core % 4 + 4 * (s.cur.core / 16 % 2)) +
       (if s.me.bind.sup then 64 else 0) + (if s.me.bind.txn then 128 else 0)) ∧
     reads 0x020 (fun v => s.me.bind.level < 8 → s.me.bind.det < 4 → s.me.bind.gsize < 2 ^ 32 →
       v.toNat % 8 = s.me.bind.level ∧ v.toNat / 8 % 4 = s.me.bind.det ∧ v.getLsbD 5 = s.me.bind.paired ∧
       v.getLsbD 6 = s.me.bind.restart ∧ v.toNat / 2 ^ 32 = s.me.bind.gsize) ∧
     (∀ l, s.launch? s.me.bind.lid = some l →
       reads 0x030 (fun v => v.extractLsb' 0 16 = l.capSeq ∧ v.extractLsb' 16 16 = l.capAck ∧
         (s.coresInService < 2 ^ 12 → v.extractLsb' 32 12 = BitVec.ofNat 12 s.coresInService ∧ v.getLsbD 48 = l.capOvf)) ∧
       reads 0x031 (fun v => v = l.capQ.headD 0))) ∧
    (s.me.bind.sup = true →
      (∀ row ∈ Claims.supervisorRegisters,
        exec (.srr d (BitVec.ofNat 12 row.1)) s = .next (Claims.after 4 (fun t => t.ws d (row.2 s)) s)) ∧
      (∀ n : Fin 16, exec (.srr d (BitVec.ofNat 12 (0x450 + n.val))) s = .next (Claims.after 4 (fun t => t.ws d s.myDie.crect[n]) s)) ∧
      (∀ n : Fin 9,
        exec (.srr d (BitVec.ofNat 12 (0x460 + n.val))) s = .next (Claims.after 4 (fun t => t.ws d (s.myDie.vclk[n].setWidth 64)) s)) ∧
      (∃ v, exec (.srr d 0x43A) s = .next (Claims.after 4 (fun t => t.ws d v) s) ∧
        ∀ n : Fin 8, v.extractLsb' (4 * n.val) 4 = (s.cluster s.cur.clusterKey).wgt[n]) ∧
      ∃ w, exec (.frptrRead d) s = Claims.completes s w ∧ w.me = s.me.ws d (s.myDie.cons ++ s.myDie.prod) ∧ w.mem = s.mem ∧
        ∀ l ∈ (w.core s.cur.coreKey).l1, l.valid = 0)

/-- R23, R124, R201, R252, R307, R325, R372, R393: SRW writes the writable fields of its register and nothing else; reserved bits are
ignored, and RKCFG, SPLIT, ASTB, PATROL and MXWGT store a field outside its range as their rules say. -/
def Sys2Proof.Claims.SpecialRegisterWrites : Prop :=
  ∀ (a : SReg) (s : State), s.me.mayRetire →
    let v := s.me.rs a
    exec (.srw 0x001 a) s = .next (Claims.after 4 (fun t => { t with fpm := v.setWidth 6 }) s) ∧
    exec (.srw 0x002 a) s = .next (Claims.after 4 (fun t => { t with fpf := v.setWidth 5 }) s) ∧
    (∃ r : Word, exec (.srw 0x02C a) s = .next (Claims.after 4 (fun t => { t with rkcfg := r }) s) ∧
      r.toNat % 2 ^ 17 = min (v.toNat % 2 ^ 17) 65536 ∧ r.getLsbD 17 = v.getLsbD 17 ∧ r.extractLsb' 18 14 = 0 ∧ r >>> 32 = v >>> 32) ∧
    (∀ n : CReg, s.cbFilling s.cur n = false → s.cbDraining s.cur n = false →
      exec (.cbRegisterWrite true n a) s = .next (Claims.after 4 (fun t => t.wc n { t.rc n with fill := v.setWidth 8 }) s) ∧
      exec (.cbRegisterWrite false n a) s = .next (Claims.after 4 (fun t => t.wc n
        { base := v.setWidth 19, slotsz := (v >>> 20).setWidth 16, count := (v >>> 36).setWidth 8, head := (v >>> 44).setWidth 8,
          tail := (v >>> 52).setWidth 8, fill := (t.rc n).fill }) s)) ∧
    (s.me.bind.sup = true →
      exec (.srw 0x420 a) s = .next (Claims.commanded (fun s => s.upPkg (fun p => { p with ageq := v.setWidth 16 })) s) ∧
      exec (.srw 0x430 a) s = .next (Claims.commanded (fun s => s.upMyCore (fun c => { c with
        l1next := if (v >>> 4).setWidth 3 < 5#3 then (v >>> 4).setWidth 3 else 4 })) s) ∧
      exec (.srw 0x434 a) s = .next (Claims.commanded (fun s => s.upPkg (fun p => { p with
        astb := (v &&& 0x000FFFFFFFFF0000) ||| if v.toNat % 32 ≤ 16 then v &&& 31 else 16 })) s) ∧
      exec (.srw 0x441 a) s = .next (Claims.commanded (fun s => s.upDie s.cur.die (fun d => { d with
        fring := v &&& 0x000FFFFFFFFFF00F })) s) ∧
      exec (.srw 0x444 a) s = .next (Claims.commanded (fun s => s.upPkg (fun p => { p with assaycfg := v &&& 0x1FFFFF })) s) ∧
      exec (.srw 0x445 a) s = .next (Claims.commanded (fun s => s.upDie s.cur.die (fun d => { d with
        patrol := (v &&& 0x100) ||| if v &&& 255 = 0 then 1 else v &&& 255 })) s) ∧
      exec (.srw 0x471 a) s = .next (Claims.commanded (fun s => s.upPkg (fun p => { p with arotb := v &&& 0x000FFFFFFFFF1FFF })) s) ∧
      (∃ u, exec (.srw 0x43A a) s = .next u ∧ u.me.s = s.me.s ∧ u.me.pc = s.me.pc + 4 ∧ u.mem = s.mem ∧
        ∀ n : Fin 8, (u.cluster s.cur.clusterKey).wgt[n] =
          if v.extractLsb' (4 * n.val) 4 = 0 then 1 else v.extractLsb' (4 * n.val) 4) ∧
      (∀ n : Fin 16, ∃ r : Word, r.toNat < 2 ^ 11 ∧ (r &&& 0x3FF = v &&& 0x3FF) ∧ (r.getLsbD 10 = true → v.getLsbD 10 = true) ∧
        exec (.crectWrite n a) s =
          .next (Claims.commanded (fun s => s.upDie s.cur.die (fun d => { d with crect := d.crect.set n r })) s)))

/-- R23, R25, R104: at user level every privileged instruction raises PRIV and has no other effect. -/
def Obligations.Privilege : Prop :=
  ∀ (idx : BitVec 12) (d a : SReg) (n : Fin 16) (s : State), s.me.bind.sup = false → 0x400 ≤ idx.toNat → idx.toNat < 0x800 →
    ∀ i ∈ Claims.privileged idx d a n, exec i s = .next (Claims.trapped .PRIV s)

/-- R127, R246, R212, R406, R303: what the commands given by SRW do: RNGCLR removes reservations, ACCDROP accumulators, FEOP sets or
clears a run of full-empty bits inside the scratchpad, CAPACK acknowledges notifications, and MXFREE frees the named banks of the
thread once its jobs have left them. -/
def Obligations.Commands : Prop :=
  ∀ (a : SReg) (s : State), s.me.mayRetire →
    let v := s.me.rs a
    (s.me.bind.sup = true →
      exec (.rngclr a) s = .next (Claims.commanded (fun s => s.upPkg (fun p => { p with
        rng := p.rng.filter (fun e => !v.getLsbD 16 && e.asid != v.setWidth 16) })) s) ∧
      exec (.accdrop a) s = .next (Claims.commanded (fun s => s.upPkg (fun p => { p with
        accs := p.accs.filter (fun e => !v.getLsbD 16 && e.asid != some (v.setWidth 16)) })) s) ∧
      ∃ w, exec (.feop a) s = Claims.completes s w ∧ w.mem = s.mem ∧ w.me = s.me ∧ (w.core s.cur.coreKey).scratch = s.myCore.scratch ∧
        ∀ g : Nat, (w.core s.cur.coreKey).full g =
          if v.toNat % 2 ^ 15 ≤ g ∧ g ≤ v.toNat % 2 ^ 15 + v.toNat / 2 ^ 16 % 2 ^ 15 ∧ 16 * g < s.myCore.scratchSize then v.getLsbD 15
          else s.myCore.full g) ∧
    (∀ l, s.launch? s.me.bind.lid = some l →
      ∃ w m, exec (.capack a) s = Claims.completes s w ∧ w.launch? s.me.bind.lid = some m ∧ w.mem = s.mem ∧ w.threads = s.threads ∧
        m.capSeq = l.capSeq ∧
        m.capAck = if (v.setWidth 16 - l.capAck).toNat ≤ (l.capSeq - l.capAck).toNat then v.setWidth 16 else l.capAck) ∧
    ((∀ e ∈ s.ownedBanks s.cur, v.getLsbD e.2.1 = true → s.bankBusy s.cur e.1 e.2.1 = false) →
      ∃ w, exec (.mxfree a) s = Claims.completes s w ∧ w.mem = s.mem ∧ w.threads = s.threads ∧
        ∀ cl b, b < 8 → (∃ st, (cl, b, st) ∈ s.ownedBanks s.cur) → v.getLsbD b = true → w.bank cl b = BankState.cleared)

/-- R245, R264, R274, R374, R259, R260, R268: the supervisor's commands, each retiring with its effect and nothing else. ACCSPILL
and FFRGN change while nothing of the region is in use, TXSTG while no transaction launch stands on it; a CONS beyond PROD is stored
as PROD, and a held packet then becomes due; PGINV drops the translations of the pages named, with PURGE unless one of them is
pinned, and then it raises TA_PINNED; a registration that is accepted takes the lowest free index, and TARCMD leaves its result in
TARST. That CONS and PROD are compared as 32-bit counters that wrap, from the old CONS on, is the model's reading (log entry 34). -/
def Obligations.SupervisorCommands : Prop :=
  ∀ (a : SReg) (s : State), s.me.mayRetire → s.me.bind.sup = true →
    let v := s.me.rs a
    let d := s.cur.die
    let arg := v.toNat % 2 ^ 55
    (s.spilledOn d = 0 →
      exec (.accspillWrite a) s = .next (Claims.commanded (fun s => s.upDie d (fun x => { x with accspill := v &&& 0xFFFFFFFFFFFFF })) s)) ∧
    (s.myDie.frames = [] →
      exec (.ffrgnWrite a) s = .next (Claims.commanded (fun s => s.upDie d (fun x => { x with ffrgn := v &&& 0xFFFFFFFFFFFFF })) s)) ∧
    (s.stagingLive d = false →
      exec (.txstgWrite a) s =
        .next (Claims.commanded (fun s => s.upDie d (fun x => { x with txstg := BitVec.ofNat 7 (Nat.min (v.toNat % 128) 64) })) s)) ∧
    (∃ w, exec (.frptrWrite a) s = Claims.completes s w ∧ w.mem = s.mem ∧ w.threads = s.threads ∧ (w.die d).prod = s.myDie.prod ∧
      w.agenda = s.agenda ++ (if s.myDie.held = [] then [] else [.faultPacketWrite d]) ∧
      (w.die d).cons = let c : BitVec 32 := (v >>> 32).setWidth 32
        if (c - s.myDie.cons).toNat ≤ (s.myDie.prod - s.myDie.cons).toNat then c else s.myDie.prod) ∧
    ((v.getLsbD 18 = true → s.pinnedBy (v.getLsbD 16) (v.setWidth 16) (pginvPages v) = false) →
      ∃ w, exec (.pginv a) s = Claims.completes s w ∧ w.me.s = s.me.s ∧ w.me.pc = s.me.pc ∧ (v.getLsbD 18 = false → w.mem = s.mem) ∧
      (v.getLsbD 16 = false → v.getLsbD 17 = true →
        (∀ e ∈ w.pkg.tlb, e.asid ≠ some (v.setWidth 16)) ∧ (∀ e ∈ w.pkg.l2, e.asid ≠ some (v.setWidth 16)) ∧
        (v.getLsbD 18 = true → ∀ l ∈ (w.core s.cur.coreKey).l1, l.asid ≠ some (v.setWidth 16))) ∧
      (v.getLsbD 16 = false → v.getLsbD 17 = true → ∀ k ∈ s.presentDies, ∀ e ∈ (w.die k).replicas, e.asid ≠ some (v.setWidth 16)) ∧
      (∀ e ∈ w.pkg.tlb, e ∈ s.pkg.tlb) ∧ (∀ e ∈ w.pkg.l2, e ∈ s.pkg.l2)) ∧
    (v.getLsbD 18 = true → s.pinnedBy (v.getLsbD 16) (v.setWidth 16) (pginvPages v) = true →
      exec (.pginv a) s = .next (Claims.trapped .TA_PINNED s)) ∧
    (v.toNat % 32 ≠ 0 → exec (.tarcmdRegister a) s =
      .next (Claims.after 4 (fun t => { t with tarst := BitVec.ofNat 14 (t.tarst.toNat / 16 * 16 + 1) }) s)) ∧
    (∀ s' s'' x y ix, readDescriptor s arg = .ok (s', some x) → (x.pod = true → s'.pkg.units.getLsbD 17 = true) →
      (∀ e ∈ s'.pkg.arrays, e.2.overlaps x = false) → s'.pinAll x x.pages = some (s'', y) → s'.freeArray y.pod = some ix →
      ∃ w, exec (.tarcmdRegister a) s = Claims.completes s w ∧ Assoc.find ix w.pkg.arrays = some y ∧ w.me.tarst.toNat = 16 * ix ∧
        ∀ k, k ≠ ix → Assoc.find k w.pkg.arrays = Assoc.find k s.pkg.arrays) ∧
    (∀ x, arg < 1024 → Assoc.find arg s.pkg.arrays = some x → s.arrayBusy arg = false →
      (x.pod = true → Config.podArrayBusy s.fresh arg = false) →
      ∃ w, exec (.tarcmdDeregister a) s = Claims.completes s w ∧ w.me.tarst.toNat % 16 = 0 ∧ Assoc.find arg w.pkg.arrays = none ∧
        ∀ k, k ≠ arg → Assoc.find k w.pkg.arrays = Assoc.find k s.pkg.arrays)

/-- R125, R126, R128: RNG draws the word of the launch's seed and the counter in s[d]; RNGRES reserves a range of counters unless it
leaves the counter space, meets a reservation of the same address space and seed, or finds the table full. What CYC reads is open
(the model's log entry 7): it is the core's new count, one for every read. -/
def Obligations.RandomAndCycles : Prop :=
  ∀ (d a : SReg) (s : State), s.me.mayRetire →
    let base := (s.me.rs d).toNat
    let n := (s.me.rs a).toNat
    exec (.rng d) s = .next (Claims.after 4 (fun t => t.ws d (Claims.randomWord t.bind.seed (t.rs d))) s) ∧
    (n = 0 → exec (.rngres d a) s = .next (s.retire s.cur (s.me.pc + 4))) ∧
    (n ≠ 0 → 2 ^ 64 < base + n → exec (.rngres d a) s = .next (Claims.trapped .RNG_RANGE s)) ∧
    (n ≠ 0 → base + n ≤ 2 ^ 64 →
      (∀ e ∈ s.pkg.rng, e.asid = s.me.bind.asid → e.seed = s.me.bind.seed → e.base + e.count ≤ base ∨ base + n ≤ e.base) →
      (s.pkg.rng.length < 1024 → exec (.rngres d a) s = .next (Claims.commanded (fun s => s.upPkg (fun p => { p with
        rng := p.rng ++ [⟨s.me.bind.asid, s.me.bind.seed, base, n⟩] })) s)) ∧
      (s.pkg.rng.length = 1024 → exec (.rngres d a) s = .next (Claims.trapped .RNG_FULL s))) ∧
    (n ≠ 0 → base + n ≤ 2 ^ 64 →
      (∃ e ∈ s.pkg.rng, e.asid = s.me.bind.asid ∧ e.seed = s.me.bind.seed ∧ base < e.base + e.count ∧ e.base < base + n) →
      ∀ l, s.launch? s.me.bind.lid = some l → l.state.final = false → l.killed = none →
        ∃ u l', exec (.rngres d a) s = .next u ∧ u.pkg.rng = s.pkg.rng ∧ u.launch? s.me.bind.lid = some l' ∧ l'.killed = some 8 ∧
          ∃ h ∈ (u.die s.cur.die).held, h.code = .RNG_OVERLAP ∧ h.tid = s.cur) ∧
    (∃ w, exec (.cyc d) s = Claims.completes s w ∧ w.me = s.me.ws d (w.core s.cur.coreKey).cyc ∧ w.mem = s.mem)

/-- R23, R124: reading and writing special registers, those that no statement of a command writes. -/
def Obligations.SpecialRegisters : Prop := Claims.SpecialRegisterReads ∧ Claims.SpecialRegisterWrites

end

namespace Sys2Proof.Claims
open Sys2Proof.Machine

/-- The byte address of the M format (R68, R114). -/
def dataAddress (s : State) (base : SReg) (size : BitVec 2) (off : BitVec 10) : Nat :=
  (s.me.rs base + off.signExtend 64 * BitVec.ofNat 64 (2 ^ size.toNat)).toNat

/-- The n bytes at an address hold a number, the byte of least weight first (R7). -/
def holds (m : Memory) (a n v : Nat) : Prop := ∀ i, i < n → (m.read (a + i)).toNat = v / 256 ^ i % 256

/-- Outside the n bytes at an address two memories are the same. -/
def sameOutside (m m' : Memory) (a n : Nat) : Prop := ∀ x, (x < a ∨ a + n ≤ x) → m'.read x = m.read x

/-- A kernel thread below D2, whose accesses go to memory when they are made, in a machine whose memories are in canonical form. -/
def plainThread (s : State) : Prop :=
  s.me.mayRetire ∧ s.me.bind.txn = false ∧ s.me.txn = none ∧ s.me.bind.det ≠ 2 ∧ s.memoryOk = true

/-- The home, or for a load a replica of the die, gives the access a line grant outside the device range (R205, R213); a line that
the L1 holds for the other kind of access alone is granted for both. -/
def granted (s : State) (va : Nat) (kind : AccessKind) (s' : State) (g : Grant) : Prop :=
  grantData s va kind = .ok (s', g) ∧ g.pline < 2 ^ 43 ∧
  ∀ i, s.myCore.lineIx s.me.bind.asid va = some i →
    (if kind = .write then (s.myCore.lineAt i).wr else (s.myCore.lineAt i).rd) = true ∨ ∃ z h, grantBoth s va kind = .ok (z, h)

/-- No byte that a load of the current thread can find is poisoned (R392). -/
def clean (s : State) : Prop :=
  s.unmarked = true ∧ (∀ l ∈ s.myCore.l1, l.poison = 0) ∧ (∀ r ∈ s.myDie.replicas, r.half = [] ∧ r.whole = [])

/-- An L1 line holds a dirty byte of a physical address. -/
def dirtyAt (l : L1Line) (a : Nat) : Bool := l.pline == a / 256 && l.dirty.getLsbD (a % 256)

/-- R203, R220: a memory holds, at an address, the byte of a line of the current core's L1 that is dirty there, or, when none is, the byte
that memory held. -/
def atHome (s : State) (m : Memory) (a : Nat) : Prop :=
  (∃ l ∈ s.myCore.l1, dirtyAt l a = true ∧ m.read a = l.data.extractLsb' (8 * (a % 256)) 8) ∨
  (∀ l ∈ s.myCore.l1, dirtyAt l a = false) ∧ m.read a = s.mem.read a

/-- R203, R220: every dirty byte of the current core's L1 has been written to its home; no other byte of memory has changed, and no line of
the L1 is dirty. -/
def broughtHome (s u : State) : Prop := (∀ a, atHome s u.mem a) ∧ ∀ l ∈ (u.core s.cur.coreKey).l1, l.dirty = 0

/-- R224, R238: the state in which an atomic of the current thread on an address is performed: after its release, and without the copy of
the line in its core's L1. -/
def atomicOn (s : State) (a : Nat) (ord : BitVec 2) : State :=
  (if ord.getLsbD 1 then s.release s.cur.coreKey scopeDie else s).dropLine s.cur.coreKey s.me.bind.asid a

/-- R224: what that is: without a release, the dirty bytes of the line in the L1 have gone home and the line is gone; with one every dirty
byte has gone home. -/
def lineDropped (s z : State) (a : Nat) (ord : BitVec 2) : Prop :=
  (∀ i, s.myCore.lineIx s.me.bind.asid a = some i →
    let l := s.myCore.lineAt i
    z.myCore.l1.map (·.vline) = (s.myCore.l1.map (·.vline)).eraseIdx i ∧
    (ord.getLsbD 1 = false →
      ∀ x, z.mem.read x = if dirtyAt l x then l.data.extractLsb' (8 * (x % 256)) 8 else s.mem.read x)) ∧
  (ord.getLsbD 1 = true → broughtHome s z) ∧
  (ord.getLsbD 1 = false → s.myCore.lineIx s.me.bind.asid a = none → z = s)

/-- R432: the current thread waits at its instruction, every present die has been asked for its clock anew, and the acquire is to
follow. -/
def asksClocks (s u : State) : Prop :=
  u.me = { s.me with status := .waiting .acquire } ∧ (∀ a ∈ u.pkg.clockAns, a.1 ≠ s.cur) ∧
  (∀ d ∈ s.presentDies, Instr.clockRequest s.cur d ∈ u.agenda) ∧ Instr.packageAcquireEnd s.cur ∈ u.agenda

/-! R34, R36: the values of encodings as whole numbers of 2^−1200, of which every finite value of the formats is one. -/

/-- The magnitude of a number. -/
def mag (x : Int) : Int := x.natAbs

/-- One. -/
def one : Int := 2 ^ 1200

/-- The formats of R34. -/
def formats : List FloatFmt := [binary64, binary32, binary16, bfloat16, formatF8]

/-- The encoding is finite: by R34, and for F8 by R36. -/
def finite (F : FloatFmt) (x : Nat) : Bool :=
  if F.f8 then x % 128 != 127 else x / 2 ^ F.fbits % 2 ^ F.ebits != 2 ^ F.ebits - 1

/-- R34: the value of a finite encoding. -/
def value (F : FloatFmt) (x : Nat) : Int :=
  let e := x / 2 ^ F.fbits % 2 ^ F.ebits
  let f := x % 2 ^ F.fbits
  (if x.testBit (F.width - 1) then -1 else 1) *
    (if e = 0 then f * 2 ^ (1201 - F.bias - F.fbits) else (2 ^ F.fbits + f) * 2 ^ (1200 + e - F.bias - F.fbits) : Nat)

/-- R33: the integer that the low w bits hold. -/
def integer (signed : Bool) (w x : Nat) : Int :=
  if signed && x.testBit (w - 1) then (x % 2 ^ w : Nat) - (2 ^ w : Nat) else (x % 2 ^ w : Nat)

/-- The value of an element, unless it is a NaN or an infinity; none of DS8. -/
def exact (k : Elem) (x : Nat) : Option Int :=
  match k with
  | .int sg w => some (integer sg w x * one)
  | .flt F => if finite F x then some (value F x) else none
  | .ds8 => none

/-- R34, R36: the largest finite value, and the value that would follow it. -/
def largest (F : FloatFmt) : Int × Int :=
  if F.f8 then (224 * one, 240 * one) else ((2 ^ (F.fbits + 1) - 1) * 2 ^ (1200 + F.bias - F.fbits), 2 ^ (1201 + F.bias))

/-- R49: a value that overflows: rounded with an unbounded exponent it exceeds the largest finite value. Half way to the next value the
tie goes to the even one, which is the next, but in F8 the largest. -/
def overflows (F : FloatFmt) (rm : Nat) (v : Int) : Prop :=
  let m := (largest F).1
  let n := (largest F).2
  if rm = 0 then (if F.f8 then m + n < 2 * mag v else m + n ≤ 2 * mag v)
  else if rm = 1 then n ≤ mag v
  else if rm = 2 then m < v ∨ v ≤ -n
  else v < -m ∨ n ≤ v

/-- R45: u is v rounded to a value of the format: in mode 0 the nearest, of two the one whose encoding y is even; in mode 1 the nearest no
farther from zero; in mode 2 the least no less; in mode 3 the greatest no greater. -/
def roundsTo (F : FloatFmt) (rm : Nat) (v : Int) (y : Nat) : Prop :=
  let u := value F y
  (rm = 0 → ∀ z, finite F z = true → mag (u - v) ≤ mag (value F z - v) ∧ (mag (u - v) = mag (value F z - v) → value F z = u ∨ y % 2 = 0)) ∧
  (rm = 1 → mag u ≤ mag v ∧ ∀ z, finite F z = true → mag (value F z) ≤ mag v → mag (value F z) ≤ mag u) ∧
  (rm = 2 → v ≤ u ∧ ∀ z, finite F z = true → v ≤ value F z → u ≤ value F z) ∧
  (rm = 3 → u ≤ v ∧ ∀ z, finite F z = true → value F z ≤ v → value F z ≤ u)

/-- The bits of an infinity. -/
def infinity (F : FloatFmt) (neg : Bool) : Nat := (if neg then 2 ^ (F.width - 1) else 0) + (2 ^ F.ebits - 1) * 2 ^ F.fbits

/-- R45, R48, R49: what rounding the number v gives where SUB flushes nothing: a value that does not overflow becomes the one that the mode
selects, with its sign, PE when it differs and UF when it is then below the smallest normal; one that overflows becomes what the table of
R49 gives, with OF and PE. -/
def rounds (F : FloatFmt) (fpm : BitVec 6) (v : Int) (r : Nat × BitVec 5) : Prop :=
  let rm := (fpm.extractLsb' 0 2).toNat
  let neg := decide (v < 0)
  (¬overflows F rm v →
    finite F r.1 = true ∧ r.1 < 2 ^ F.width ∧ roundsTo F rm v r.1 ∧ (v ≠ 0 → r.1.testBit (F.width - 1) = neg) ∧
    (r.2.getLsbD 4 = true ↔ value F r.1 ≠ v) ∧ r.2.extractLsb' 0 3 = 0 ∧
    (r.2.getLsbD 3 = true → value F r.1 ≠ v ∧ mag v < 2 ^ (1201 - F.bias)) ∧
    (value F r.1 ≠ v → mag (value F r.1) < 2 ^ (1201 - F.bias) → r.2.getLsbD 3 = true)) ∧
  (overflows F rm v →
    r.2 = 0b10100 ∧
    if (rm = 0 ∨ rm = 2 ∧ neg = false ∨ rm = 3 ∧ neg = true) ∧ (fpm.getLsbD 4 = false ∨ F.width = 64) then
      r.1 = if F.f8 then 0x7F else infinity F neg
    else finite F r.1 = true ∧ r.1 < 2 ^ F.width ∧ value F r.1 = if neg then -(largest F).1 else (largest F).1)

/-- R237: the value an integer atomic writes, for operands of w bits, or none for an ACAS that finds another value. -/
def atomValue (w : Nat) (f : AtomFn) (old op cmp : BitVec w) : Option (BitVec w) :=
  match f with
  | .add => some (old + op)
  | .and => some (old &&& op)
  | .or => some (old ||| op)
  | .xor => some (old ^^^ op)
  | .min => some (if op.toInt < old.toInt then op else old)
  | .max => some (if old.toInt < op.toInt then op else old)
  | .minu => some (if op.toNat < old.toNat then op else old)
  | .maxu => some (if old.toNat < op.toNat then op else old)
  | .swap => some op
  | .cas => if old = cmp then some op else none

/-- The integer atomics with their functions (R237). -/
def atomics : List ((SReg → SReg → SReg → Bool → BitVec 2 → Instr) × AtomFn) :=
  [(.aadd, .add), (.aand, .and), (.aor, .or), (.axor, .xor), (.amin, .min), (.amax, .max), (.aminu, .minu), (.amaxu, .maxu),
   (.aswap, .swap), (.acas, .cas)]

end Sys2Proof.Claims

section
open Sys2Proof Sys2Proof.Machine

/-- R114, R116, R18, R19, R392: scratch loads and stores of a kernel thread: an aligned load inside the scratchpad puts the bytes,
zero-extended, into s[data], unless one is poisoned, and then it is consumed; an aligned store outside the constant window writes
exactly its bytes, and neither changes a full-empty bit. -/
def Sys2Proof.Claims.ScratchLoadsAndStores : Prop :=
  ∀ (data base : SReg) (size : BitVec 2) (ordered : Bool) (off : BitVec 10) (s : State), Claims.plainThread s →
    let a := Claims.dataAddress s base size off
    let n := 2 ^ size.toNat
    a % n = 0 → a + n ≤ s.myCore.scratchSize →
    (s.myCore.poisonedAt a n = true → Claims.consumes s (exec (.ld data base true size ordered off) s)) ∧
    (s.myCore.poisonedAt a n = false →
      ∃ u v, exec (.ld data base true size ordered off) s = .next u ∧ Claims.holds s.myCore.scratch a n v ∧ v < 256 ^ n ∧
      u.me = { (s.me.ws data (BitVec.ofNat 64 v)).retire (s.me.pc + 4) with status := .ready } ∧ u.mem = s.mem ∧
      (u.core s.cur.coreKey).scratch = s.myCore.scratch ∧ (u.core s.cur.coreKey).fe = s.myCore.fe) ∧
    ((s.me.bind.sup = true ∨ 0x400 ≤ a) →
      ∃ u, exec (.st data base true size ordered off) s = .next u ∧
        Claims.holds (u.core s.cur.coreKey).scratch a n (s.me.rs data).toNat ∧
        Claims.sameOutside s.myCore.scratch (u.core s.cur.coreKey).scratch a n ∧ (u.core s.cur.coreKey).fe = s.myCore.fe ∧
        u.me = { s.me.retire (s.me.pc + 4) with status := .ready } ∧ (ordered = false → u.mem = s.mem))

/-- R116, R18, R22: the faults of LD and ST before any translation, in their order: the access does not occur and no register
changes. That the packet of MISALIGNED_DATA carries the access's address and its kind follows R373 and R378 as the model reads them (log
entry 56). -/
def Sys2Proof.Claims.LoadStoreFaults : Prop :=
  ∀ (data base : SReg) (sp : Bool) (size : BitVec 2) (ordered : Bool) (off : BitVec 10) (s : State),
    let a := Claims.dataAddress s base size off
    let n := 2 ^ size.toNat
    (s.me.bind.txn = true → s.me.inPass = false → Claims.faultsWith .TX_STORE s (exec (.st data base false size ordered off) s)) ∧
    (s.me.bind.txn = false → a % n ≠ 0 →
      Claims.faultsWith .MISALIGNED_DATA s (exec (.ld data base sp size ordered off) s) ∧
      Claims.faultsWith .MISALIGNED_DATA s (exec (.st data base sp size ordered off) s)) ∧
    (s.me.bind.txn = false → a % n ≠ 0 →
      exec (.ld data base false size ordered off) s = .next (s.freeze s.cur ⟨.MISALIGNED_DATA, BitVec.ofNat 64 a, 0, 0⟩) ∧
      exec (.st data base false size ordered off) s = .next (s.freeze s.cur ⟨.MISALIGNED_DATA, BitVec.ofNat 64 a, 0, 1⟩)) ∧
    (a % n = 0 → s.myCore.scratchSize < a + n →
      Claims.faultsWith .SCRATCH_RANGE s (exec (.ld data base true size ordered off) s) ∧
      Claims.faultsWith .SCRATCH_RANGE s (exec (.st data base true size ordered off) s)) ∧
    (a % n = 0 → a + n ≤ s.myCore.scratchSize → s.me.bind.sup = false → a < 0x400 →
      Claims.faultsWith .KWIN_WRITE s (exec (.st data base true size ordered off) s))

/-- R114, R203, R205, R220, R232, R392: where no byte is poisoned, an aligned global load or store of a kernel thread below D2 completes
when its line is granted. A load gives the bytes of the L1 line that holds them, or, when no line does and no replica of the die, those of
memory at the granted line. A plain store leaves its bytes dirty in its L1 line, a new one where none holds the address, and memory as it
was; without an L1 it writes exactly its bytes to memory. A store with a release leaves the dirty bytes of the L1 at home, and after them
its own. -/
def Obligations.GlobalLoadsAndStores : Prop :=
  ∀ (data base : SReg) (size : BitVec 2) (ordered : Bool) (off : BitVec 10) (s s' : State) (g : Grant), Claims.plainThread s →
    let a := Claims.dataAddress s base size off
    let n := 2 ^ size.toNat
    let pa := g.pline * 256 + a % 256
    a % n = 0 →
    (Claims.granted s a .read s' g → Claims.clean s →
      (∃ u, exec (.ld data base false size ordered off) s = .next u ∧ u.me.pc = s.me.pc + 4 ∧ u.me.status = .ready) ∧
      (s.myCore.l1 = [] → s.myCore.l1q = 0 → s.myDie.replicas = [] →
        ∃ u v, exec (.ld data base false size ordered off) s = .next u ∧ Claims.holds s'.mem pa n v ∧ v < 256 ^ n ∧
          u.me.rs data = (if data = 0 then 0 else BitVec.ofNat 64 v) ∧ u.mem = s'.mem) ∧
      (s.myCore.lineIx s.me.bind.asid a = none → s.myDie.replicas = [] → s.cur.core < 256 →
        (∀ l ∈ s.myCore.l1, l.pline = g.pline → l.dirty = 0) →
        ∃ u v, exec (.ld data base false size ordered off) s = .next u ∧ Claims.holds s'.mem pa n v ∧ v < 256 ^ n ∧
          u.me.rs data = (if data = 0 then 0 else BitVec.ofNat 64 v))) ∧
    (∀ i, s.myCore.lineIx s.me.bind.asid a = some i →
      let l := s.myCore.lineAt i
      let kept := fun (k : L1Line) => k.pline = l.pline ∧ ∀ x, x < 256 → k.data.extractLsb' (8 * x) 8 =
        if a % 256 ≤ x ∧ x < a % 256 + n then ((s.me.rs data).extractLsb' (8 * (x - a % 256)) 8) else l.data.extractLsb' (8 * x) 8
      (l.rd = true ∨ l.wr = true → sectorsOf (a % 256) n &&& ~~~l.valid = 0 → l.poison = 0 →
        ∃ u, exec (.ld data base false size ordered off) s = .next u ∧ u.me.pc = s.me.pc + 4 ∧ u.mem = s.mem ∧
          u.me.rs data = if data = 0 then 0 else (l.data.extractLsb' (8 * (a % 256)) (8 * n)).setWidth 64) ∧
      (l.wr = true → ordered = false →
        ∃ u, exec (.st data base false size false off) s = .next u ∧ u.mem = s.mem ∧ kept (u.myCore.lineAt i) ∧
          (∀ x, x < 256 → (u.myCore.lineAt i).dirty.getLsbD x =
            (l.dirty.getLsbD x || decide (a % 256 ≤ x) && decide (x < a % 256 + n))) ∧
          ∀ j, j ≠ i → u.myCore.lineAt j = s.myCore.lineAt j) ∧
      (l.wr = true → ordered = true →
        ∃ u, exec (.st data base false size true off) s = .next u ∧ u.me.pc = s.me.pc + 4 ∧ u.me.s = s.me.s ∧ kept (u.myCore.lineAt i) ∧
          (∀ k ∈ u.myCore.l1, k.dirty = 0) ∧ Claims.holds u.mem (l.pline * 256 + a % 256) n (s.me.rs data).toNat ∧
          ∀ x, (x < l.pline * 256 + a % 256 ∨ l.pline * 256 + a % 256 + n ≤ x) → Claims.atHome s u.mem x)) ∧
    (Claims.granted s a .write s' g →
      (ordered = false → s.myCore.lineIx s.me.bind.asid a = none → s.myCore.l1q ≠ 0 → g.tbl = false →
        ∃ u i, exec (.st data base false size false off) s = .next u ∧ u.myCore.lineIx s.me.bind.asid a = some i ∧
          let k := u.myCore.lineAt i
          k.pline = g.pline ∧ k.wr = true ∧ ∀ x, x < 256 →
            k.dirty.getLsbD x = (decide (a % 256 ≤ x) && decide (x < a % 256 + n)) ∧
            (a % 256 ≤ x → x < a % 256 + n → k.data.extractLsb' (8 * x) 8 = (s.me.rs data).extractLsb' (8 * (x - a % 256)) 8)) ∧
      (ordered = false → ∃ u, exec (.st data base false size ordered off) s = .next u ∧ u.me.pc = s.me.pc + 4 ∧ u.me.status = .ready ∧
        u.me.s = s.me.s) ∧
      (s.myCore.l1 = [] → s.myCore.l1q = 0 →
        ∃ u, exec (.st data base false size ordered off) s = .next u ∧ Claims.holds u.mem pa n (s.me.rs data).toNat ∧
          Claims.sameOutside s'.mem u.mem pa n ∧ u.me.s = s.me.s ∧ u.me.pc = s.me.pc + 4))

/-- R233, R235: LDFE on a full granule reads it, and with .clr empties it; on an empty one the thread waits for it; LDFE_WAIT_END lets
it go on once the granule is full. STFE writes its bytes and then fills the granule. -/
def Obligations.FullEmptyAccesses : Prop :=
  ∀ (data base : SReg) (size : BitVec 2) (clr mark : Bool) (off : BitVec 10) (s : State), Claims.plainThread s →
    let a := Claims.dataAddress s base size off
    let n := 2 ^ size.toNat
    let c := s.cur.coreKey
    a % n = 0 → a + n ≤ s.myCore.scratchSize → (s.me.bind.sup = true ∨ 0x400 ≤ a) →
    (s.myCore.full (a / 16) = true → s.myCore.poisonedAt a n = false →
      ∃ u v, exec (.ldfe data base size clr mark off) s = .next u ∧ Claims.holds s.myCore.scratch a n v ∧ v < 256 ^ n ∧
        u.me = { (s.me.ws data (BitVec.ofNat 64 v)).retire (s.me.pc + 4) with status := .ready } ∧ u.mem = s.mem ∧
        (u.core c).scratch = s.myCore.scratch ∧ (u.core c).full (a / 16) = !clr ∧
        ∀ g, g ≠ a / 16 → (u.core c).full g = s.myCore.full g) ∧
    (s.myCore.full (a / 16) = false →
      ∃ u, exec (.ldfe data base size clr mark off) s = .next u ∧ u.me.status = .waiting (.ldfe data a size clr mark) ∧
        u.me.pc = s.me.pc ∧ u.me.s = s.me.s ∧ u.mem = s.mem) ∧
    (∃ u, exec (.stfe data base size off) s = .next u ∧ Claims.holds (u.core c).scratch a n (s.me.rs data).toNat ∧
      Claims.sameOutside s.myCore.scratch (u.core c).scratch a n ∧ (u.core c).full (a / 16) = true ∧
      (∀ g, g ≠ a / 16 → (u.core c).full g = s.myCore.full g) ∧
      u.me = { s.me.retire (s.me.pc + 4) with status := .ready } ∧ u.mem = s.mem) ∧
    (s.me.status = .waiting (.ldfe data a size clr mark) → s.myCore.full (a / 16) = true → s.myCore.poisonedAt a n = false →
      ∃ u v, exec (.ldfeWaitEnd s.cur) s = .next u ∧ Claims.holds s.myCore.scratch a n v ∧ v < 256 ^ n ∧
        u.me = { (s.me.ws data (BitVec.ofNat 64 v)).retire (s.me.pc + 4) with status := .ready })

/-- R237, R238, R224: an aligned integer atomic of a kernel thread below D2 first writes back and drops the core's own copy of its line;
then, when the line is granted for writing, it is one step at the home: s[data] takes the old bytes, zero-extended, and memory the new
ones, or for an ACAS that finds another value keeps the old; no other byte changes and no flag. -/
def Sys2Proof.Claims.CoreAtomics : Prop :=
  ∀ row ∈ Claims.atomics, ∀ (data base b : SReg) (dw : Bool) (ord : BitVec 2) (s s' : State) (g : Grant), Claims.plainThread s →
    let a := (s.me.rs base).toNat
    let z := Claims.atomicOn s a ord
    let n := if dw then 8 else 4
    let pa := g.pline * 256 + a % 256
    Claims.lineDropped s z a ord ∧
    (a % n = 0 → z.unmarked = true → Claims.granted z a .write s' g →
      ∃ (u : State) (old : BitVec (8 * n)), exec (row.1 data base b dw ord) s = .next u ∧ Claims.holds s'.mem pa n old.toNat ∧
        u.me = { (s.me.ws data (old.setWidth 64)).retire (s.me.pc + 4) with status := .ready } ∧
        Claims.holds u.mem pa n ((Claims.atomValue (8 * n) row.2 old ((s.me.rs b).setWidth _) ((s.me.rs data).setWidth _)).getD old).toNat ∧
        Claims.sameOutside s'.mem u.mem pa n ∧ (ord.getLsbD 0 = false → u.myCore.l1 = z.myCore.l1))

/-- R237, R205: HOME_ATOMIC, an integer atomic of another agent at the home of an aligned address whose line is granted for writing:
the bytes there take the function's value, and no other byte changes. -/
def Sys2Proof.Claims.HomeAtomic : Prop :=
  ∀ (asid : BitVec 16) (va : BitVec 64) (fn : AtomFn) (dw : Bool) (op cmp : BitVec 64) (s s' : State) (g : Grant),
    let n := if dw then 8 else 4
    let pa := g.pline * 256 + va.toNat % 256
    s.mem.wf = true → s.engineGrant asid true va.toNat .write = .ok (s', g) → g.pline < 2 ^ 43 → va.toNat % n = 0 →
    ∃ (u : State) (old : BitVec (8 * n)), exec (.homeAtomic asid va fn dw op cmp) s = .next u ∧ Claims.holds s'.mem pa n old.toNat ∧
      Claims.holds u.mem pa n ((Claims.atomValue (8 * n) fn old (op.setWidth _) (cmp.setWidth _)).getD old).toNat ∧
      Claims.sameOutside s'.mem u.mem pa n ∧ u.threads = s.threads

/-- R239 to R243, R224: AFADD adds binary32 numbers at the home; AFADD.D adds to the word's wide accumulator, ACCRD reads it out and
ACCINIT reads it out and clears it; flags go to FPF; and no byte of memory changes with an accumulator that is not spilled. -/
def Sys2Proof.Claims.FloatAtomicSteps : Prop :=
  ∀ (data base b : SReg) (ord : BitVec 2) (dw : Bool) (s s' : State) (g : Grant), Claims.plainThread s →
    let a := (s.me.rs base).toNat
    let z := Claims.atomicOn s a ord
    let pa := g.pline * 256 + a % 256
    let k := spaceKey s.me.bind.asid g.global
    a % 4 = 0 → z.unmarked = true →
    (Claims.granted z a .write s' g →
      (∃ (u : State) (old : BitVec 32), exec (.afadd data base b ord) s = .next u ∧ Claims.holds s'.mem pa 4 old.toNat ∧
        let r := binary32.finish s.me.fpm ((binary32.operand s.me.fpm old.toNat).add s.me.fpm
          (binary32.operand s.me.fpm ((s.me.rs b).toNat % 2 ^ 32)))
        Claims.holds u.mem pa 4 r.1 ∧ Claims.sameOutside s'.mem u.mem pa 4 ∧
        u.me.rs data = (if data = 0 then 0 else old.setWidth 64) ∧ u.me.fpf = s.me.fpf ||| r.2 ∧ u.me.pc = s.me.pc + 4) ∧
      ((s'.accsIn (s'.accSlice k a (if g.tbl then some g.pline else none))).length < 4096 → ∃ u, exec (.afaddD base b ord) s = .next u ∧
        let r := (s'.accRead k a).add s.me.fpm ((s.me.rs b).toNat % 2 ^ 32)
        u.accRead k a = r.1 ∧ u.me.fpf = s.me.fpf ||| r.2 ∧ u.me.s = s.me.s ∧ u.me.pc = s.me.pc + 4 ∧
        ((∀ e, s'.accFind k a = some e → e.spilled = none) → u.mem = s'.mem)) ∧
      (∃ u, exec (.accinit data base ord) s = .next u ∧
        let r := (s'.accRead k a).readOut binary32 s.me.fpm
        u.accRead k a = WideAcc.zero ∧ u.me.rs data = (if data = 0 then 0 else BitVec.ofNat 64 r.1) ∧ u.me.fpf = s.me.fpf ||| r.2 ∧
        u.me.pc = s.me.pc + 4 ∧ u.mem = s'.mem)) ∧
    (grantHome z a .read = .ok (s', g) → g.pline < 2 ^ 43 → ∃ u, exec (.accrd data base dw ord) s = .next u ∧
      let r := (s'.accRead k a).readOut (if dw then binary64 else binary32) s.me.fpm
      u.accRead k a = s'.accRead k a ∧ u.me.rs data = (if data = 0 then 0 else BitVec.ofNat 64 r.1) ∧ u.me.fpf = s.me.fpf ||| r.2 ∧
      u.me.pc = s.me.pc + 4 ∧ u.mem = s'.mem)

/-- R51, R52, R244: the wide accumulator. Adding a finite binary32 number, where SUB flushes nothing, is exact: the accumulator holds the
sum, unless the count of wraps leaves its range, and then XSAT stands; an infinity and a NaN leave their marks, and every addition ANY and
that of anything but −0 NNZ. While XSAT is 0 the state is the same in every order of two additions, whatever they add. -/
def Sys2Proof.Claims.WideSums : Prop :=
  ∀ (c : WideAcc) (f g : BitVec 6) (x y : BitVec 32),
    let sum := fun (c : WideAcc) => c.val.toInt + c.xc.toInt * 2 ^ 320
    let fin := Claims.finite binary32 x.toNat
    let r := c.add f x.toNat
    let t := sum c + Claims.value binary32 x.toNat / 2 ^ 1051
    let inRange := -128 ≤ (t + 2 ^ 319) / 2 ^ 320 ∧ (t + 2 ^ 319) / 2 ^ 320 ≤ 127
    (f.extractLsb' 2 2 = 0 →
      Claims.value binary32 x.toNat = Claims.value binary32 x.toNat / 2 ^ 1051 * 2 ^ 1051 ∧
      (fin = true → inRange → sum r.1 = t ∧ r.1.xsat = c.xsat) ∧ (fin = true → ¬inRange → r.1.xsat = true) ∧
      (fin = false → sum r.1 = sum c ∧ r.1.xsat = c.xsat) ∧
      r.1.any = true ∧ r.1.nnz = (c.nnz || x != 0x80000000#32) ∧ r.1.pinf = (c.pinf || x == 0x7F800000#32) ∧
      r.1.ninf = (c.ninf || x == 0xFF800000#32) ∧
      r.1.nan = (c.nan || (!fin && x.extractLsb' 0 23 != 0#23)) ∧
      r.2 = if fin = false ∧ x.extractLsb' 0 23 ≠ 0#23 ∧ x.getLsbD 22 = false then 1 else 0) ∧
    (let p := (r.1.add g y.toNat).1
     let q := ((c.add g y.toNat).1.add f x.toNat).1
     p.xsat = false → q.xsat = false → p = q)

/-- R53: the read-out of a wide accumulator to binary32 and binary64, by the first condition that holds, without flags but those named; a
sum that is not zero is rounded once, where SUB flushes nothing. -/
def Sys2Proof.Claims.ReadOuts : Prop :=
  ∀ (c : WideAcc) (fpm : BitVec 6), ∀ F ∈ [binary32, binary64],
    let r := c.readOut F fpm
    let marked := c.nan || c.pinf || c.ninf
    (c.nan = true → Claims.finite F r.1 = false ∧ r.1 % 2 ^ F.fbits = 2 ^ (F.fbits - 1) ∧ r.1 < 2 ^ (F.width - 1) ∧ r.2 = 0) ∧
    (c.nan = false → c.pinf = true → c.ninf = true →
      Claims.finite F r.1 = false ∧ r.1 % 2 ^ F.fbits = 2 ^ (F.fbits - 1) ∧ r.1 < 2 ^ (F.width - 1) ∧ r.2 = 1) ∧
    (c.nan = false → c.pinf ≠ c.ninf → r = (Claims.infinity F c.ninf, 0)) ∧
    (marked = false → c.xsat = true ∨ c.xc ≠ 0 → r = (Claims.infinity F c.xc.msb, 0b10100)) ∧
    (marked = false → c.xsat = false → c.xc = 0 →
      (c.val = 0 → r.2 = 0 ∧ r.1 =
        if c.any = true ∧ (c.nnz = false ∨ fpm.extractLsb' 0 2 = 3) then 2 ^ (F.width - 1) else 0) ∧
      (c.val ≠ 0 → fpm.extractLsb' 2 2 = 0 → Claims.rounds F fpm (c.val.toInt * 2 ^ 1051) r))

/-- R51 to R53, R224, R239 to R244: floating-point atomics, the sums of the wide accumulators and their read-outs. -/
def Obligations.FloatAtomics : Prop := Claims.FloatAtomicSteps ∧ Claims.WideSums ∧ Claims.ReadOuts

/-- R247 to R250, R220, R431, R432: a FENCE at core scope touches no line. At die scope a release and a full fence leave the dirty bytes
of the core's L1 at home, and an acquire and a full fence leave no valid byte but the dirty ones; a release retires at every scope, the
others at package and system scope wait for the clocks of the dies. An XFENCE that does not name CORE changes nothing; one that names
CORE alone is a full fence at its scope, with another path beside it at die scope at least. IFENCE leaves the dirty bytes at home and the
instruction cache empty; QUANT ends the quantum of a thread at D2, which waits for its round, and does nothing elsewhere. R220 asks a
release for the bytes of the thread's own stores: that it leaves no dirty byte of any thread in the core's L1, and likewise XFENCE and
IFENCE, is the model's choice (log entry 27). -/
def Obligations.Fences : Prop :=
  ∀ (kind scope : BitVec 2) (paths : BitVec 8) (s : State), s.me.mayRetire → s.memoryOk = true →
    let done := fun (u : State) => u.me = { s.me.retire (s.me.pc + 4) with status := .ready }
    let wide := if paths >>> 1 = 0 then scope.toNat else max 1 scope.toNat
    (s.me.d2 = false →
      (∃ u, exec (.fence kind scope) s = .next u ∧
        (scope = 0 → u = s.retire s.cur (s.me.pc + 4)) ∧
        (kind = 1 → u.mem = s.mem) ∧ (scope ≠ 0 → kind ≠ 1 → Claims.broughtHome s u) ∧
        (scope.toNat < 2 ∨ kind = 2 → done u) ∧ (2 ≤ scope.toNat → kind ≠ 2 → Claims.asksClocks s u) ∧
        (scope = 1 → kind = 1 → (u.core s.cur.coreKey).l1 =
          (s.myCore.l1.filter (fun l => l.dirty != 0)).map (fun l => { l with valid := 0 })) ∧
        (scope = 1 → kind ≠ 1 → kind ≠ 2 → (u.core s.cur.coreKey).l1 = [])) ∧
      (∃ u, exec (.xfence scope paths) s = .next u ∧
        (paths.getLsbD 0 = false ∨ wide = 0 → done u ∧ u.mem = s.mem ∧ (u.core s.cur.coreKey).l1 = s.myCore.l1) ∧
        (paths.getLsbD 0 = true → wide ≠ 0 → Claims.broughtHome s u) ∧
        (paths.getLsbD 0 = true → wide = 1 → done u ∧ (u.core s.cur.coreKey).l1 = []) ∧
        (paths.getLsbD 0 = true → 2 ≤ wide → Claims.asksClocks s u)) ∧
      (∃ u, exec .ifence s = .next u ∧ done u ∧ (u.core s.cur.coreKey).icache = [] ∧ Claims.broughtHome s u) ∧
      exec .quant s = .next (s.retire s.cur (s.me.pc + 4))) ∧
    (s.me.d2 = true → s.me.qended = false → s.me.rebuild = none →
      ∃ u, exec .quant s = .next u ∧ u.mem = s.mem ∧ u.me = { s.me with
        quanta := s.me.quanta + 1
        qretired := 0
        qended := true
        status := .waiting .quant } ∧
        ∃ grp, Instr.d2RoundCommit s.me.bind.lid grp ∈ u.agenda)

/-- R114, R116, R18, R19, R22: scratch loads and stores, and the faults of loads and stores. -/
def Obligations.ScratchAccesses : Prop := Claims.ScratchLoadsAndStores ∧ Claims.LoadStoreFaults

/-- R224, R237, R238: integer atomics of a thread and of other agents. -/
def Obligations.IntegerAtomics : Prop := Claims.CoreAtomics ∧ Claims.HomeAtomic

end

namespace Sys2Proof.Claims
open Sys2Proof.Machine

/-- Lane i of width w of a vector (R10). -/
def el (w i : Nat) (v : VReg) : BitVec w := v.extractLsb' (w * i) w

/-- A signed value clamped to a range. -/
def clamp (lo hi x : Int) : Int := max lo (min hi x)

/-- R134: what each two-source integer form of major 0x20 gives in a lane of w bits. -/
noncomputable def laneOps : List ((BitVec 2 → MReg → VName → VName → VName → Instr) × ((w : Nat) → BitVec w → BitVec w → BitVec w)) :=
  [(.vadd, fun _ a b => a + b), (.vsub, fun _ a b => a - b), (.vmullo, fun _ a b => a * b),
   (.vmulhi, fun w a b => BitVec.ofInt w (a.toInt * b.toInt / 2 ^ w)), (.vmulhiu, fun w a b => BitVec.ofNat w (a.toNat * b.toNat / 2 ^ w)),
   (.vand, fun _ a b => a &&& b), (.vor, fun _ a b => a ||| b), (.vxor, fun _ a b => a ^^^ b), (.vandn, fun _ a b => a &&& ~~~b),
   (.vmax, fun _ a b => if a.toInt < b.toInt then b else a), (.vmin, fun _ a b => if b.toInt < a.toInt then b else a),
   (.vmaxu, fun _ a b => if a.toNat < b.toNat then b else a), (.vminu, fun _ a b => if b.toNat < a.toNat then b else a),
   (.vshl, fun w a b => a <<< (b.toNat % w)), (.vshr, fun w a b => a >>> (b.toNat % w)),
   (.vsra, fun w a b => a.sshiftRight (b.toNat % w)),
   (.vadds, fun w a b => BitVec.ofInt w (clamp (-2 ^ (w - 1)) (2 ^ (w - 1) - 1) (a.toInt + b.toInt))),
   (.vaddsu, fun w a b => BitVec.ofInt w (clamp 0 (2 ^ w - 1) (a.toNat + b.toNat))),
   (.vsubs, fun w a b => BitVec.ofInt w (clamp (-2 ^ (w - 1)) (2 ^ (w - 1) - 1) (a.toInt - b.toInt))),
   (.vsubsu, fun w a b => BitVec.ofInt w (clamp 0 (2 ^ w - 1) (a.toNat - b.toNat)))]

/-- R134: the one-source forms. -/
noncomputable def laneUnary : List ((BitVec 2 → MReg → VName → VName → Instr) × ((w : Nat) → BitVec w → BitVec w)) :=
  [(.vabs, fun _ a => if a.toInt < 0 then -a else a), (.vneg, fun _ a => -a), (.vmov, fun _ a => a)]

/-- R64, R135: the integer 16-bit forms with the lane function of the row each is mapped to. -/
noncomputable def lane16Ops : List ((Bool → VName → VName → Instr) × ((w : Nat) → BitVec w → BitVec w → BitVec w)) :=
  [(.vadd16, fun _ a b => a + b), (.vsub16, fun _ a b => a - b), (.vmullo16, fun _ a b => a * b),
   (.vand16, fun _ a b => a &&& b), (.vor16, fun _ a b => a ||| b), (.vxor16, fun _ a b => a ^^^ b),
   (.vmax16, fun _ a b => if a.toInt < b.toInt then b else a), (.vmin16, fun _ a b => if b.toInt < a.toInt then b else a),
   (.vshl16, fun w a b => a <<< (b.toNat % w)), (.vshr16, fun w a b => a >>> (b.toNat % w))]

/-- What a floating-point lane gives: its bits and its flags, from the thread's FPM and the operands' bits. -/
abbrev LaneFp2 := FloatFmt → BitVec 6 → Nat → Nat → Nat × BitVec 5

/-- R133: the rounded result of an exact operation on two operands. -/
def rounded2 (op : BitVec 6 → FVal → FVal → FRes) : LaneFp2 := fun F m a b => F.finish m (op m (F.operand m a) (F.operand m b))

/-- R136, R137: the two-source floating-point forms. -/
noncomputable def fpOps : List ((BitVec 2 → MReg → VName → VName → VName → Instr) × LaneFp2) :=
  [(.vfadd, rounded2 FVal.add), (.vfsub, rounded2 FVal.sub), (.vfmul, rounded2 (fun _ => FVal.mul)),
   (.vfdiv, rounded2 (fun _ => FVal.div)), (.vfmax, fun F m a b => F.maxmin m true a b), (.vfmin, fun F m a b => F.maxmin m false a b)]

/-- R135: the floating-point 16-bit forms. -/
noncomputable def fp16Ops : List ((Bool → VName → VName → Instr) × LaneFp2) :=
  [(.vfadd16, rounded2 FVal.add), (.vfsub16, rounded2 FVal.sub), (.vfmul16, rounded2 (fun _ => FVal.mul)),
   (.vfmax16, fun F m a b => F.maxmin m true a b), (.vfmin16, fun F m a b => F.maxmin m false a b)]

/-- R136, R140: the one-source floating-point forms: sign operations act on the bits; the others round an exact value. -/
noncomputable def fpUnary : List ((BitVec 2 → MReg → VName → VName → Instr) × (FloatFmt → BitVec 6 → Nat → Nat × BitVec 5)) :=
  [(.vfabs, fun F _ a => (a % 2 ^ (F.width - 1), 0)), (.vfneg, fun F _ a => (a ^^^ 2 ^ (F.width - 1), 0)),
   (.vfsqrt, fun F m a => F.finish m (F.operand m a).sqrt),
   (.vexp2, fun F m a => F.finish m (SpecFn.exp2.apply (F.operand m a))), (.vlog2, fun F m a => F.finish m (SpecFn.log2.apply (F.operand m a))),
   (.vrcp, fun F m a => F.finish m (SpecFn.rcp.apply (F.operand m a))), (.vrsqrt, fun F m a => F.finish m (SpecFn.rsqrt.apply (F.operand m a))),
   (.vsin, fun F m a => F.finish m (SpecFn.sin.apply (F.operand m a))), (.vtanh, fun F m a => F.finish m (SpecFn.tanh.apply (F.operand m a))),
   (.vsigm, fun F m a => F.finish m (SpecFn.sigm.apply (F.operand m a)))]

/-- R138: the fused forms, rounded once. -/
noncomputable def fused : List ((BitVec 2 → MReg → VName → VName → VName → Instr) × (BitVec 6 → FVal → FVal → FVal → FRes)) :=
  [(.vfma, fun m a b c => a.fma m b c), (.vfms, fun m a b c => a.fma m b c.negate), (.vfnma, fun m a b c => a.negate.fma m b c),
   (.vfnms, fun m a b c => a.negate.fma m b c.negate)]

/-- The flags of a vector result: the OR over the active lanes (R132). -/
def laneFlags (w : Nat) (m : Mask) (f : Nat → BitVec 5) : BitVec 5 :=
  ((List.range (1024 / w)).map (fun i => if m.getLsbD i then f i else 0)).foldl (fun a b => a ||| b) 0

/-- The instruction of the current thread passes the slot and queue checks (R11, R14) and nothing stops its retirement. -/
def vectorOk (s : State) (reads writes : List VName) : Prop := s.me.mayRetire ∧ vCheck s.me reads writes = .ok ()

/-- The sources of a vector instruction, in operand order, and the thread whose queues have given theirs (R12, R13). -/
def sources (s : State) (w : Nat) (reads : List VName) : Thread × VReg × VReg :=
  let r := s.me.vReads w reads
  (r.1, r.2.getD 0 0, r.2.getD 1 0)

/-- The state after a vector instruction of `len` bytes whose thread is `t` before the result is written: vd takes v, FPF takes the
flags. -/
def vectorDone (len : Nat) (s : State) (t : Thread) (vd : VName) (v : VReg) (fl : BitVec 5) : State :=
  after len (fun _ => (t.vWrite vd v).orFlags fl) s

/-- R141: the integer compares. -/
noncomputable def maskCompares : List ((BitVec 2 → MReg → MReg → VName → VName → Instr) × ((w : Nat) → BitVec w → BitVec w → Bool)) :=
  [(.vcmpeq, fun _ a b => a == b), (.vcmpne, fun _ a b => a != b), (.vcmplt, fun _ a b => decide (a.toInt < b.toInt)),
   (.vcmple, fun _ a b => decide (a.toInt ≤ b.toInt)), (.vcmpltu, fun _ a b => decide (a.toNat < b.toNat)),
   (.vcmpleu, fun _ a b => decide (a.toNat ≤ b.toNat))]

/-- R141: the floating-point compares on operands as read: the truth and whether NV is raised. -/
noncomputable def fpCompares : List ((BitVec 2 → MReg → MReg → VName → VName → Instr) × (FVal → FVal → Bool × Bool)) :=
  [(.vfcmpeq, fun a b => (!a.isNan && !b.isNan && a.eq b, a.isSnan || b.isSnan)),
   (.vfcmplt, fun a b => (!a.isNan && !b.isNan && a.lt b, a.isNan || b.isNan)),
   (.vfcmple, fun a b => (!a.isNan && !b.isNan && !b.lt a, a.isNan || b.isNan)),
   (.vfcmpun, fun a b => (a.isNan || b.isNan, a.isSnan || b.isSnan))]

/-- R144, R55: the integer reductions: operation and identity. -/
noncomputable def reductions : List ((BitVec 2 → MReg → VName → VName → Instr) × ((w : Nat) → BitVec w → BitVec w → BitVec w) × ((w : Nat) → BitVec w)) :=
  [(.vrsum, fun _ a b => a + b, fun _ => 0),
   (.vrmax, fun _ a b => if a.toInt < b.toInt then b else a, fun w => BitVec.intMin w),
   (.vrmin, fun _ a b => if b.toInt < a.toInt then b else a, fun w => BitVec.intMax w),
   (.vrmaxu, fun _ a b => if a.toNat < b.toNat then b else a, fun _ => 0),
   (.vrminu, fun _ a b => if b.toNat < a.toNat then b else a, fun w => BitVec.allOnes w),
   (.vrand, fun _ a b => a &&& b, fun w => BitVec.allOnes w), (.vror, fun _ a b => a ||| b, fun _ => 0),
   (.vrxor, fun _ a b => a ^^^ b, fun _ => 0)]

/-- R55, R56: the sum of two nodes, of which one may be padding, which holds −0 and never changes a result's sign: x + (−0) = x also
where RM = RDN would make +0 + (−0) a −0. -/
def sumNode (pad : Bool) : LaneFp2 := fun F m a b => rounded2 FVal.add F (if pad then m &&& 0b111100#6 else m) a b

/-- R144: the floating-point reductions: node operation, told whether an operand is padding; padding; and the result when every lane
is masked. -/
noncomputable def fpReductions :
    List ((BitVec 2 → MReg → VName → VName → Instr) × (Bool → LaneFp2) × (FloatFmt → Nat) × (FloatFmt → Nat)) :=
  [(.vfrsum, sumNode, fun F => F.signBit true, fun _ => 0),
   (.vfrmax, fun _ F m a b => F.maxmin m true a b, fun F => F.infBits true, fun F => F.infBits true),
   (.vfrmin, fun _ F m a b => F.maxmin m false a b, fun F => F.infBits false, fun F => F.infBits false),
   (.vfrprod, fun _ => rounded2 (fun _ => FVal.mul), fun F => F.bias * 2 ^ F.fbits, fun F => F.bias * 2 ^ F.fbits)]

/-- R54: the pairwise tree over 2^d leaves, each a value and whether it is padding, with the flags of every node: node i of a level
combines i and i + half, and is padding when both are. -/
def tree (op : Bool → Nat → Nat → Nat × BitVec 5) : Nat → (Nat → Nat × Bool) → Nat × BitVec 5
  | 0, x => ((x 0).1, 0)
  | d + 1, x =>
    let y := fun i => x (i + 2 ^ d)
    let node := fun i => op ((x i).2 || (y i).2) (x i).1 (y i).1
    let up := tree op d (fun i => ((node i).1, (x i).2 && (y i).2))
    (up.1, up.2 ||| ((List.range (2 ^ d)).map (fun i => (node i).2)).foldl (fun a b => a ||| b) 0)

/-- R146: the permutes of two vectors: lane i from the n lanes of each. -/
noncomputable def permutes2 : List ((BitVec 2 → MReg → VName → VName → VName → Instr) × ((w : Nat) → (n : Nat) → (Nat → BitVec w) → (Nat → BitVec w) → Nat → BitVec w)) :=
  [(.vperm, fun _ n a b i => a ((b i).toNat % n)),
   (.vziplo, fun _ _ a b i => if i % 2 = 0 then a (i / 2) else b ((i - 1) / 2)),
   (.vziphi, fun _ n a b i => if i % 2 = 0 then a (n / 2 + i / 2) else b (n / 2 + (i - 1) / 2)),
   (.vunzipe, fun _ n a b i => if 2 * i < n then a (2 * i) else b (2 * i - n)),
   (.vunzipo, fun _ n a b i => if 2 * i + 1 < n then a (2 * i + 1) else b (2 * i + 1 - n))]

/-- R146: the permutes by a scalar s. -/
noncomputable def permutes1 : List ((BitVec 2 → MReg → VName → VName → SReg → Instr) × ((w : Nat) → (n s : Nat) → (Nat → BitVec w) → Nat → BitVec w)) :=
  [(.vrotl, fun _ n s a i => a (((i : Int) - s) % n).toNat), (.vslideup, fun _ _ s a i => if s ≤ i then a (i - s) else 0),
   (.vslidedn, fun _ n s a i => if i + s < n then a (i + s) else 0), (.vsplat, fun _ n s a _ => a (s % n))]

/-- The vector loads, contiguous, strided and of a circular buffer, of both spaces (R149, R155). -/
noncomputable def loadForms (esz : BitVec 2) (mk : MReg) (vd : VName) (a b : SReg) (c : CReg) : List Instr :=
  [.vld esz mk vd a b, .vlds esz mk vd a b, .vldsp esz mk vd a b, .vldsps esz mk vd a b, .vldc esz mk vd c b]
/-- The vector stores of the same forms. -/
noncomputable def storeForms (esz : BitVec 2) (mk : MReg) (vd : VName) (a b : SReg) (c : CReg) : List Instr :=
  [.vst esz mk vd a b, .vsts esz mk vd a b, .vstsp esz mk vd a b, .vstsps esz mk vd a b, .vstc esz mk vd c b]
/-- The gathers (R152). -/
noncomputable def gatherForms (esz : BitVec 2) (mk : MReg) (vd : VName) (a : SReg) (vb : VName) : List Instr :=
  [.vgath esz mk vd a vb, .vgathsp esz mk vd a vb]
/-- The scatters (R152). -/
noncomputable def scatterForms (esz : BitVec 2) (mk : MReg) (vd : VName) (a : SReg) (vb : VName) : List Instr :=
  [.vscat esz mk vd a vb, .vscatsp esz mk vd a vb]

/-- The vector instructions of every family, each with the vector names it reads and those it writes (R11 to R14). -/
noncomputable def vectorUses (esz : BitVec 2) (mk : MReg) (vd va vb : VName) (a b : SReg) (c : CReg) :
    List (Instr × List VName × List VName) :=
  laneOps.map (fun row => (row.1 esz mk vd va vb, [va, vb], [vd])) ++ laneUnary.map (fun row => (row.1 esz mk vd va, [va], [vd])) ++
  fpOps.map (fun row => (row.1 esz mk vd va vb, [va, vb], [vd])) ++ fpUnary.map (fun row => (row.1 esz mk vd va, [va], [vd])) ++
  fused.map (fun row => (row.1 esz mk vd va vb, [va, vb, vd], [vd])) ++ lane16Ops.map (fun row => (row.1 false vd va, [vd, va], [vd])) ++
  fp16Ops.map (fun row => (row.1 false vd va, [vd, va], [vd])) ++ maskCompares.map (fun row => (row.1 esz mk mk va vb, [va, vb], [])) ++
  fpCompares.map (fun row => (row.1 esz mk mk va vb, [va, vb], [])) ++ reductions.map (fun row => (row.1 esz mk vd va, [va], [vd])) ++
  fpReductions.map (fun row => (row.1 esz mk vd va, [va], [vd])) ++ permutes2.map (fun row => (row.1 esz mk vd va vb, [va, vb], [vd])) ++
  permutes1.map (fun row => (row.1 esz mk vd va b, [va], [vd])) ++ (loadForms esz mk vd a b c).map (fun i => (i, [], [vd])) ++
  (storeForms esz mk vd a b c).map (fun i => (i, [vd], [])) ++ (gatherForms esz mk vd a vb).map (fun i => (i, [vb], [vd])) ++
  (scatterForms esz mk vd a vb).map (fun i => (i, [vb, vd], [])) ++
  [(.vmac esz mk vd va vb, [va, vb, vd], [vd]), (.vbcast esz mk vd a, [], [vd]), (.vmov16 false vd va, [va], [vd]),
   (.vscan esz mk vd va, [va], [vd]), (.vfscan esz mk vd va, [va], [vd]), (.vcompress esz mk vd va, [va], [vd]),
   (.vexpand esz mk vd va, [va], [vd]), (.vext esz mk a va b, [va], []), (.vins esz mk vd a b, [], [vd]),
   (.vcvt 0x0A 0x09 0 mk vd va, [va], [vd])]

/-- R11: a name of a register whose slot is empty. -/
def emptySlot (t : Thread) (n : VName) : Prop := n.val < 28 ∧ t.slots.toList.getD (n.val / 4) none = none
/-- R14: an instruction that reads and writes the names given would raise an occupancy above 8. -/
def overfills (t : Thread) (reads writes : List VName) : Prop :=
  8 < t.ldq.length - reads.count 28 + writes.count 28 ∨ 8 < t.sdq.length - reads.count 29 + writes.count 29
/-- R14: it would take from a queue more than the queue holds. -/
def overdraws (t : Thread) (reads : List VName) : Prop := t.ldq.length < reads.count 28 ∨ t.sdq.length < reads.count 29

/-- The active lanes below i (R147). -/
def rank (m : Mask) (i : Nat) : Nat := ((List.range i).filter (fun j => m.getLsbD j)).length

end Sys2Proof.Claims

section
open Sys2Proof Sys2Proof.Machine

/-- R11, R12, R13: the vector names: a name below v28 is a register of its slot's block; v28 pops the oldest LDQ entry; v30 reads zero
and v31 the lane numbers; a write of v28 joins the LDQ (a load), of v29 the SDQ, of v30 and v31 nothing; a written register reads back,
and every other keeps its value. -/
def Sys2Proof.Claims.VectorRegisters : Prop :=
  ∀ (t : Thread) (w : Nat) (n : VName) (v : VReg), w = 8 ∨ w = 16 ∨ w = 32 ∨ w = 64 →
    (t.vRead w 28 = ({ t with ldq := t.ldq.drop 1 }, t.ldq.headD 0) ∧ t.vRead w 29 = ({ t with sdq := t.sdq.drop 1 }, t.sdq.headD 0) ∧
      t.vRead w 30 = (t, 0) ∧ (t.vRead w 31).1 = t ∧ ∀ i, i < 1024 / w → Claims.el w i (t.vRead w 31).2 = BitVec.ofNat w i) ∧
    (t.vWrite 28 v = { t with ldq := t.ldq ++ [v] } ∧ t.vWrite 29 v = { t with sdq := t.sdq ++ [v] } ∧ t.vWrite 30 v = t ∧
      t.vWrite 31 v = t) ∧
    (n.val < 28 → t.slots.toList.getD (n.val / 4) none ≠ none →
      (t.vRead w n).1 = t ∧ ((t.vWrite n v).vRead w n).2 = v ∧ (t.vWrite n v).ldq = t.ldq ∧
      ∀ k : VName, k.val < 28 → k ≠ n → ((t.vWrite n v).vRead w k).2 = (t.vRead w k).2)

/-- R11, R14, R150: a vector instruction of any family that names a register of an empty slot raises VSLOT_EMPTY; else one that would
raise the occupancy of a queue above 8 QUEUE_OVERFLOW; else one that would take more entries from a queue than it holds QUEUE_UNDERFLOW;
none of them has any other effect. -/
def Sys2Proof.Claims.SlotAndQueueFaults : Prop :=
  ∀ (esz : BitVec 2) (mk : MReg) (vd va vb : VName) (a b : SReg) (c : CReg) (s : State),
    ∀ row ∈ Claims.vectorUses esz mk vd va vb a b c,
      let names := row.2.1 ++ row.2.2
      ((∃ n ∈ names, Claims.emptySlot s.me n) → exec row.1 s = .next (Claims.trapped .VSLOT_EMPTY s)) ∧
      ((∀ n ∈ names, ¬Claims.emptySlot s.me n) →
        (Claims.overfills s.me row.2.1 row.2.2 → exec row.1 s = .next (Claims.trapped .QUEUE_OVERFLOW s)) ∧
        (¬Claims.overfills s.me row.2.1 row.2.2 → Claims.overdraws s.me row.2.1 →
          exec row.1 s = .next (Claims.trapped .QUEUE_UNDERFLOW s)))

/-- R134, R72, R132: integer lanes: an active lane takes the row's value and an inactive one keeps its own; no flag is raised. -/
def Obligations.IntegerLanes : Prop :=
  ∀ (esz : BitVec 2) (mk : MReg) (vd va vb : VName) (a : SReg) (s : State),
    let w := 8 * 2 ^ esz.toNat
    let act := fun (i : Nat) => (s.me.rm mk).getLsbD i
    let old := s.me.vOld vd
    (∀ row ∈ Claims.laneOps, Claims.vectorOk s [va, vb] [vd] →
      let x := Claims.sources s w [va, vb]
      ∃ v, exec (row.1 esz mk vd va vb) s = .next (Claims.vectorDone 4 s x.1 vd v 0) ∧
        ∀ i, i < 1024 / w → Claims.el w i v = if act i then row.2 w (Claims.el w i x.2.1) (Claims.el w i x.2.2) else Claims.el w i old) ∧
    (∀ row ∈ Claims.laneUnary, Claims.vectorOk s [va] [vd] →
      let x := Claims.sources s w [va]
      ∃ v, exec (row.1 esz mk vd va) s = .next (Claims.vectorDone 4 s x.1 vd v 0) ∧
        ∀ i, i < 1024 / w → Claims.el w i v = if act i then row.2 w (Claims.el w i x.2.1) else Claims.el w i old) ∧
    (Claims.vectorOk s [] [vd] → ∃ v, exec (.vbcast esz mk vd a) s = .next (Claims.vectorDone 4 s s.me vd v 0) ∧
      ∀ i, i < 1024 / w → Claims.el w i v = if act i then (s.me.rs a).setWidth w else Claims.el w i old) ∧
    (Claims.vectorOk s [va, vb, vd] [vd] → esz ≠ 3 →
      let r := s.me.vReads w [va, vb, vd]
      ∃ v, exec (.vmac esz mk vd va vb) s = .next (Claims.vectorDone 4 s r.1 vd v 0) ∧
        ∀ i, i < 1024 / w → Claims.el w i v =
          if act i then Claims.el w i (r.2.getD 2 0) + Claims.el w i (r.2.getD 0 0) * Claims.el w i (r.2.getD 1 0)
          else Claims.el w i old)

/-- R64, R135: the 16-bit forms work on every lane of vd and vs, of 32 bits for w = 0 and 16 for w = 1, and are two bytes long. -/
def Obligations.SixteenBitForms : Prop :=
  ∀ (wide : Bool) (vd vs : VName) (s : State),
    let w := if wide then 16 else 32
    let F := if wide then bfloat16 else binary32
    let x := Claims.sources s w [vd, vs]
    (Claims.vectorOk s [vd, vs] [vd] →
      (∀ row ∈ Claims.lane16Ops, ∃ v, exec (row.1 wide vd vs) s = .next (Claims.vectorDone 2 s x.1 vd v 0) ∧
        ∀ i, i < 1024 / w → Claims.el w i v = row.2 w (Claims.el w i x.2.1) (Claims.el w i x.2.2)) ∧
      (∀ row ∈ Claims.fp16Ops,
        let r := fun i => row.2 F s.me.fpm (Claims.el w i x.2.1).toNat (Claims.el w i x.2.2).toNat
        ∃ v, exec (row.1 wide vd vs) s =
            .next (Claims.vectorDone 2 s x.1 vd v (Claims.laneFlags w (BitVec.allOnes 128) (fun i => (r i).2))) ∧
          ∀ i, i < 1024 / w → Claims.el w i v = BitVec.ofNat w (r i).1)) ∧
    (Claims.vectorOk s [vs] [vd] →
      exec (.vmov16 wide vd vs) s = .next (Claims.vectorDone 2 s (s.me.vRead w vs).1 vd (s.me.vRead w vs).2 0))

/-- R133, R136 to R138, R140: floating-point lanes in bfloat16, binary32 or binary64: each active lane is the row's result under the
thread's FPM, the others keep their values, and FPF takes the OR of the active lanes' flags. -/
def Obligations.FloatingLanes : Prop :=
  ∀ (esz : BitVec 2) (mk : MReg) (vd va vb : VName) (s : State), esz ≠ 0 →
    let w := 8 * 2 ^ esz.toNat
    let F := eszF esz
    let m := s.me.rm mk
    let old := s.me.vOld vd
    (∀ row ∈ Claims.fpOps, Claims.vectorOk s [va, vb] [vd] →
      let x := Claims.sources s w [va, vb]
      let r := fun i => row.2 F s.me.fpm (Claims.el w i x.2.1).toNat (Claims.el w i x.2.2).toNat
      ∃ v, exec (row.1 esz mk vd va vb) s = .next (Claims.vectorDone 4 s x.1 vd v (Claims.laneFlags w m (fun i => (r i).2))) ∧
        ∀ i, i < 1024 / w → Claims.el w i v = if m.getLsbD i then BitVec.ofNat w (r i).1 else Claims.el w i old) ∧
    (∀ row ∈ Claims.fpUnary, Claims.vectorOk s [va] [vd] →
      let x := Claims.sources s w [va]
      let r := fun i => row.2 F s.me.fpm (Claims.el w i x.2.1).toNat
      ∃ v, exec (row.1 esz mk vd va) s = .next (Claims.vectorDone 4 s x.1 vd v (Claims.laneFlags w m (fun i => (r i).2))) ∧
        ∀ i, i < 1024 / w → Claims.el w i v = if m.getLsbD i then BitVec.ofNat w (r i).1 else Claims.el w i old) ∧
    (∀ row ∈ Claims.fused, Claims.vectorOk s [va, vb, vd] [vd] →
      let q := s.me.vReads w [va, vb, vd]
      let o := fun k i => F.operand s.me.fpm (Claims.el w i (q.2.getD k 0)).toNat
      let r := fun i => F.finish s.me.fpm (row.2 s.me.fpm (o 0 i) (o 1 i) (o 2 i))
      ∃ v, exec (row.1 esz mk vd va vb) s = .next (Claims.vectorDone 4 s q.1 vd v (Claims.laneFlags w m (fun i => (r i).2))) ∧
        ∀ i, i < 1024 / w → Claims.el w i v = if m.getLsbD i then BitVec.ofNat w (r i).1 else Claims.el w i old)

/-- R141, R142: compares write the bits of the active lanes of a mask register, keep the other lanes' bits and clear those above; the
mask-logic forms act on all 128 bits. -/
def Obligations.MaskResults : Prop :=
  ∀ (esz : BitVec 2) (mk md : MReg) (va vb : VName) (ma mb : MReg) (s : State),
    let w := 8 * 2 ^ esz.toNat
    let act := fun (i : Nat) => (s.me.rm mk).getLsbD i
    let x := Claims.sources s w [va, vb]
    let lanes := fun (r : Mask) (f : Nat → Bool) =>
      ∀ i, r.getLsbD i = if i < 1024 / w then (if act i then f i else (s.me.rm md).getLsbD i) else false
    (Claims.vectorOk s [va, vb] [] →
      (∀ row ∈ Claims.maskCompares, ∃ r, exec (row.1 esz mk md va vb) s = .next (Claims.after 4 (fun _ => x.1.wm md r) s) ∧
        lanes r (fun i => row.2 w (Claims.el w i x.2.1) (Claims.el w i x.2.2))) ∧
      (esz ≠ 0 → ∀ row ∈ Claims.fpCompares,
        let c := fun i => row.2 ((eszF esz).operand s.me.fpm (Claims.el w i x.2.1).toNat) ((eszF esz).operand s.me.fpm (Claims.el w i x.2.2).toNat)
        ∃ r, exec (row.1 esz mk md va vb) s = .next (Claims.after 4 (fun _ => (x.1.wm md r).orFlags
            (if ∃ i < 1024 / w, act i = true ∧ (c i).2 = true then 1 else 0)) s) ∧
          lanes r (fun i => (c i).1))) ∧
    (s.me.mayRetire →
      exec (.vmand md ma mb) s = .next (Claims.after 4 (fun t => t.wm md (t.rm ma &&& t.rm mb)) s) ∧
      exec (.vmor md ma mb) s = .next (Claims.after 4 (fun t => t.wm md (t.rm ma ||| t.rm mb)) s) ∧
      exec (.vmxor md ma mb) s = .next (Claims.after 4 (fun t => t.wm md (t.rm ma ^^^ t.rm mb)) s) ∧
      exec (.vmnot md ma) s = .next (Claims.after 4 (fun t => t.wm md (~~~t.rm ma)) s))

/-- R45, R48, R49: a conversion of a finite number to a binary format or F8, where SUB flushes nothing, rounds its value: by the values of
the encodings alone. -/
def Sys2Proof.Claims.Rounding : Prop :=
  ∀ (code : Nat) (src : Elem) (F : FloatFmt) (fpm : BitVec 6) (sat : Bool) (x : Nat) (v : Int),
    elemOf code = some src → F ∈ Claims.formats → Claims.exact src x = some v → fpm.extractLsb' 2 2 = 0 →
    Claims.rounds F fpm v (convert src (.flt F) fpm sat x)

/-- R50: a conversion of a floating-point number to an integer, where SUB flushes nothing: in the range the integer that the mode selects,
with PE when it differs; beyond the range, infinities included, the nearest bound with NV alone; a NaN gives 0 with NV. -/
def Sys2Proof.Claims.ToInteger : Prop :=
  ∀ (code : Nat) (F : FloatFmt) (sg : Bool) (w : Nat) (fpm : BitVec 6) (x : Nat),
    F ∈ Claims.formats → elemOf code = some (.int sg w) → fpm.extractLsb' 2 2 = 0 →
    let r := convert (.flt F) (.int sg w) fpm false x
    let rm := (fpm.extractLsb' 0 2).toNat
    let n := Claims.integer sg w r.1
    let lo : Int := if sg then -2 ^ (w - 1) else 0
    let hi : Int := if sg then 2 ^ (w - 1) - 1 else 2 ^ w - 1
    let one := Claims.one
    let v := Claims.value F x
    r.1 < 2 ^ w ∧
    (Claims.finite F x = true → lo * one ≤ v → v ≤ hi * one →
      (rm = 0 → 2 * Claims.mag (n * one - v) ≤ one ∧ (2 * Claims.mag (n * one - v) = one → n % 2 = 0)) ∧
      (rm = 1 → Claims.mag (n * one) ≤ Claims.mag v ∧ Claims.mag v < Claims.mag (n * one) + one ∧ 0 ≤ n * v) ∧
      (rm = 2 → v ≤ n * one ∧ n * one < v + one) ∧ (rm = 3 → n * one ≤ v ∧ v < n * one + one) ∧
      r.2 = if n * one = v then 0 else 0b10000) ∧
    (Claims.finite F x = true → v ≤ (lo - 1) * one → n = lo ∧ r.2 = 1) ∧
    (Claims.finite F x = true → (hi + 1) * one ≤ v → n = hi ∧ r.2 = 1) ∧
    (Claims.finite F x = false →
      r.2 = 1 ∧ n = if F.f8 = true ∨ x % 2 ^ F.fbits ≠ 0 then 0 else if x.testBit (F.width - 1) then lo else hi)

/-- R143: VCVT converts the active lanes below n = 1024 / max(ws, wd), keeps the inactive ones, and, when it narrows, clears the lanes
from n upward. -/
def Sys2Proof.Claims.LaneConversions : Prop :=
  ∀ (sf df : BitVec 5) (cv : BitVec 2) (mk : MReg) (vd va : VName) (s : State) (ks kd : Elem),
    elemOf sf.toNat = some ks → elemOf df.toNat = some kd → Claims.vectorOk s [va] [vd] →
    let x := Claims.sources s ks.width [va]
    let n := 1024 / Nat.max ks.width kd.width
    let m := s.me.rm mk
    let fpm := if cv = 2 then (s.me.fpm &&& 0b111100#6) ||| 1#6 else s.me.fpm
    let r := fun i => convert ks kd fpm (cv == 1) (Claims.el ks.width i x.2.1).toNat
    ∃ v fl, exec (.vcvt sf df cv mk vd va) s = .next (Claims.vectorDone 4 s x.1 vd v fl) ∧
      fl = ((List.range n).map (fun i => if m.getLsbD i then (r i).2 else 0)).foldl (fun a b => a ||| b) 0 ∧
      (∀ i, i < n → Claims.el kd.width i v = if m.getLsbD i then BitVec.ofNat kd.width (r i).1 else Claims.el kd.width i (s.me.vOld vd)) ∧
      (∀ i, n ≤ i → i < 1024 / kd.width → Claims.el kd.width i v = 0)

/-- R36, R45 to R50, R143: conversions of lanes, and the values of the results of rounding. -/
def Obligations.Conversions : Prop := Claims.LaneConversions ∧ Claims.Rounding ∧ Claims.ToInteger

/-- R144, R54, R55: a reduction leaves its result in lane 0 and zero in every other lane: over integers the fold of the active lanes
from the identity, over floating-point numbers the tree of R54 over the lanes padded with the identity. -/
def Sys2Proof.Claims.Reductions : Prop :=
  ∀ (esz : BitVec 2) (mk : MReg) (vd va : VName) (s : State), Claims.vectorOk s [va] [vd] →
    let w := 8 * 2 ^ esz.toNat
    let n := 1024 / w
    let m := s.me.rm mk
    let x := Claims.sources s w [va]
    (∀ row ∈ Claims.reductions,
      let r := (((List.range n).filter (fun i => m.getLsbD i)).map (fun i => Claims.el w i x.2.1)).foldl (row.2.1 w) (row.2.2 w)
      exec (row.1 esz mk vd va) s = .next (Claims.vectorDone 4 s x.1 vd (r.setWidth 1024) 0)) ∧
    (esz ≠ 0 → ∀ row ∈ Claims.fpReductions,
      let F := eszF esz
      let leaf := fun i => if m.getLsbD i then ((Claims.el w i x.2.1).toNat, false) else (row.2.2.1 F, true)
      let r := Claims.tree (fun pad => row.2.1 pad F s.me.fpm) (Nat.log2 n) leaf
      let empty := ∀ i, i < n → m.getLsbD i = false
      ∃ v, exec (row.1 esz mk vd va) s = .next (Claims.vectorDone 4 s x.1 vd v r.2) ∧
        (¬empty → v = BitVec.ofNat 1024 (r.1 % 2 ^ w)) ∧ (empty → v = BitVec.ofNat 1024 (row.2.2.2 F)))

/-- R145: VSCAN leaves in each active lane the sum, modulo 2^w, of the active lanes up to it; VFSCAN works in the steps of the rule, each
node rounded, and raises the flags of the nodes that enter an active lane's result; inactive lanes are kept. -/
def Sys2Proof.Claims.Scans : Prop :=
  ∀ (esz : BitVec 2) (mk : MReg) (vd va : VName) (s : State), Claims.vectorOk s [va] [vd] →
    let w := 8 * 2 ^ esz.toNat
    let n := 1024 / w
    let m := s.me.rm mk
    let x := Claims.sources s w [va]
    (∃ v, exec (.vscan esz mk vd va) s = .next (Claims.vectorDone 4 s x.1 vd v 0) ∧
      ∀ i, i < n → Claims.el w i v = if m.getLsbD i then
        (((List.range (i + 1)).filter (fun j => m.getLsbD j)).map (fun j => Claims.el w j x.2.1)).foldl (fun a b => a + b) 0
        else Claims.el w i (s.me.vOld vd)) ∧
    (esz ≠ 0 →
      let F := eszF esz
      let node := fun (a b : Nat × Bool) => Claims.sumNode (a.2 || b.2) F s.me.fpm a.1 b.1
      let start : Nat → Nat × Bool := fun i => if m.getLsbD i then ((Claims.el w i x.2.1).toNat, false) else (F.signBit true, true)
      let step := fun (y : Nat → Nat × Bool) (k : Nat) => fun i =>
        if 2 ^ k ≤ i then ((node (y (i - 2 ^ k)) (y i)).1, (y (i - 2 ^ k)).2 && (y i).2) else y i
      let before := fun k => (List.range k).foldl step start
      let final := before (Nat.log2 n)
      ∃ v fl, exec (.vfscan esz mk vd va) s = .next (Claims.vectorDone 4 s x.1 vd v fl) ∧
        (∀ b, fl.getLsbD b = true ↔ ∃ k < Nat.log2 n, ∃ j < n, 2 ^ k ≤ j ∧
          (∃ i < n, m.getLsbD i = true ∧ j ≤ i ∧ (i - j) % (2 * 2 ^ k) = 0) ∧
          (node (before k (j - 2 ^ k)) (before k j)).2.getLsbD b = true) ∧
        ∀ i, i < n → Claims.el w i v = if m.getLsbD i then BitVec.ofNat w (final i).1 else Claims.el w i (s.me.vOld vd))

/-- R146 to R148: permutes and lane moves. -/
def Obligations.PermutesAndMoves : Prop :=
  ∀ (esz : BitVec 2) (mk md : MReg) (vd va vb : VName) (a b d : SReg) (s : State),
    let w := 8 * 2 ^ esz.toNat
    let n := 1024 / w
    let m := s.me.rm mk
    let old := s.me.vOld vd
    let x := Claims.sources s w [va]
    (∀ row ∈ Claims.permutes2, Claims.vectorOk s [va, vb] [vd] →
      let y := Claims.sources s w [va, vb]
      ∃ v, exec (row.1 esz mk vd va vb) s = .next (Claims.vectorDone 4 s y.1 vd v 0) ∧ ∀ i, i < n → Claims.el w i v =
        if m.getLsbD i then row.2 w n (fun j => Claims.el w j y.2.1) (fun j => Claims.el w j y.2.2) i else Claims.el w i old) ∧
    (Claims.vectorOk s [va] [vd] →
      (∀ row ∈ Claims.permutes1, ∃ v, exec (row.1 esz mk vd va b) s = .next (Claims.vectorDone 4 s x.1 vd v 0) ∧
        ∀ i, i < n → Claims.el w i v =
          if m.getLsbD i then row.2 w n (s.me.rs b).toNat (fun j => Claims.el w j x.2.1) i else Claims.el w i old) ∧
      (∃ v, exec (.vcompress esz mk vd va) s = .next (Claims.vectorDone 4 s x.1 vd v 0) ∧
        (∀ i, i < n → m.getLsbD i = true → Claims.el w (Claims.rank m i) v = Claims.el w i x.2.1) ∧
        ∀ i, Claims.rank m n ≤ i → i < n → Claims.el w i v = 0) ∧
      (∃ v, exec (.vexpand esz mk vd va) s = .next (Claims.vectorDone 4 s x.1 vd v 0) ∧
        ∀ i, i < n → Claims.el w i v = if m.getLsbD i then Claims.el w (Claims.rank m i) x.2.1 else Claims.el w i old)) ∧
    (Claims.vectorOk s [va] [] →
      exec (.vext esz mk d va b) s = .next (Claims.after 4 (fun _ => x.1.ws d
        (if m.getLsbD ((s.me.rs b).toNat % n) then (Claims.el w ((s.me.rs b).toNat % n) x.2.1).setWidth 64 else 0)) s)) ∧
    (Claims.vectorOk s [] [vd] → ∃ v, exec (.vins esz mk vd a b) s = .next (Claims.vectorDone 4 s s.me vd v 0) ∧
      ∀ i, i < n → Claims.el w i v =
        if i = (s.me.rs b).toNat % n ∧ m.getLsbD i = true then (s.me.rs a).setWidth w else Claims.el w i old) ∧
    (s.me.mayRetire →
      exec (.vmtos d mk) s = .next (Claims.after 4 (fun t => t.ws d ((t.rm mk).setWidth 64)) s) ∧
      exec (.vmtosh d mk) s = .next (Claims.after 4 (fun t => t.ws d ((t.rm mk >>> 64).setWidth 64)) s) ∧
      exec (.vstom md a b) s = .next (Claims.after 4 (fun t => t.wm md (t.rs b ++ t.rs a)) s) ∧
      exec (.mpop d mk) s =
        .next (Claims.after 4 (fun t => t.ws d (BitVec.ofNat 64 ((List.range 128).countP (fun i => (t.rm mk).getLsbD i)))) s))

/-- R11 to R14: the names of vector registers and the faults of their slots and queues. -/
def Obligations.VectorNames : Prop := Claims.VectorRegisters ∧ Claims.SlotAndQueueFaults

/-- R54, R55, R144, R145: reductions and scans. -/
def Obligations.ReductionsAndScans : Prop := Claims.Reductions ∧ Claims.Scans

end

namespace Sys2Proof.Claims
open Sys2Proof.Machine


/-- R149: the address of lane i: the contiguous form, or with `strided` the strided one. -/
def laneAddress (s : State) (strided : Bool) (esz : BitVec 2) (a b : SReg) (i : Nat) : Nat :=
  (if strided then s.me.rs a + BitVec.ofNat 64 i * s.me.rs b else s.me.rs a + s.me.rs b + BitVec.ofNat 64 (i * 2 ^ esz.toNat)).toNat

/-- R152: the address of lane i of a gather or scatter with offsets y. -/
def gatherAddress (s : State) (esz : BitVec 2) (a : SReg) (y : VReg) (i : Nat) : Nat :=
  (s.me.rs a + (el (8 * 2 ^ esz.toNat) i y).signExtend 64).toNat

/-- The active lanes, ascending. -/
def active (esz : BitVec 2) (m : Mask) : List Nat := (List.range (1024 / (8 * 2 ^ esz.toNat))).filter (fun i => m.getLsbD i)

/-- Every active lane's element is aligned and lies in the scratchpad, for a load unpoisoned (R392), and for a store outside the constant
window of a user thread. -/
def lanesInScratch (s : State) (esz : BitVec 2) (m : Mask) (addr : Nat → Nat) (write : Bool) : Prop :=
  ∀ i ∈ active esz m, addr i % 2 ^ esz.toNat = 0 ∧ addr i + 2 ^ esz.toNat ≤ s.myCore.scratchSize ∧
    (if write then s.me.bind.sup = true ∨ 0x400 ≤ addr i else s.myCore.poisonedAt (addr i) (2 ^ esz.toNat) = false)

/-- Every active lane's element is aligned and its line stands in the L1 with the permission, for a load with its bytes valid
and unpoisoned. -/
def lanesInL1 (s : State) (esz : BitVec 2) (m : Mask) (addr : Nat → Nat) (write : Bool) : Prop :=
  ∀ i ∈ active esz m, addr i % 2 ^ esz.toNat = 0 ∧ ∃ k, s.myCore.lineIx s.me.bind.asid (addr i) = some k ∧
    (if write then (s.myCore.lineAt k).wr = true
    else (s.myCore.lineAt k).rd = true ∧ (s.myCore.lineAt k).valid = 3 ∧ (s.myCore.lineAt k).poison = 0)

/-- What a vector load leaves: the thread `t` with vd holding v, whose active lanes hold the bytes that `byte` gives at their
addresses; memory, scratchpads and caches as they were. -/
def loaded (s : State) (i : Instr) (t : Thread) (esz : BitVec 2) (m : Mask) (vd : VName) (addr : Nat → Nat) (byte : Nat → Byte) : Prop :=
  ∃ v, exec i s = .next (after 4 (fun _ => t.vWrite vd v) s) ∧
    ∀ l, l < 1024 / (8 * 2 ^ esz.toNat) →
      if m.getLsbD l then ∀ b, b < 2 ^ esz.toNat → (el (8 * 2 ^ esz.toNat) l v).extractLsb' (8 * b) 8 = byte (addr l + b)
      else el (8 * 2 ^ esz.toNat) l v = el (8 * 2 ^ esz.toNat) l (s.me.vOld vd)

/-- What a scratch store of a vector leaves: its active lanes written in ascending order, nothing else of the scratchpad, and the
queues as the sources left them. -/
def stored (s : State) (i : Instr) (t : Thread) (esz : BitVec 2) (m : Mask) (addr : Nat → Nat) (data : VReg) : Prop :=
  ∃ u, exec i s = .next u ∧
    (u.core s.cur.coreKey).scratch = (active esz m).foldl (fun mem l =>
      mem.writeBytes (addr l) (leBytes (2 ^ esz.toNat) (el (8 * 2 ^ esz.toNat) l data).toNat)) s.myCore.scratch ∧
    (u.core s.cur.coreKey).fe = s.myCore.fe ∧ u.me = { t.retire (s.me.pc + 4) with status := .ready } ∧ u.mem = s.mem

/-- The byte of an address in the line that the current core's L1 holds for it. -/
def l1Byte (s : State) (a : Nat) : Byte :=
  match s.myCore.lineIx s.me.bind.asid a with
  | some k => (s.myCore.lineAt k).data.extractLsb' (8 * (a % 256)) 8
  | none => 0

/-- What a global store of a vector whose lines stand in the L1 leaves: in the lines, the bytes of the active lanes, of two lanes that meet
those of the higher (R152), dirty, and every other byte of a line as it was; memory and the scratchpad unchanged; and the queues as the
sources left them. -/
def storedInL1 (s : State) (i : Instr) (t : Thread) (esz : BitVec 2) (m : Mask) (addr : Nat → Nat) (data : VReg) : Prop :=
  ∃ u, exec i s = .next u ∧ u.mem = s.mem ∧ u.me = { t.retire (s.me.pc + 4) with status := .ready } ∧
    (u.core s.cur.coreKey).scratch = s.myCore.scratch ∧
    (∀ x, l1Byte u x =
      match (active esz m).reverse.find? (fun l => decide (addr l ≤ x) && decide (x < addr l + 2 ^ esz.toNat)) with
      | some l => (el (8 * 2 ^ esz.toNat) l data).extractLsb' (8 * (x - addr l)) 8
      | none => l1Byte s x) ∧
    ∀ l ∈ active esz m, ∀ b, b < 2 ^ esz.toNat →
      ∃ k, u.myCore.lineIx s.me.bind.asid (addr l + b) = some k ∧ (u.myCore.lineAt k).dirty.getLsbD ((addr l + b) % 256) = true

/-- Lane l is the lowest active one whose address fails a test. -/
def lowestLane (esz : BitVec 2) (m : Mask) (addr : Nat → Nat) (bad : Nat → Prop) (l : Nat) : Prop :=
  l ∈ active esz m ∧ bad (addr l) ∧ ∀ j ∈ active esz m, bad (addr j) → l ≤ j

/-- An instruction stops with a fault of an access at an address. -/
def faultsAt (s : State) (i : Instr) (c : Cause) (a : Nat) (kind : BitVec 2) : Prop :=
  exec i s = .next (s.freeze s.cur ⟨c, BitVec.ofNat 64 a, 0, kind⟩)

/-- R150: the faults of a vector access of lane addresses, after the slot and queue checks, in their order, each at its lowest lane: a
scratch form's SCRATCH_RANGE and, for a user-level store, KWIN_WRITE, follow MISALIGNED_DATA. -/
def laneFaults (s : State) (i : Instr) (esz : BitVec 2) (m : Mask) (addr : Nat → Nat) (sp write : Bool) : Prop :=
  let n := 2 ^ esz.toNat
  let kind := if write then 1 else 0
  (∀ l, lowestLane esz m addr (fun a => a % n ≠ 0) l → faultsAt s i .MISALIGNED_DATA (addr l) kind) ∧
  (sp = true → (∀ l ∈ active esz m, addr l % n = 0) →
    (∀ l, lowestLane esz m addr (fun a => s.myCore.scratchSize < a + n) l → faultsAt s i .SCRATCH_RANGE (addr l) kind) ∧
    ((∀ l ∈ active esz m, addr l + n ≤ s.myCore.scratchSize) → write = true → s.me.bind.sup = false →
      ∀ l, lowestLane esz m addr (fun a => a < 0x400) l → faultsAt s i .KWIN_WRITE (addr l) kind))

end Sys2Proof.Claims

section
open Sys2Proof Sys2Proof.Machine

/-- R149 to R152: vector loads and stores, gathers and scatters of scratch, for a kernel thread: every active lane's element is read or
written at its address; inactive lanes make no access. -/
def Sys2Proof.Claims.ScratchVectors : Prop :=
  ∀ (strided : Bool) (esz : BitVec 2) (mk : MReg) (vd vb : VName) (a b : SReg) (s : State), Claims.plainThread s →
    let m := s.me.rm mk
    let w := 8 * 2 ^ esz.toNat
    let addr := Claims.laneAddress s strided esz a b
    let y := s.me.vRead w vb
    let gat := Claims.gatherAddress s esz a y.2
    (vCheck s.me [] [vd] = .ok () → Claims.lanesInScratch s esz m addr false →
      Claims.loaded s ((if strided then Instr.vldsps else .vldsp) esz mk vd a b) s.me esz m vd addr s.myCore.scratch.read) ∧
    (vCheck s.me [vb] [vd] = .ok () → Claims.lanesInScratch s esz m gat false →
      Claims.loaded s (.vgathsp esz mk vd a vb) y.1 esz m vd gat s.myCore.scratch.read) ∧
    (vCheck s.me [vd] [] = .ok () → Claims.lanesInScratch s esz m addr true →
      Claims.stored s ((if strided then Instr.vstsps else .vstsp) esz mk vd a b) (s.me.vRead w vd).1 esz m addr (s.me.vRead w vd).2) ∧
    (vCheck s.me [vb, vd] [] = .ok () → Claims.lanesInScratch s esz m gat true →
      Claims.stored s (.vscatsp esz mk vd a vb) (y.1.vRead w vd).1 esz m gat (y.1.vRead w vd).2)

/-- R149, R152, R203: the global forms, when every active lane's line stands in the core's L1: the loads take their bytes from it, and
the stores leave theirs in it. -/
def Sys2Proof.Claims.GlobalVectors : Prop :=
  ∀ (strided : Bool) (esz : BitVec 2) (mk : MReg) (vd vb : VName) (a b : SReg) (s : State), Claims.plainThread s →
    let m := s.me.rm mk
    let w := 8 * 2 ^ esz.toNat
    let addr := Claims.laneAddress s strided esz a b
    let y := s.me.vRead w vb
    let gat := Claims.gatherAddress s esz a y.2
    (vCheck s.me [] [vd] = .ok () → Claims.lanesInL1 s esz m addr false →
      Claims.loaded s ((if strided then Instr.vlds else .vld) esz mk vd a b) s.me esz m vd addr (Claims.l1Byte s)) ∧
    (vCheck s.me [vb] [vd] = .ok () → Claims.lanesInL1 s esz m gat false →
      Claims.loaded s (.vgath esz mk vd a vb) y.1 esz m vd gat (Claims.l1Byte s)) ∧
    (vCheck s.me [vd] [] = .ok () → Claims.lanesInL1 s esz m addr true →
      Claims.storedInL1 s ((if strided then Instr.vsts else .vst) esz mk vd a b) (s.me.vRead w vd).1 esz m addr (s.me.vRead w vd).2) ∧
    (vCheck s.me [vb, vd] [] = .ok () → Claims.lanesInL1 s esz m gat true →
      Claims.storedInL1 s (.vscat esz mk vd a vb) (y.1.vRead w vd).1 esz m gat (y.1.vRead w vd).2)

/-- R150: the faults of vector loads, stores, gathers and scatters of a kernel thread, none of which has any other effect. The address and
kind in the packet of a scratch access follow the model's reading of R373 and R378 (log entry 56). -/
def Sys2Proof.Claims.VectorFaults : Prop :=
  ∀ (strided : Bool) (esz : BitVec 2) (mk : MReg) (vd vb : VName) (a b : SReg) (s : State), s.me.bind.txn = false →
    let m := s.me.rm mk
    let addr := Claims.laneAddress s strided esz a b
    let gat := Claims.gatherAddress s esz a (s.me.vRead (8 * 2 ^ esz.toNat) vb).2
    (vCheck s.me [] [vd] = .ok () →
      Claims.laneFaults s ((if strided then Instr.vlds else .vld) esz mk vd a b) esz m addr false false ∧
      Claims.laneFaults s ((if strided then Instr.vldsps else .vldsp) esz mk vd a b) esz m addr true false) ∧
    (vCheck s.me [vd] [] = .ok () →
      Claims.laneFaults s ((if strided then Instr.vsts else .vst) esz mk vd a b) esz m addr false true ∧
      Claims.laneFaults s ((if strided then Instr.vstsps else .vstsp) esz mk vd a b) esz m addr true true) ∧
    (vCheck s.me [vb] [vd] = .ok () →
      Claims.laneFaults s (.vgath esz mk vd a vb) esz m gat false false ∧ Claims.laneFaults s (.vgathsp esz mk vd a vb) esz m gat true false) ∧
    (vCheck s.me [vb, vd] [] = .ok () →
      Claims.laneFaults s (.vscat esz mk vd a vb) esz m gat false true ∧ Claims.laneFaults s (.vscatsp esz mk vd a vb) esz m gat true true)

/-- R154 to R158: circular buffers: VLDC and VSTC access the ring from HEAD and from TAIL; CBPOP and CBPUSH move the pointers; a wait whose
condition holds retires, one that an outstanding job could end waits, one that no job could end raises CB_STALL; CBWAIT_END lets a
waiting thread go on, or raises CB_STALL. Every form raises CB_INVALID first on a handle that is not valid. A job of the same role
outstanding on the handle raises CB_BUSY (R339), before the checks of the ring; an element outside the slots, and a wait for more slots
than the ring has, raise CB_RANGE. -/
def Obligations.CircularBuffers : Prop :=
  ∀ (c : CReg) (n : BitVec 8) (esz : BitVec 2) (mk : MReg) (vd : VName) (b : SReg) (s : State), Claims.plainThread s →
    let k := s.me.rc c
    let m := s.me.rm mk
    let w := 8 * 2 ^ esz.toNat
    let o := fun (i : Nat) => (s.me.rs b).toNat + i * 2 ^ esz.toNat
    let ring := fun (slot : BitVec 8) (i : Nat) =>
      k.base.toNat + (slot.toNat * k.slotsz.toNat + o i) % (k.count.toNat * k.slotsz.toNat)
    let inRing := fun (room : Nat) => ∀ i ∈ Claims.active esz m, o i + 2 ^ esz.toNat ≤ room
    (k.valid = false →
      (vCheck s.me [] [vd] = .ok () → exec (.vldc esz mk vd c b) s = .next (Claims.trapped .CB_INVALID s)) ∧
      (vCheck s.me [vd] [] = .ok () → exec (.vstc esz mk vd c b) s = .next (Claims.trapped .CB_INVALID s)) ∧
      ∀ i ∈ [Instr.cbpop c n, .cbpush c n, .cbwaitf c n, .cbwaite c n], exec i s = .next (Claims.trapped .CB_INVALID s)) ∧
    (k.valid = true →
      (s.cbDraining s.cur c = true →
        (vCheck s.me [] [vd] = .ok () → exec (.vldc esz mk vd c b) s = .next (Claims.trapped .CB_BUSY s)) ∧
        exec (.cbpop c n) s = .next (Claims.trapped .CB_BUSY s)) ∧
      (s.cbFilling s.cur c = true →
        (vCheck s.me [vd] [] = .ok () → exec (.vstc esz mk vd c b) s = .next (Claims.trapped .CB_BUSY s)) ∧
        exec (.cbpush c n) s = .next (Claims.trapped .CB_BUSY s)) ∧
      (vCheck s.me [] [vd] = .ok () → s.cbDraining s.cur c = false → ¬inRing (k.fill.toNat * k.slotsz.toNat) →
        exec (.vldc esz mk vd c b) s = .next (Claims.trapped .CB_RANGE s)) ∧
      (vCheck s.me [vd] [] = .ok () → s.cbFilling s.cur c = false → ¬inRing ((k.count.toNat - k.fill.toNat) * k.slotsz.toNat) →
        exec (.vstc esz mk vd c b) s = .next (Claims.trapped .CB_RANGE s)) ∧
      (k.count.toNat < n.toNat →
        exec (.cbwaitf c n) s = .next (Claims.trapped .CB_RANGE s) ∧ exec (.cbwaite c n) s = .next (Claims.trapped .CB_RANGE s)) ∧
      (vCheck s.me [] [vd] = .ok () → s.cbDraining s.cur c = false → inRing (k.fill.toNat * k.slotsz.toNat) →
        Claims.lanesInScratch s esz m (ring k.head) false →
        Claims.loaded s (.vldc esz mk vd c b) s.me esz m vd (ring k.head) s.myCore.scratch.read) ∧
      (vCheck s.me [vd] [] = .ok () → s.cbFilling s.cur c = false → inRing ((k.count.toNat - k.fill.toNat) * k.slotsz.toNat) →
        Claims.lanesInScratch s esz m (ring k.tail) true →
        Claims.stored s (.vstc esz mk vd c b) (s.me.vRead w vd).1 esz m (ring k.tail) (s.me.vRead w vd).2) ∧
      (s.cbDraining s.cur c = false →
        (n.toNat ≤ k.fill.toNat → exec (.cbpop c n) s = .next (Claims.after 4 (fun t => t.wc c { k with
          head := BitVec.ofNat 8 ((k.head.toNat + n.toNat) % k.count.toNat), fill := k.fill - n }) s)) ∧
        (k.fill.toNat < n.toNat → exec (.cbpop c n) s = .next (Claims.trapped .CB_UNDERFLOW s))) ∧
      (s.cbFilling s.cur c = false →
        (n.toNat ≤ k.count.toNat - k.fill.toNat → exec (.cbpush c n) s = .next (Claims.after 4 (fun t => t.wc c { k with
          tail := BitVec.ofNat 8 ((k.tail.toNat + n.toNat) % k.count.toNat), fill := k.fill + n }) s)) ∧
        (k.count.toNat - k.fill.toNat < n.toNat → exec (.cbpush c n) s = .next (Claims.trapped .CB_OVERFLOW s))) ∧
      (n.toNat ≤ k.fill.toNat → exec (.cbwaitf c n) s = .next (s.retire s.cur (s.me.pc + 4))) ∧
      (n.toNat ≤ k.count.toNat - k.fill.toNat → exec (.cbwaite c n) s = .next (s.retire s.cur (s.me.pc + 4))) ∧
      (k.fill.toNat < n.toNat → n.toNat ≤ k.count.toNat →
        (s.cbFilling s.cur c = false → exec (.cbwaitf c n) s = .next (Claims.trapped .CB_STALL s)) ∧
        (s.cbFilling s.cur c = true → Claims.waits s (.cb true c n) (exec (.cbwaitf c n) s))) ∧
      (k.count.toNat - k.fill.toNat < n.toNat → n.toNat ≤ k.count.toNat →
        (s.cbDraining s.cur c = false → exec (.cbwaite c n) s = .next (Claims.trapped .CB_STALL s)) ∧
        (s.cbDraining s.cur c = true → Claims.waits s (.cb false c n) (exec (.cbwaite c n) s)))) ∧
    (∀ full : Bool, s.me.status = .waiting (.cb full c n) →
      let holds := n.toNat ≤ if full then k.fill.toNat else k.count.toNat - k.fill.toNat
      let hope := if full then s.cbFilling s.cur c else s.cbDraining s.cur c
      (holds → exec (.cbwaitEnd s.cur) s = .next (s.retire s.cur (s.me.pc + 4))) ∧
      (¬holds → hope = true → exec (.cbwaitEnd s.cur) s = .next s) ∧
      (¬holds → hope = false → exec (.cbwaitEnd s.cur) s = .next (Claims.trapped .CB_STALL s)))

/-- R159, R160: the handle operations change or read the fields they name; HNEXT moves the cursor on, and HTADDR gives the current tile's
address; an empty handle and a cursor past the last tile raise their faults. -/
def Sys2Proof.Claims.HandleOperations : Prop :=
  ∀ (hd ha : HReg) (x : SReg) (f : BitVec 3) (s : State), s.me.mayRetire →
    let v := s.me.rs x
    let h := s.me.rh hd
    let put := fun (k : TensorHandle) => Host.Outcome.next (φ := Fault) (ρ := Refusal) (Claims.after 4 (fun t => t.wh hd k) s)
    let th := 2 ^ h.ltr.toNat
    let tw := 2 ^ h.ltc.toNat
    let nc := (h.cols.toNat + tw - 1) / tw
    let nt := (h.rows.toNat + th - 1) / th * nc
    (exec (.hmov hd ha) s = put (s.me.rh ha) ∧
      exec (.hsetb hd x) s = put { h with base := v.setWidth 55, space := v.getLsbD 55 } ∧
      exec (.hsetd hd x) s = put { h with rows := v.setWidth 16, cols := (v >>> 16).setWidth 16, ltr := (v >>> 32).setWidth 4,
                                          ltc := (v >>> 36).setWidth 4 } ∧
      exec (.hsets hd x) s = put { h with stride := v.setWidth 32 } ∧
      exec (.hsetf hd x) s = put { h with fmt := v.setWidth 5, tareg := (v >>> 8).setWidth 10, spoff := (v >>> 24).setWidth 40 } ∧
      exec (.hcur hd x) s = put { h with cur := v.setWidth 32 }) ∧
    (exec (.hget hd f x) s = .next (Claims.after 4 (fun t => t.ws x
      ([(if h.space then (1#9) else 0) ++ h.base, 0#46 ++ h.tareg ++ 0#3 ++ h.fmt, h.rows.setWidth 64, h.cols.setWidth 64,
        h.stride.setWidth 64, 0#56 ++ h.ltc ++ h.ltr, h.cur.setWidth 64, h.spoff.setWidth 64].getD f.toNat 0)) s)) ∧
    ((h.rows = 0 ∨ h.cols = 0) →
      exec (.hnext hd) s = .next (Claims.trapped .HANDLE_EMPTY s) ∧ exec (.htaddr hd x) s = .next (Claims.trapped .HANDLE_EMPTY s)) ∧
    (h.rows ≠ 0 → h.cols ≠ 0 → nt ≤ h.cur.toNat → exec (.hnext hd) s = .next (Claims.trapped .HANDLE_CURSOR s)) ∧
    (h.rows ≠ 0 → h.cols ≠ 0 → h.cur.toNat < nt →
      exec (.hnext hd) s = put { h with cur := BitVec.ofNat 32 ((h.cur.toNat + 1) % nt) } ∧
      (h.fmt.toNat ≤ 0x10 → exec (.htaddr hd x) s = .next (Claims.after 4 (fun t => t.ws x (BitVec.ofNat 64
        (h.base.toNat + h.cur.toNat / nc * th * h.stride.toNat + h.cur.toNat % nc * tw * fmtBytes h.fmt.toNat))) s)))

/-- R159: HLD and HST move the 32 bytes of a handle from and to an aligned global address when its line stands in the core's L1, for HLD
unpoisoned (R392). -/
def Sys2Proof.Claims.HandleMemory : Prop :=
  ∀ (hd : HReg) (x : SReg) (s : State) (k : Nat), Claims.plainThread s →
    let a := (s.me.rs x).toNat
    a % 32 = 0 → s.myCore.lineIx s.me.bind.asid a = some k →
    ((s.myCore.lineAt k).rd = true → (s.myCore.lineAt k).valid = 3 → (s.myCore.lineAt k).poison = 0 →
      exec (.hld hd x) s = .next (Claims.after 4 (fun t => t.wh hd (TensorHandle.ofBits
        ((s.myCore.lineAt k).data.extractLsb' (8 * (a % 256)) 256))) s)) ∧
    ((s.myCore.lineAt k).wr = true →
      ∃ u, exec (.hst hd x) s = .next u ∧ u.mem = s.mem ∧ u.me = { s.me.retire (s.me.pc + 4) with status := .ready } ∧
        ((u.core s.cur.coreKey).lineAt k).data.extractLsb' (8 * (a % 256)) 256 = (s.me.rh hd).toBits)

/-- R149 to R152, R203: vector loads, stores, gathers and scatters. -/
def Obligations.VectorLoadsAndStores : Prop := Claims.ScratchVectors ∧ Claims.GlobalVectors ∧ Claims.VectorFaults

/-- R15, R159, R160: the handle instructions. -/
def Obligations.TensorHandles : Prop := Claims.HandleOperations ∧ Claims.HandleMemory

end

namespace Sys2Proof.Claims
open Sys2Proof.Machine

/-- A kernel thread below D2 that the limit on retired instructions does not stop. -/
def kernel (t : Thread) : Prop := t.mayRetire ∧ t.bind.txn = false ∧ t.bind.det ≠ 2

/-- A transaction thread that the limit on retired instructions does not stop, with its binding. -/
def inTxn (t : Thread) (b : TxnBinding) : Prop := t.mayRetire ∧ t.bind.txn = true ∧ t.txn = some b

/-- The number of a slice's next barrier operation. -/
def nextArrival (s : State) : Nat := s.me.barCount + 1

/-- The registers as they stand but for one. -/
def onlyWrites (t u : Thread) (d : SReg) (v : Word) : Prop := ∀ r, u.rs r = if r = d ∧ r ≠ 0 then v else t.rs r

end Sys2Proof.Claims

section
open Sys2Proof Sys2Proof.Machine

/-- R176 to R179, R186 to R188: arriving at a barrier captures FPF under the slice's next generation; BARARV goes on with its number,
BAR and BARWT wait until the generation has released and has reached the core, and then leave with M merged into FPF. BARRIER_RELEASE
releases a generation once every live slice has arrived, with M the union of the captured flags but those of failed slices (R415);
that the flags an arrival captured stay in M when its slice has since ended by HALT is the model's choice, its log entry 76; and
BARRIER_LEAVE lets a waiting thread go on. -/
def Obligations.Barriers : Prop :=
  ∀ (d a : SReg) (s : State), Claims.kernel s.me →
    let k := Claims.nextArrival s
    let lid := s.me.bind.lid
    let grp := s.me.group
    let arrived (u : State) := ∀ l, s.launch? lid = some l → ∃ l', u.launch? lid = some l' ∧
      (l'.group grp).arrivals = (l.group grp).arrivals ++ [(k, s.me.bind.unit, s.me.fpf)] ∧ (l'.group grp).released = (l.group grp).released
    (s.me.barOut = none →
      (∃ u, exec (.bararv d) s = .next u ∧ u.me.pc = s.me.pc + 4 ∧ u.me.barCount = k ∧ u.me.barOut = some k ∧
        Claims.onlyWrites s.me u.me d (BitVec.ofNat 64 (k % 2 ^ 32)) ∧ arrived u) ∧
      (s.me.barStand = none → s.releasedM lid grp k = none →
        ∃ u, exec .bar s = .next u ∧ u.me.pc = s.me.pc ∧ u.me.barCount = k ∧ u.me.status = .waiting (.bar k) ∧ arrived u) ∧
      (∀ n m, s.me.barStand = some n → s.releasedM lid grp n = some m → s.me.bind.level ≤ 3 →
        (s.me.bind.lid, s.me.group) ∉ s.myCore.leaving → ∃ u, exec .bar s = .next u ∧ u.me.pc = s.me.pc + 4 ∧ u.me.fpf = s.me.fpf ||| m ∧ u.me.barStand = none ∧ u.me.s = s.me.s)) ∧
    (∀ n, s.me.barOut = some n →
      exec .bar s = .next (Claims.trapped .BAR_SEQ s) ∧ exec (.bararv d) s = .next (Claims.trapped .BAR_SEQ s) ∧
      (s.me.rs a ≠ BitVec.ofNat 64 (n % 2 ^ 32) → exec (.barwt a) s = .next (Claims.trapped .BAR_SEQ s)) ∧
      (s.me.rs a = BitVec.ofNat 64 (n % 2 ^ 32) →
        (s.releasedM lid grp n = none → ∃ u, exec (.barwt a) s = .next u ∧ u.me.status = .waiting (.barwt n) ∧ u.me.pc = s.me.pc) ∧
        (∀ m, s.releasedM lid grp n = some m → s.me.bind.level ≤ 3 → (s.me.bind.lid, s.me.group) ∉ s.myCore.leaving →
          ∃ u, exec (.barwt a) s = .next u ∧ u.me.pc = s.me.pc + 4 ∧ u.me.fpf = s.me.fpf ||| m ∧ u.me.barOut = none ∧ u.me.s = s.me.s))) ∧
    (∀ n m, s.cur.core < 256 → s.cur.tnum < 8 → s.me.status = .waiting (.bar n) → s.releasedM lid grp n = some m → s.me.bind.level ≤ 3 →
      s.myCore.leaving.head? = some (lid, grp) →
      ∃ u, exec (.barrierLeave s.cur.coreKey) s = .next u ∧ u.me.pc = s.me.pc + 4 ∧ u.me.fpf = s.me.fpf ||| m ∧ u.me.status = .ready) ∧
    (∀ l, s.launch? lid = some l →
      let n := (l.group grp).released.length + 1
      let came := (l.group grp).arrivals.filter (fun x => x.1 == n)
      l.spread grp = false → came ≠ [] → (∀ i ∈ l.liveIn grp, ∃ x ∈ came, x.2.1 = i) → s.releasedM lid grp n = none →
        ∃ u m, exec (.barrierRelease lid grp) s = .next u ∧ u.releasedM lid grp n = some m ∧
          (∀ j, m.getLsbD j = true ↔ ∃ x ∈ came, l.hasFailed x.2.1 = false ∧ x.2.2.getLsbD j = true) ∧ u.mem = s.mem ∧ u.threads = s.threads)

/-- R190 to R192: STAG sets BSTEP.STEP; DOMQ reads what its selector names; SLEEP goes on at once when a wake is held, and else waits
for a WAKE or the end of its time limit; WAKE lets a sleeping thread go on and is held for any other. The end of a YIELD's hold lets
the thread issue again (R122). -/
def Obligations.SleepWakeAndQueries : Prop :=
  ∀ (d a : SReg) (s : State), s.me.mayRetire →
    (s.me.bind.sup = true → (s.me.rs a).toNat ≤ 15 →
      exec (.stag a) s = .next (Claims.commanded (fun s => s.upDie s.cur.die (fun d => { d with bstep := (s.me.rs a).setWidth 4 })) s)) ∧
    (s.me.bind.sup = true → 15 < (s.me.rs a).toNat → exec (.stag a) s = .next (Claims.trapped .BAD_STEP s)) ∧
    (∃ v, exec (.domq d a) s = .next (Claims.after 4 (fun t => t.ws d v) s) ∧
      (s.me.rs a = 0 → v = BitVec.ofNat 64 s.me.bind.level) ∧
      (7 ≤ (s.me.rs a).toNat → v = BitVec.allOnes 64) ∧
      (s.me.bind.txn = true → (1 ≤ (s.me.rs a).toNat ∧ (s.me.rs a).toNat ≤ 4) ∨ s.me.rs a = 6 → v = 0) ∧
      (s.me.bind.txn = false → 0 < s.me.bind.dgrp →
        (s.me.rs a = 1 → v = BitVec.ofNat 64 (s.me.bind.unit / s.me.bind.dgrp)) ∧
        (s.me.rs a = 2 → v = BitVec.ofNat 64 (s.me.bind.unit % s.me.bind.dgrp)) ∧
        (s.me.rs a = 3 → v = BitVec.ofNat 64 s.me.bind.gsize) ∧
        (s.me.rs a = 4 → v = BitVec.ofNat 64 s.me.barCount) ∧
        (s.me.rs a = 6 → v = BitVec.ofNat 64 s.me.bind.dgrp)) ∧
      (s.me.rs a = 5 → (s.me.bind.level = 3 → v = BitVec.ofNat 64 s.cur.die) ∧
        (4 ≤ s.me.bind.level → v = (s.pkg.podcfg.extractLsb' 0 10).setWidth 64))) ∧
    (s.me.bind.txn = false → s.me.bind.det ≠ 2 →
      (s.me.wake = true → exec (.sleep a) s = .next (Claims.after 4 (fun t => { t with wake := false }) s)) ∧
      (s.me.wake = false → ∃ u, exec (.sleep a) s = .next u ∧ u.me = { s.me with status := .waiting .sleep } ∧ u.mem = s.mem)) ∧
    (∀ t : Tid, t = ⟨s.cur.die, s.cur.core, (s.me.rs a).toNat % 8⟩ →
        ((s.thread t).status = .free → exec (.wake a) s = Claims.completes s s) ∧
        ((s.thread t).status = .ready → exec (.wake a) s = Claims.completes s (s.upThread t (fun x => { x with wake := true }))) ∧
        (t.key ≠ s.cur.key → (s.thread t).status = .waiting .sleep → Claims.kernel (s.thread t) →
          ∃ u, exec (.wake a) s = .next u ∧ (u.thread t).status = .ready ∧ (u.thread t).pc = (s.thread t).pc + 4 ∧
            u.me.pc = s.me.pc + 4)) ∧
    (∀ t, (s.thread t).status = .waiting .sleep → Claims.kernel (s.thread t) →
      ∃ u, exec (.sleepTimeout t) s = .next u ∧ (u.thread t).status = .ready ∧ (u.thread t).pc = (s.thread t).pc + 4) ∧
    (∀ t, (s.thread t).status ≠ .free → ∃ u, exec (.yieldHoldExpiry t) s = .next u ∧ u.thread t = { s.thread t with held := false })

/-- R180, R181, R193 to R195: VRTAKE and VRTAKET take zeroed blocks for the named slots at once when no claim waits and they are
free, and else enter the FIFO, but that a VRTAKET with a limit of 0 then fails at once; VRGIVE gives blocks back; VRQUERY reads the
pool; VR_CLAIM_GRANT grants the head of the FIFO when it fits, and nothing when it does not; VRTAKET_TIMEOUT takes a claim that has
not been granted out of the FIFO. -/
def Sys2Proof.Claims.PoolInstructions : Prop :=
  ∀ (slots : BitVec 7) (pd : PReg) (a d : SReg) (s : State), s.me.mayRetire → s.me.bind.det ≠ 2 →
    let n := popcount slots
    let c := s.cur.coreKey
    let taken (u : State) := (∀ i : Fin 7, u.me.slots[i] = if slots.getLsbD i then some (Vector.replicate 4 0) else s.me.slots[i]) ∧
      u.me.pc = s.me.pc + 4 ∧ u.me.s = s.me.s ∧ (u.core c).freeBlocks = s.myCore.freeBlocks - n
    ((∀ i : Fin 7, slots.getLsbD i = true → s.me.slots[i] = none) →
      (48 - 8 * s.me.bind.reserve < n →
        exec (.vrtake slots) s = .next (Claims.trapped .VR_EXCEED s) ∧ exec (.vrtaket pd a slots) s = .next (Claims.trapped .VR_EXCEED s)) ∧
      (n ≤ 48 - 8 * s.me.bind.reserve →
        (s.myCore.fifo = [] → n ≤ s.myCore.freeBlocks →
          (∃ u, exec (.vrtake slots) s = .next u ∧ taken u) ∧
          (∃ u, exec (.vrtaket pd a slots) s = .next u ∧ taken u ∧ (pd ≠ 0 → u.me.rp pd = false))) ∧
        (s.myCore.fifo ≠ [] ∨ s.myCore.freeBlocks < n →
          ∃ u, exec (.vrtake slots) s = .next u ∧ u.me = { s.me with status := .waiting (.vrtake slots) } ∧
            (u.core c).fifo = s.myCore.fifo ++ [⟨s.cur.tnum, n, false⟩]) ∧
        (s.myCore.fifo ≠ [] ∨ s.myCore.freeBlocks < n →
          (s.me.rs a = 0 → exec (.vrtaket pd a slots) s = .next (Claims.after 4 (fun t => t.wp pd true) s)) ∧
          (s.me.rs a ≠ 0 → ∃ u, exec (.vrtaket pd a slots) s = .next u ∧ u.me = { s.me with status := .waiting (.vrtaket pd slots) } ∧
            (u.core c).fifo = s.myCore.fifo ++ [⟨s.cur.tnum, n, false⟩])))) ∧
    ((∃ i : Fin 7, slots.getLsbD i = true ∧ s.me.slots[i] ≠ none) →
      exec (.vrtake slots) s = .next (Claims.trapped .VSLOT_FULL s)) ∧
    ((∀ i : Fin 7, slots.getLsbD i = true → s.me.slots[i] ≠ none ∧ s.me.bind.reserve ≤ i.val) →
      ∃ u, exec (.vrgive slots) s = .next u ∧ (∀ i : Fin 7, u.me.slots[i] = if slots.getLsbD i then none else s.me.slots[i]) ∧
        u.me.pc = s.me.pc + 4 ∧ u.me.s = s.me.s ∧ (u.core c).freeBlocks = s.myCore.freeBlocks + n) ∧
    (∃ v, exec (.vrquery d) s = .next (Claims.after 4 (fun t => t.ws d v) s) ∧
      (s.myCore.freeBlocks < 64 → s.myCore.fifo.length < 64 → s.me.bind.reserve < 8 →
        (∀ i : Fin 7, v.getLsbD i = s.me.slots[i].isSome) ∧ v.extractLsb' 10 6 = BitVec.ofNat 6 s.myCore.freeBlocks ∧
        v.extractLsb' 16 6 = BitVec.ofNat 6 s.myCore.fifo.length ∧ v.extractLsb' 22 3 = BitVec.ofNat 3 s.me.bind.reserve)) ∧
    (∀ k r, s.myCore.fifo = k :: r → k.tnum = s.cur.tnum → s.cur.core < 256 → s.me.status = .waiting (.vrtake slots) →
      (k.blocks ≤ s.myCore.freeBlocks →
        ∃ u, exec (.vrClaimGrant c) s = .next u ∧ u.me.pc = s.me.pc + 4 ∧ u.me.status = .ready ∧
          ∀ i : Fin 7, u.me.slots[i] = if slots.getLsbD i then some (Vector.replicate 4 0) else s.me.slots[i]) ∧
      (s.myCore.freeBlocks < k.blocks → k.resumer = false → exec (.vrClaimGrant c) s = .next s)) ∧
    (∀ k r, s.myCore.fifo = k :: r → s.myCore.freeBlocks < k.blocks → s.me.status = .waiting (.vrtaket pd slots) →
      ∃ u, exec (.vrtaketTimeout s.cur) s = .next u ∧ u.me.pc = s.me.pc + 4 ∧ u.me.rp pd = true ∧ u.me.slots = s.me.slots ∧
        ∀ x ∈ (u.core c).fifo, x.tnum ≠ s.cur.tnum)

/-- R182: a resumer that stands at the head of a core's FIFO and does not fit, when every other holder of shared blocks is blocked in
VRTAKE, gets the taker pre-empted that entered the FIFO last. -/
def Sys2Proof.Claims.ResumerPreemption : Prop :=
  ∀ (s : State) (core : Nat) (k x : VrClaim) (r : List VrClaim) (m : BitVec 7),
    let t : Tid := ⟨core / 256, core % 256, x.tnum⟩
    (s.core core).fifo = k :: (r ++ [x]) → k.resumer = true → (s.core core).freeBlocks < k.blocks → x.resumer = false →
    (∀ n, n < 8 → n ≠ k.tnum → s.holdsFreely ⟨core / 256, core % 256, n⟩ = false) →
    (s.thread t).status = .waiting (.vrtake m) → 0 < (s.thread t).sharedBlocks → (s.thread t).bind.txn = false →
    ∃ u, exec (.vrResumerPreempt core) s = .next u ∧
      ((u.thread t).preempt = true ∨ ∃ kind ix live w g, (u.thread t).status = .waiting (.drain kind ix live w g)) ∧
      (∀ v : Tid, v.key ≠ t.key → u.thread v = s.thread v)

/-- R167, R168, R196 to R198: LRPATCH writes one patchable word of a pool record; LRARM gives the record the next launch id, which
s[d] receives, and arms it or refuses it with a reason; LRSTAT reads the status of a launch; LRWAIT waits for a final one, writes it
and acquires at package scope. A final status whose signals are written is no longer held after 65,536 further launch ids. -/
def Obligations.LaunchRecords : Prop :=
  ∀ (d a : SReg) (word : BitVec 12) (s : State), Claims.plainThread s →
    let base := s.me.rs a
    let va := base + BitVec.ofNat 64 (4 * word.toNat)
    (s.me.inPool base = false → Claims.faultsWith .LR_POOL s (exec (.lrpatch d a word) s) ∧
      Claims.faultsWith .LR_POOL s (exec (.lrarm d a) s)) ∧
    (s.me.inPool base = true →
      (patchable word.toNat = false → Claims.faultsWith .LR_WORD s (exec (.lrpatch d a word) s)) ∧
      (∀ s' g, patchable word.toNat = true → base.toNat % 4 = 0 → Claims.granted s va.toNat .write s' g →
        (∃ u, exec (.lrpatch d a word) s = .next u ∧ u.me.pc = s.me.pc + 4 ∧ u.me.s = s.me.s) ∧
        (s.myCore.l1 = [] → s.myCore.l1q = 0 →
          ∃ u, exec (.lrpatch d a word) s = .next u ∧ u.me.pc = s.me.pc + 4 ∧
            Claims.holds u.mem (g.pline * 256 + va.toNat % 256) 4 (s.me.rs d).toNat ∧
            Claims.sameOutside s'.mem u.mem (g.pline * 256 + va.toNat % 256) 4)) ∧
      (∀ s' bs, globalBytes 8 s base 1536 = .ok (s', bs) → s'.cur = s.cur → s'.me = s.me →
        ∃ u l, exec (.lrarm d a) s = .next u ∧ u.me.pc = s.me.pc + 4 ∧ u.pkg.lastLid = s'.pkg.lastLid + 1 ∧
          Claims.onlyWrites s.me u.me d (s'.lidWord (s'.pkg.lastLid + 1)) ∧ u.launch? (s'.pkg.lastLid + 1) = some l ∧
          l.record = LaunchRec.ofBytes bs ∧ l.asid = s.me.bind.asid ∧ (l.state = .refused ∨ l.state = .waiting ∨ l.state = .ready))) ∧
    exec (.lrstat d a) s = .next (Claims.after 4 (fun t => t.ws d (s.statusWord base)) s) ∧
    (s.stateCode base < 3 → ∃ u, exec (.lrwait d a) s = .next u ∧ u.me = { s.me with status := .waiting (.lrwait d base) }) ∧
    (3 ≤ s.stateCode base → ∃ u, exec (.lrwait d a) s = .next u ∧ u.me.status = .waiting .acquire ∧ u.me.pc = s.me.pc ∧
      Claims.onlyWrites s.me u.me d (s.statusWord base) ∧ Instr.packageAcquireEnd s.cur ∈ u.agenda) ∧
    (s.me.status = .waiting (.lrwait d base) → 3 ≤ s.stateCode base →
      ∃ u, exec (.lrwaitEnd s.cur) s = .next u ∧ u.me.status = .waiting .acquire ∧ Claims.onlyWrites s.me u.me d (s.statusWord base) ∧
        Instr.packageAcquireEnd s.cur ∈ u.agenda) ∧
    (∀ lid l, s.launch? lid = some l → l.state.final = true → l.signal = none → 65536 ≤ s.pkg.lastLid - l.endedAt →
      ∃ u, exec (.statusExpiry lid) s = .next u ∧ u.launch? lid = none ∧ ∀ n, n ≠ lid → u.launch? n = s.launch? n)

/-- R292 to R297: TXH sets a handle onto a slot's staging copy; TXINFO reads the item it names; TXCHECK answers whether a slot covers
an address; a TXTOUCH of a slot that covers its address changes nothing. Outside a transaction each raises TX_ONLY. In a reconnaissance
pass TXTOUCH records the key and mode, with a copy of the tile in the thread's staging (R289, R296); in the real run of a reconnaissance
launch one that does not match its slot takes a checked restart (R290). The packet of TX_NOTILE carries s[a], as the model reads R373 (log
entry 56). The instructions that wait raise TXN_WAIT in a transaction (R189, R191, R198). -/
def Obligations.TransactionQueries : Prop :=
  ∀ (hd : HReg) (slot item : BitVec 4) (d a : SReg) (pd : PReg) (w : Bool) (s : State),
    (s.me.bind.txn = false →
      exec (.txh hd slot) s = .next (Claims.trapped .TX_ONLY s) ∧ exec (.txinfo d item) s = .next (Claims.trapped .TX_ONLY s) ∧
      exec (.txtouch a slot w) s = .next (Claims.trapped .TX_ONLY s) ∧ exec (.txcheck pd a slot w) s = .next (Claims.trapped .TX_ONLY s) ∧
      exec .txend s = .next (Claims.trapped .TX_ONLY s)) ∧
    (s.me.bind.txn = true → ∀ i ∈ [Instr.bar, .bararv d, .barwt a, .sleep a, .lrwait d a], exec i s = .next (Claims.trapped .TXN_WAIT s)) ∧
    (∀ b, Claims.inTxn s.me b →
      (b.slot slot = none → exec (.txh hd slot) s = .next (Claims.trapped .TX_SLOT s)) ∧
      (∀ k t, b.slot slot = some k → s.arrayOf k.key = some t →
        ∃ h, exec (.txh hd slot) s = .next (Claims.after 4 (fun x => x.wh hd h) s) ∧ h.base = BitVec.ofNat 55 k.off ∧ h.space = true ∧
          h.fmt = t.fmt ∧ h.rows = BitVec.ofNat 16 (2 ^ t.ltr) ∧ h.cols = BitVec.ofNat 16 (2 ^ t.ltc) ∧ h.cur = 0) ∧
      (8 ≤ item.toNat → exec (.txinfo d item) s = .next (Claims.trapped .TX_ITEM s)) ∧
      (item.toNat < 8 → ∃ v, exec (.txinfo d item) s = .next (Claims.after 4 (fun t => t.ws d v) s) ∧
        (item = 0 → v = b.rn.setWidth 64) ∧ (item = 1 → v = BitVec.ofNat 64 b.idx) ∧ (item = 2 → v = if b.recon then 1 else 0) ∧
        (item = 3 → v = BitVec.ofNat 64 b.restarts) ∧ (item = 6 → v = s.me.bind.lidReg) ∧ (item = 7 → v = BitVec.ofNat 64 b.retired)) ∧
      (∃ v, exec (.txcheck pd a slot w) s = .next (Claims.after 4 (fun t => t.wp pd v) s) ∧
        (v = true ↔ ∃ c k, b.slot slot = some c ∧ s.keyOf s.me.bind.asid (s.me.rs a).toNat = some k ∧ c.key = k ∧
          (w = true → c.write = true))) ∧
      (s.keyOf s.me.bind.asid (s.me.rs a).toNat = none →
        exec (.txtouch a slot w) s = .next (s.freeze s.cur ⟨.TX_NOTILE, s.me.rs a, 0, 0⟩)) ∧
      (∀ c k t, b.slot slot = some c → s.keyOf s.me.bind.asid (s.me.rs a).toNat = some k → c.key = k → s.arrayOf k = some t →
        (w = true → t.wr = true ∧ c.write = true) → b.reconLaunch = false ∨ s.otherScope s.me k = false →
        exec (.txtouch a slot w) s = .next (s.retire s.cur (s.me.pc + 4))) ∧
      (∀ k t, s.keyOf s.me.bind.asid (s.me.rs a).toNat = some k → s.arrayOf k = some t → (w = true → t.wr = true) →
        s.otherScope s.me k = false →
        let records := fun (c : SetSlot) => Claims.after 4 (fun x => { x with txn := some { b with
          slots := b.slots.setIfInBounds slot.toNat (some c) } }) s
        (b.recon = true → b.slot slot = none → (w = true → k ∈ b.writeKeys ∨ b.writeKeys.length < 8) →
          (∀ c, b.copyOf k = some c → exec (.txtouch a slot w) s = .next (records ⟨k, w, c.off⟩)) ∧
          (∀ o, s.memoryOk = true → b.copyOf k = none → s.stagingRoom s.cur.coreKey (s.tszOf k) (s.tszOf k) = some o →
            ∃ u, exec (.txtouch a slot w) s = .next u ∧ u.me = (records ⟨k, w, o⟩).me ∧
              let d := ((s.takeStaging s.cur o (s.tszOf k)).tileRead k).2
              ∀ i, i < d.bytes.length → (u.core s.cur.coreKey).scratch.read (o + i) = d.bytes.getD i 0 ∧
                (u.core s.cur.coreKey).full ((o + 16 * (i / 16)) / 16) = true)) ∧
        (b.recon = true → ∀ c, b.slot slot = some c →
          (c.key ≠ k → Claims.faultsWith .TX_SLOT s (exec (.txtouch a slot w) s)) ∧
          (c.key = k → w = true → c.write = false → k ∈ b.writeKeys ∨ b.writeKeys.length < 8 →
            exec (.txtouch a slot w) s = .next (records { c with write := true }))) ∧
        (b.recon = true → w = true → k ∉ b.writeKeys → 8 ≤ b.writeKeys.length → (∀ c, b.slot slot = some c → c.key = k) →
          Claims.faultsWith .TX_SET s (exec (.txtouch a slot w) s)) ∧
        (b.recon = false → (∀ c, b.slot slot = some c → c.key ≠ k ∨ (w = true ∧ c.write = false)) →
          (b.reconLaunch = false → Claims.faultsWith .TX_SET s (exec (.txtouch a slot w) s)) ∧
          (b.reconLaunch = true → b.restarts = 3 → exec (.txtouch a slot w) s = .next (Claims.trapped .TX_UNSTABLE s)) ∧
          (∀ x l, b.reconLaunch = true → b.restarts < 3 → s.txn? s.me.bind.lid b.idx = some x → s.launch? s.me.bind.lid = some l →
            ∃ u y, exec (.txtouch a slot w) s = .next u ∧ (u.thread s.cur).status = .free ∧ u.txn? s.me.bind.lid b.idx = some y ∧
              y.restarts = x.restarts + 1 ∧ y.state = .numbered ∧ y.reqs = [] ∧ y.landing = none))))

/-- R281, R286, R287, R413: TXEND of a real run without jobs, whose pushes have all arrived, begins the commit: the staging bytes of
every write key are read into its copy before any tile is written, and commits and releases are due. LKM_COMMIT writes the bytes of a
copy to the lines of its tile at their homes, in the package that holds the tile, and nothing else; LKM_RELEASE releases a grant, a
write's only after that. TXEND of a reconnaissance pass ends the pass. -/
def Obligations.CommitOfATransaction : Prop :=
  ∀ (s : State) (b : TxnBinding) (x : Txn), Claims.inTxn s.me b →
    let lid := s.me.bind.lid
    s.txn? lid b.idx = some x → s.hasJobs s.cur = false → s.pushesDone lid b.idx = true → s.myCore.doneOf s.cur = [] →
    (b.recon = false → (∃ q ∈ x.reqs, q.released = false) →
      ∃ u x', exec .txend s = .next u ∧ u.me.status = .waiting .txend ∧ u.txn? lid b.idx = some x' ∧ x'.state = .committing ∧
        x'.reqs.map (·.key) = x.reqs.map (·.key) ∧ (∀ q ∈ x'.reqs, q.write = true → q.copy.isSome = true) ∧
        (∀ q ∈ x'.reqs, ∀ c a, q.write = true → b.copyOf q.key = some c → s.arrayOf q.key = some a →
          ∃ d, q.copy = some d ∧ d.bytes.length = a.tsz ∧ ∀ i, i < a.tsz → d.bytes.getD i 0 = s.myCore.scratch.read (c.off + i)) ∧
        (∀ i, i < x.reqs.length → Instr.lkmRelease lid b.idx i ∈ u.agenda)) ∧
    (b.recon = true → s.shadowsOf s.cur = [] →
      ∃ u x', exec .txend s = .next u ∧ (u.thread s.cur).status = .free ∧ u.txn? lid b.idx = some x' ∧ x'.passed = true ∧
        x'.slots = b.slots) ∧
    (x.state = .committing → ∀ i q bs, x.reqs[i]? = some q → q.released = false →
      (q.copy = some bs → q.committed = false →
        ∃ u x', exec (.lkmCommit lid b.idx i) s = .next u ∧ u.txn? lid b.idx = some x' ∧
          x'.reqs[i]? = some { q with committed := true } ∧ u.threads = s.threads ∧
          ∀ a, s.arrayOf q.key = some a →
            (a.owner = s.pkgId → ∀ z ws, s.memoryOk = true →
              s.homeCells a.asid true (linesFor bs.bytes.length) (a.tileVa q.key.tr q.key.tc) bs.bytes = .ok (z, ws) →
              let cells := ws.flatMap (·.2)
              cells.map (·.2) = bs.bytes ∧
              ∀ p, u.mem.read p = ((cells.reverse.find? (fun e => e.1 == p)).map (·.2)).getD (z.mem.read p)) ∧
            (a.owner ≠ s.pkgId → u.mem = s.mem ∧
              u.pkg.podOut = s.pkg.podOut ++ [(a.owner, .commit s.pkgId x.rn q.key bs)])) ∧
      (q.write = true → q.committed = false → exec (.lkmRelease lid b.idx i) s = .next s) ∧
      (q.write = false ∨ q.committed = true → (∃ j p, j ≠ i ∧ x.reqs[j]? = some p ∧ p.released = false) →
        ∃ u x' q', exec (.lkmRelease lid b.idx i) s = .next u ∧ u.txn? lid b.idx = some x' ∧ x'.reqs[i]? = some q' ∧ q'.released = true))

/-- R180 to R182, R193 to R195: the vector pool. -/
def Obligations.VectorPool : Prop := Claims.PoolInstructions ∧ Claims.ResumerPreemption

end

namespace Sys2Proof.Claims
open Sys2Proof.Machine

/-- A kernel thread that no limit stops, in a part with every optional unit its operands need. -/
def submitter (s : State) : Prop := s.me.mayRetire ∧ s.me.bind.txn = false

/-- A handle that names a tile at its cursor, in a format that is not reserved (R32, R160). -/
def tileOk (h : TensorHandle) : Prop := h.empty? = false ∧ h.badFmt = false ∧ h.curOk h.at_ = true
/-- A handle that names an array, in a format that is not reserved (R322). -/
def arrayOk (h : TensorHandle) : Prop := h.empty? = false ∧ h.badFmt = false
/-- An output that may be left out. -/
def outOk (h : TensorHandle) : Prop := h.empty? = true ∨ tileOk h

/-- The scratch bytes of a submission lie in their scratchpads, and a user-level thread names no output in the constant window (R18,
R22). -/
def bytesOk (s : State) (ps : List Piece) : Prop :=
  (∀ p ∈ ps, s.pieceFits p = true) ∧ (s.me.bind.sup = true ∨ ∀ p ∈ ps, p.inWindow = false)

/-- A part has the DS8 datapath, or no handle names it (R4). -/
def ds8Ok (s : State) (hs : List TensorHandle) : Prop := s.ds8Present = true ∨ ∀ h ∈ hs, h.isDs8 = false

/-- The bank is free or the thread's own (R303). -/
def bankOk (s : State) (b : Bank) : Prop :=
  (s.bank (s.mxCluster b) b.val).owner = none ∨ (s.bank (s.mxCluster b) b.val).owner = some s.cur

/-- What an accepted submission leaves (R306): the job with its operands stands last in the core's queue under the next id, which
s[x] holds; nothing of memory or of the scratchpad has changed. -/
def accepted (s : State) (e : Engine) (x : SReg) (op : JobOp) (u : State) : Prop :=
  (∃ j, (u.core s.cur.coreKey).queue e = s.myCore.queue e ++ [j] ∧ j.op = op ∧ j.owner = s.cur ∧ j.fpm = s.me.fpm ∧
    j.id = s.myCore.nextId e ∧ j.prog = 0) ∧
  onlyWrites s.me u.me x ((s.myCore.nextId e).setWidth 64) ∧ u.me.pc = s.me.pc + 4 ∧ u.mem = s.mem ∧
  (u.core s.cur.coreKey).scratch = s.myCore.scratch ∧ (u.core s.cur.coreKey).nextId e = s.myCore.nextId e + 1

/-- An instruction submits a job. -/
def submits (s : State) (i : Instr) (e : Engine) (x : SReg) (op : JobOp) : Prop := ∃ u, exec i s = .next u ∧ accepted s e x op u

/-- An instruction submits an MXE job, and the thread owns the bank it names. -/
def submitsMx (s : State) (i : Instr) (b : Bank) (x : SReg) (op : JobOp) : Prop :=
  ∃ u, exec i s = .next u ∧ accepted s .mxe x op u ∧ (u.bank (s.mxCluster b) b.val).owner = some s.cur

/-- The instructions that wait for a job, with their engines. -/
noncomputable def jobWaits : List ((SReg → Instr) × Engine) := [(.mxwait, .mxe), (.rkwait, .rsu), (.colwait, .cle)]

end Sys2Proof.Claims

section
open Sys2Proof Sys2Proof.Machine

/-- R303, R306, R309 to R317: a matrix submission whose handles, formats, shapes and bytes pass the checks, on a bank that is free or
the thread's own, with a queue entry free, is accepted, and the thread owns the bank. -/
def Obligations.MatrixSubmissions : Prop :=
  ∀ (hd ha hb : HReg) (acc : Bank) (x : SReg) (s : State), Claims.submitter s → Claims.bankOk s acc → s.myCore.mxq.length < 4 →
    let d := s.me.rh hd
    let a := s.me.rh ha
    let b := s.me.rh hb
    let own : Place := .scratch s.cur.coreKey
    let dest := fusedPieces d s.cur.coreKey
    let tile (h : TensorHandle) (w : Bool) := h.tilePieces (h.ownPlace s.cur.coreKey) h.base.toNat h.at_ w
    (Claims.outOk d → Claims.tileOk b → b.space = true → a.space = true → fusedFormat d = true →
      Claims.ds8Ok s ([a, b] ++ d.fused.toList) →
      (Claims.tileOk a → mulFormats a.fmt b.fmt = true → mulLimits (a.tileRows a.at_) (b.tileCols b.at_) = true →
        b.tileRows b.at_ = a.tileCols a.at_ → fusedShape d (a.tileRows a.at_) (b.tileCols b.at_) = true →
        Claims.bytesOk s (tile a false ++ tile b false ++ dest) →
        Claims.submitsMx s (.mxmul hd ha hb acc x) acc x (.mxmul a b d.fused)) ∧
      (∀ k, Claims.tileOk a → s.me.slots.toList.getD ((s.me.rs x).toNat % 8) none = some k → mulFormats a.fmt b.fmt = true →
        mulLimits a.th (b.tileCols b.at_) = true → b.tileRows b.at_ = a.tileCols a.at_ → fusedShape d a.th (b.tileCols b.at_) = true →
        (∀ r ∈ slotIndices k a.th, r < a.rows.toNat) →
        Claims.bytesOk s ((slotIndices k a.th).flatMap (fun r => a.pieces own a.base.toNat r 1 (a.col0 a.at_) (a.tileCols a.at_) false)
          ++ tile b false ++ dest) →
        Claims.submitsMx s (.mxgmul hd ha hb acc x) acc x (.mxgmul a b (slotIndices k a.th) d.fused)) ∧
      (Claims.tileOk a → rankFormat b.fmt = true → mulLimits 1 (b.tileCols b.at_) = true → fusedShape d 1 (b.tileCols b.at_) = true →
        Claims.bytesOk s (⟨own, a.base.toNat, 8, false⟩ :: b.pieces own b.base.toNat 0 b.rows.toNat (b.col0 b.at_) (b.tileCols b.at_) false
          ++ dest) →
        Claims.submitsMx s (.mxrank hd ha hb acc x) acc x (.mxrank a b d.fused))) ∧
    (Claims.tileOk d → mulLimits (d.tileRows d.at_) (d.tileCols d.at_) = true →
      (loadFormat d.fmt = true → Claims.bytesOk s (tile d false) → Claims.submitsMx s (.mxload hd acc x) acc x (.mxload d)) ∧
      (storeFormat d.fmt = true → Claims.ds8Ok s [d] → Claims.bytesOk s (tile d true) →
        Claims.submitsMx s (.mxstore hd acc x) acc x (.mxstore d))) ∧
    Claims.submitsMx s (.mxzero acc x) acc x .mxzero ∧
    (s.me.bind.sup = true → 1 ≤ (s.me.rs x).toNat → (s.me.rs x).toNat ≤ 15 →
      ∃ u, exec (.mxwgt x) s = .next u ∧ u.me.pc = s.me.pc + 4 ∧ u.me.s = s.me.s ∧
        (u.cluster s.cur.clusterKey).wgt = (s.cluster s.cur.clusterKey).wgt.setIfInBounds (cposOf s.cur.core) ((s.me.rs x).setWidth 4))

/-- R321 to R323, R327, R329, R330: a submission to the rank and select unit that passes the checks is accepted; ranking captures
RKCFG. In a part without the unit it raises UNIT_ABSENT. -/
def Sys2Proof.Claims.RankSubmissions : Prop :=
  ∀ (hd ha : HReg) (x : SReg) (s : State), Claims.submitter s →
    let d := s.me.rh hd
    let a := s.me.rh ha
    let c := s.cur.coreKey
    let ways (h : TensorHandle) (w : Bool) := h.arrayPieces (h.ownPlace c) h.base.toNat w
    let beads (runs : Nat) := (List.range runs).map (fun j => (⟨d.ownPlace c, d.base.toNat + j * d.stride.toNat, 2 * d.cols.toNat, true⟩ : Piece))
    (s.pkg.units.getLsbD 13 = false → ∀ i ∈ [Instr.rksort hd ha x, .rktopk hd ha x, .rktab ha x, .rkval hd ha x, .rkwait x],
      exec i s = .next (Claims.trapped .UNIT_ABSENT s)) ∧
    (s.pkg.units.getLsbD 13 = true → s.myCore.rsq.length < 4 →
      (Claims.arrayOk d → Claims.arrayOk a → d.fmt = 0x03 → keyFormat a.fmt = true → a.base.toNat % a.eb = 0 → a.stride.toNat % a.eb = 0 →
        d.base.toNat % 16 = 0 →
        (a.rows.toNat * a.cols.toNat ≤ 65536 → d.rows = 1 → 4 + min (rkCut s.me.rkcfg) (a.rows.toNat * a.cols.toNat) ≤ d.cols.toNat →
          Claims.bytesOk s (ways a false ++ beads 1) → Claims.submits s (.rksort hd ha x) .rsu x (.rksort d a s.me.rkcfg)) ∧
        (d.rows = a.cols → 4 + min (rkCut s.me.rkcfg) a.rows.toNat ≤ d.cols.toNat → d.stride.toNat % 16 = 0 →
          2 * d.cols.toNat ≤ d.stride.toNat → Claims.bytesOk s (ways a false ++ beads a.cols.toNat) →
          Claims.submits s (.rktopk hd ha x) .rsu x (.rktopk d a s.me.rkcfg))) ∧
      (a.fmt = 0x09 ∨ a.fmt = 0x0A → a.base.toNat % 16 = 0 → Claims.bytesOk s [⟨a.ownPlace c, a.base.toNat, 16, false⟩] →
        Claims.submits s (.rktab ha x) .rsu x (.rktab a)) ∧
      (Claims.arrayOk d → Claims.arrayOk a → a.fmt = 0x03 → d.fmt = 0x0A ∨ d.fmt = 0x09 ∨ d.fmt = 0x08 ∨ d.fmt = 0x0C →
        a.base.toNat % 16 = 0 → d.rows.toNat * d.cols.toNat ≤ 65536 → d.base.toNat % d.eb = 0 → d.stride.toNat % d.eb = 0 →
        Claims.bytesOk s (⟨a.ownPlace c, a.base.toNat, 8, false⟩ :: ways d true) → Claims.submits s (.rkval hd ha x) .rsu x (.rkval d a)))

/-- R334 to R338, R342, R343: a block transfer or a collective that passes the checks is accepted; a collective also takes the launch's
next number on its die. -/
def Obligations.TransferSubmissions : Prop :=
  ∀ (hd ha hb : HReg) (cb : CReg) (acc : BitVec 3) (x : SReg) (s : State), Claims.submitter s →
    let d := s.me.rh hd
    let a := s.me.rh ha
    let ix := s.me.rh hb
    let k := s.me.rc cb
    let p := if (s.me.rs x).toNat % 65536 = 0 then 1 else (s.me.rs x).toNat % 65536
    let w := (s.me.rs x).toNat % 256
    let whole (h : TensorHandle) (wr : Bool) := h.arrayPieces (h.ownPlace s.cur.coreKey) h.base.toNat wr
    let numbered (u : State) := ∀ l, s.launch? s.me.bind.lid = some l → ∃ l', u.launch? s.me.bind.lid = some l' ∧
      Assoc.find s.cur.die l'.collectives = some ((Assoc.find s.cur.die l.collectives).getD 0 + 1)
    let placed (h : TensorHandle) (n : Nat) := Claims.arrayOk h ∧ h.curOk (h.at_ + n - 1) = true ∧ (h.btuPlace s.cur).isSome = true
    (s.myCore.btq.length < 16 →
      (placed d p → placed a p → copyFormats a.fmt d.fmt = true →
        (∀ q, q < p → d.tileRows (d.at_ + q) = a.tileRows (a.at_ + q) ∧ d.tileCols (d.at_ + q) = a.tileCols (a.at_ + q)) →
        overlaps (a.planes s.cur p false) (d.planes s.cur p true) = false →
        Claims.bytesOk s (d.planes s.cur p true ++ a.planes s.cur p false) → Claims.submits s (.cpy hd ha x) .btu x (.cpy d a p)) ∧
      (placed d 1 → placed a 1 → placed ix 1 → copyFormats a.fmt d.fmt = true → ix.fmt = 0x03 ∨ ix.fmt = 0x05 →
        d.tileRows d.at_ ≤ ix.tileCols ix.at_ → a.tileCols a.at_ = d.tileCols d.at_ →
        overlaps (gatherPieces a s.cur) (d.planes s.cur 1 true) = false →
        Claims.bytesOk s (d.planes s.cur 1 true ++ gatherPieces a s.cur ++ indexPieces ix s.cur (d.tileRows d.at_)) →
        Claims.submits s (.cpyg hd ha hb x) .btu x (.cpyg d a ix)) ∧
      (placed d 1 → d.isScaled = false → (d.eb = 8 → w % 2 = 0) → Claims.bytesOk s (d.planes s.cur 1 true) →
        Claims.submits s (.cpyf hd x) .btu x (.cpyf d (s.myCore.fillPattern w))) ∧
      (k.valid = true → placed a 1 → ceilDiv a.streamSize k.slotsz.toNat ≤ k.count.toNat →
        Claims.bytesOk s (⟨.scratch s.cur.coreKey, k.base.toNat, k.ringSize, true⟩ :: a.streamPieces s.cur false) →
        Claims.submits s (.cpywFill cb ha x) .btu x (.cpywFill cb a)) ∧
      (k.valid = true → placed d 1 → ceilDiv d.streamSize k.slotsz.toNat ≤ k.count.toNat →
        Claims.bytesOk s (⟨.scratch s.cur.coreKey, k.base.toNat, k.ringSize, false⟩ :: d.streamPieces s.cur true) →
        Claims.submits s (.cpywDrain hd cb x) .btu x (.cpywDrain d cb))) ∧
    (s.pkg.units.getLsbD 14 = true → 4 ≤ s.me.bind.level → Claims.arrayOk d → d.aligned = true → colFormat d.fmt = true →
      (Claims.arrayOk a → a.aligned = true → colFormat a.fmt = true → Claims.bytesOk s (whole d true ++ whole a false) →
        ∃ u, exec (.colred hd ha acc x) s = .next u ∧ Claims.accepted s .cle x (.colred d a acc) u ∧ numbered u) ∧
      (a.badFmt = false → (a.empty? = false → a.aligned = true ∧ colFormat a.fmt = true) →
        Claims.bytesOk s (whole d true ++ if a.empty? then [] else whole a false) →
        ∃ u, exec (.colbc hd ha x) s = .next u ∧ Claims.accepted s .cle x (.colbc d a) u ∧ numbered u))

/-- R318, R331, R340, R344, R306: a wait for an outstanding job waits; a wait or poll of one that has completed observes its completion,
ORs its flags into FPF and goes on when no observed job has failed; a poll answers in p[d]. JOB_WAIT_END ends the wait, and
ENGINE_QUEUE_ENTRY_FREE lets a waiting submission into the queue. -/
def Obligations.WaitingForJobs : Prop :=
  ∀ (pd : PReg) (x : SReg) (s : State), s.me.mayRetire → s.me.bind.det ≠ 2 → s.pkg.units.getLsbD 13 = true →
    s.pkg.units.getLsbD 14 = true →
    let id := (s.me.rs x).setWidth 16
    let flags (js : List DoneJob) := js.foldl (fun f j => f ||| j.flags) s.me.fpf
    (∀ row ∈ Claims.jobWaits,
      (s.myCore.outstanding row.2 id = true →
        ∃ u, exec (row.1 x) s = .next u ∧ u.me = { s.me with status := .waiting (.job row.2 id) } ∧ u.mem = s.mem) ∧
      (s.myCore.outstanding row.2 id = false → (∀ j ∈ s.myCore.observedBy s.cur row.2 id true, j.fail = none) →
        ∃ u, exec (row.1 x) s = .next u ∧ u.me.pc = s.me.pc + 4 ∧ u.me.s = s.me.s ∧
          u.me.fpf = flags (s.myCore.observedBy s.cur row.2 id true)) ∧
      (s.myCore.outstanding row.2 id = false → ∀ j, s.myCore.observedBy s.cur row.2 id true = [j] → j.fail ≠ none →
        ∃ u, exec (row.1 x) s = .next u ∧ u.me.status = .frozen ⟨row.2.cause, 0, j.id.setWidth 64, 0⟩ ∧ u.me.pc = s.me.pc) ∧
      (s.me.status = .waiting (.job row.2 id) → s.myCore.outstanding row.2 id = false →
        (∀ j ∈ s.myCore.observedBy s.cur row.2 id true, j.fail = none) →
        ∃ u, exec (.jobWaitEnd s.cur) s = .next u ∧ u.me.pc = s.me.pc + 4 ∧ u.me.status = .ready ∧ u.me.s = s.me.s ∧
          u.me.fpf = flags (s.myCore.observedBy s.cur row.2 id true))) ∧
    (s.myCore.outstanding .mxe id = true → exec (.mxpoll pd x) s = .next (Claims.after 4 (fun t => t.wp pd false) s)) ∧
    (s.myCore.outstanding .btu id = true → exec (.cpyp pd x) s = .next (Claims.after 4 (fun t => t.wp pd false) s)) ∧
    (s.myCore.outstanding .mxe id = false → (∀ j ∈ s.myCore.observedBy s.cur .mxe id true, j.fail = none) →
      ∃ u, exec (.mxpoll pd x) s = .next u ∧ u.me.rp pd = true ∧ u.me.pc = s.me.pc + 4 ∧ u.me.s = s.me.s ∧
        u.me.fpf = flags (s.myCore.observedBy s.cur .mxe id true)) ∧
    (s.myCore.outstanding .btu id = false → (∀ j ∈ s.myCore.observedBy s.cur .btu id false, j.fail = none) →
      ∃ u, exec (.cpyp pd x) s = .next u ∧ u.me.rp pd = true ∧ u.me.pc = s.me.pc + 4 ∧ u.me.s = s.me.s ∧
        u.me.fpf = flags (s.myCore.observedBy s.cur .btu id false)) ∧
    (∀ e job, s.me.status = .waiting (.queue e x job) → e.room (s.myCore.queue e).length = true →
      ∃ u j, exec (.engineQueueEntryFree s.cur) s = .next u ∧ (u.core s.cur.coreKey).queue e = s.myCore.queue e ++ [j] ∧ j.op = job.op ∧
        j.id = s.myCore.nextId e ∧ Claims.onlyWrites s.me u.me x ((s.myCore.nextId e).setWidth 64) ∧ u.me.pc = s.me.pc + 4)

/-- R59, R311: a step of an MXMUL of integers whose K is at most 16 adds the product of the tiles into the bank: every entry of the
M × N result rises by the sum over k of a(i, k) · b(k, j), modulo 2^32, and the job is over. -/
def Sys2Proof.Claims.IntegerProduct : Prop :=
  ∀ (cl p left : Nat) (j : Job) (a b : TensorHandle) (bk : Bank) (s : State),
    let c := posCore cl p
    let m := a.tileRows a.at_
    let n := b.tileCols b.at_
    let bank := s.bank j.cl bk.val
    let av (i k : Nat) := ((s.core j.owner.coreKey).operand j.fpm a (a.row0 a.at_ + i, a.col0 a.at_ + k)).2.1
    let bv (k i : Nat) := ((s.core j.owner.coreKey).operand j.fpm b (b.row0 b.at_ + k, b.col0 b.at_ + i)).2.1
    s.turn cl = some (p, left) → headFor (s.core c).mxq cl = some j → j.op = .mxmul a b none → j.prog = 0 → j.bank = some bk →
    a.fmt.toNat < 2 → b.fmt.toNat < 2 → mulLimits m n = true → 1 ≤ a.tileCols a.at_ → a.tileCols a.at_ ≤ 16 → bank.poison = false → j.fail = none →
    (s.core j.owner.coreKey).poison = [] →
    ∃ u, exec (.mxeStep cl) s = .next u ∧
      (∀ i k, i < m → k < n → ((u.bank j.cl bk.val).get 0 (64 * i + k) : Int) =
        (bank.get 0 (64 * i + k) + ((List.range (a.tileCols a.at_)).map (fun q => av i q * bv q k)).sum) % 2 ^ 32) ∧
      (∃ d ∈ (u.core c).done, d.id = j.id ∧ d.eng = .mxe ∧ d.fail = none) ∧ (∀ x ∈ (u.core c).mxq, x.id ≠ j.id) ∧ u.mem = s.mem

end

namespace Sys2Proof.Claims
open Sys2Proof.Machine

/-! Numbers beyond the finite ones: none is a NaN, inr an infinity by its sign, inl a value. -/

/-- R34, R36: what an encoding stands for; DS8 is not covered. -/
def number (k : Elem) (x : Nat) : Option (Int ⊕ Bool) :=
  match exact k x, k with
  | some v, _ => some (.inl v)
  | none, .flt F => if !F.f8 && x % 2 ^ F.fbits == 0 then some (.inr (x.testBit (F.width - 1))) else none
  | none, _ => none

/-- R40, R41: a number under a scale byte. -/
def underScale (sc : Nat) (v : Option (Int ⊕ Bool)) : Option (Int ⊕ Bool) :=
  if sc = 0 then some (.inl 0)
  else if sc = 255 then none
  else match v with
    | some (.inl x) => some (.inl (if sc % 2 = 0 then x * 2 ^ (sc / 2) / 2 ^ 64 else x * 0xB504F3 * 2 ^ (sc / 2) / 2 ^ 87))
    | y => y

/-- R57: a product; of values it is a multiple of 2^−2400. -/
def product : Option (Int ⊕ Bool) → Option (Int ⊕ Bool) → Option (Int ⊕ Bool)
  | some (.inl v), some (.inl w) => some (.inl (v * w))
  | some (.inl v), some (.inr n) => if v = 0 then none else some (.inr (n != decide (v < 0)))
  | some (.inr n), some (.inl v) => if v = 0 then none else some (.inr (n != decide (v < 0)))
  | some (.inr m), some (.inr n) => some (.inr (m != n))
  | _, _ => none

/-- R58: a group sum: of values each truncated in magnitude to the 48 bits below the greatest of them. -/
def groupOf (ps : List (Option (Int ⊕ Bool))) : Option (Int ⊕ Bool) :=
  let vals := ps.filterMap (fun p => match p with | some (.inl v) => some v | _ => none)
  let unit : Int := 2 ^ (Nat.log2 ((vals.map Int.natAbs).foldl Nat.max 0) - 47)
  if ps.contains none || (ps.contains (some (.inr true)) && ps.contains (some (.inr false))) then none
  else if ps.contains (some (.inr true)) then some (.inr true)
  else if ps.contains (some (.inr false)) then some (.inr false)
  else some (.inl ((vals.map (fun v => v.tdiv unit * unit)).sum / one))

/-- R59: the entry after a group: the sum of the entry and the group, rounded once to binary32 with SAT ignored, where SUB flushes
nothing; infinities and NaNs as a sum has them. -/
def afterGroup (fpm : BitVec 6) (old new : Nat) (g : Option (Int ⊕ Bool)) : Prop :=
  match number (.flt binary32) old, g with
  | some (.inl x), some (.inl y) => ∃ fl, rounds binary32 (fpm &&& 0b101111) (x + y) (new, fl)
  | some (.inl _), some (.inr n) => new = infinity binary32 n
  | some (.inr n), some (.inl _) => new = infinity binary32 n
  | some (.inr m), some (.inr n) => if m = n then new = infinity binary32 n else number (.flt binary32) new = none
  | _, _ => number (.flt binary32) new = none

/-- R32, R40, R310: an element of a scratch operand with its scale, and as an integer. -/
def operand (c : Core) (h : TensorHandle) (r k : Nat) : Option (Int ⊕ Bool) × Int :=
  let x := c.scratch.num (h.base.toNat + r * h.stride.toNat + k * h.eb) h.eb
  let sc := c.scratch.num (h.base.toNat + h.spoff.toNat + r * ((h.cols.toNat + 63) / 64) + k / 64) 1
  match elemOf h.fmt.toNat with
  | some e => (if h.isScaled then underScale sc (number e x) else number e x, match e with | .int sg w => integer sg w x | _ => 0)
  | none => (none, 0)

/-- R311, R313 to R315: the parts of a multiply job: M, K, N, the fused output, the handles that are read, and a(i, k) and b(k, j). -/
structure Multiply where
  m : Nat
  k : Nat
  n : Nat
  out : Option TensorHandle
  reads : List TensorHandle
  a : Nat → Nat → Option (Int ⊕ Bool) × Int
  b : Nat → Nat → Option (Int ⊕ Bool) × Int

/-- R314: the indices of the bead string that MXRANK reads at its first step, up to the length of the table. -/
def beads (c : Core) (a : TensorHandle) : List Nat :=
  (List.range (Nat.min (c.scratch.num (a.base.toNat + 4) 4) c.atten.length)).map (fun i => c.scratch.num (a.base.toNat + 8 + 2 * i) 2)

/-- R314: the bead string is one that MXRANK takes. -/
def beadsOk (c : Core) (a w : TensorHandle) : Bool :=
  let r := c.scratch.num (a.base.toNat + 4) 4
  decide (r ≤ 65536) && decide (a.base.toNat + 8 + 2 * Nat.min r c.atten.length ≤ c.scratchSize) &&
    (beads c a).all (fun i => decide (i < w.rows.toNat))

/-- R311: the parts of the job at its next step; MXRANK keeps the indices and the table that its first step read. -/
def multiply (s : State) (j : Job) : Option Multiply :=
  let c := s.core j.owner.coreKey
  let tile (h : TensorHandle) (i k : Nat) := operand c h (h.row0 h.at_ + i) (h.col0 h.at_ + k)
  match j.op with
  | .mxmul a b out => some ⟨a.tileRows a.at_, a.tileCols a.at_, b.tileCols b.at_, out, [a, b], tile a, tile b⟩
  | .mxgmul a b idx out => some ⟨2 ^ a.ltr.toNat, a.tileCols a.at_, b.tileCols b.at_, out, [a, b],
      fun i k => operand c a (idx.getD i 0) (a.col0 a.at_ + k), tile b⟩
  | .mxrank a w out =>
    let idx := if j.prog = 0 then beads c a else j.idx
    let tab := if j.prog = 0 then c.atten else j.tab
    some ⟨1, idx.length, w.tileCols w.at_, out, [w], fun _ k => (number (.flt binary32) (tab.getD k 0).toNat, 0),
      fun k i => operand c w (idx.getD k 0) (w.col0 w.at_ + i)⟩
  | _ => none

/-- R307: the job that the next step of a cluster's matrix engine runs, at the head of a core's queue, with its bank. -/
def mxeRuns (s : State) (cl c : Nat) (j : Job) (bk : Bank) : Prop :=
  ∃ p left, s.turn cl = some (p, left) ∧ c = posCore cl p ∧ headFor (s.core c).mxq cl = some j ∧ j.bank = some bk ∧ j.fail = none ∧
    (s.core j.owner.coreKey).poison = [] ∧ s.copiesOf j.owner = [] ∧ s.memoryOk = true

/-- A job is over, with a cause or none. -/
def jobOver (u : State) (c : Nat) (j : Job) (e : Engine) (fail : Option Nat) : Prop :=
  (∃ d ∈ (u.core c).done, d.id = j.id ∧ d.eng = e ∧ d.fail = fail) ∧ ∀ x ∈ (u.core c).queue e, x.id ≠ j.id

/-- R316: the element of a bank entry stored in a format. -/
def storedAs (fmt : BitVec 5) (fpm : BitVec 6) (v : Nat) : Nat :=
  match elemOf fmt.toNat with
  | some (.int ..) => v
  | some k => (convert (.flt binary32) k fpm false v).1
  | none => v

/-- R316: the entry of a loaded element. -/
def loadedAs (fmt : BitVec 5) (fpm : BitVec 6) (v : Nat) : Nat :=
  match elemOf fmt.toNat with
  | some (.int ..) => v
  | some k => (convert k (.flt binary32) fpm false v).1
  | none => v

/-- No two elements of a handle's array share a byte. -/
def apart (h : TensorHandle) : Prop := h.cols.toNat * h.eb ≤ h.stride.toNat ∨ h.rows.toNat = 1

/-- An element of a tile of a scratch handle of a core, by its row and column in the tile. -/
def tileElem (c : Core) (h : TensorHandle) (i k : Nat) : Nat :=
  c.scratch.num (h.base.toNat + (h.row0 h.at_ + i) * h.stride.toNat + (h.col0 h.at_ + k) * h.eb) h.eb

end Sys2Proof.Claims

section
open Sys2Proof Sys2Proof.Machine

/-- R57 to R60, R304, R305, R311, R313 to R315: a step of MXMUL, MXGMUL or MXRANK adds the next group of up to 16 products into
every entry of M × N, an integer product modulo 2^32; every other entry keeps its value, or takes the identity in a bank that was
cleared. After the last group the job is over, the bank is dirty, and a fused output holds the entries. A poisoned bank ends it with
POISON, a bead string that is not one with BEAD, and nothing is written. SUB flushes nothing, no operand is DS8, and an output lies
in the scratchpad. -/
def Sys2Proof.Claims.MultiplySteps : Prop :=
  ∀ (cl c : Nat) (j : Job) (bk : Bank) (s : State), Claims.mxeRuns s cl c j bk →
    let bank := s.bank j.cl bk.val
    let core := s.core j.owner.coreKey
    let before (int : Bool) (e : Nat) := bank.get (if int then 0 else 0x80000000) e
    let refused (cause : Nat) := ∃ u, exec (.mxeStep cl) s = .next u ∧ Claims.jobOver u c j .mxe (some cause) ∧ u.bank j.cl bk.val = bank ∧
      u.mem = s.mem ∧ (u.core j.owner.coreKey).scratch = core.scratch
    ∀ q, Claims.multiply s j = some q → 1 ≤ q.n → q.n ≤ 64 → j.fpm.extractLsb' 2 2 = 0 → (∀ h ∈ q.reads, h.isDs8 = false) →
      (j.prog = 0 → bank.poison = true → refused 2) ∧
      (∀ a w out, j.op = .mxrank a w out → j.prog = 0 → bank.poison = false → Claims.beadsOk core a w = false → refused 3) ∧
      ((j.prog = 0 → bank.poison = false) → (∀ a w out, j.op = .mxrank a w out → j.prog = 0 → Claims.beadsOk core a w = true) →
        let int := match j.op with | .mxmul a _ _ => decide (a.fmt.toNat < 2) | .mxgmul a _ _ _ => decide (a.fmt.toNat < 2) | _ => false
        let ks := ((List.range 16).map (16 * j.prog + ·)).filter (fun k => decide (k < q.k))
        ∃ u, exec (.mxeStep cl) s = .next u ∧
          let after := fun e => (u.bank j.cl bk.val).get 0 e
          (u.bank j.cl bk.val).inuse = true ∧
          (∀ i n, i < q.m → n < q.n →
            (ks = [] → after (64 * i + n) = before int (64 * i + n)) ∧
            (int = true → (after (64 * i + n) : Int) =
              (before int (64 * i + n) + (ks.map (fun k => (q.a i k).2 * (q.b k n).2)).sum) % 2 ^ 32 ∨ ks = []) ∧
            (int = false → ks ≠ [] →
              Claims.afterGroup j.fpm (before int (64 * i + n)) (after (64 * i + n))
                (Claims.groupOf (ks.map (fun k => Claims.product (q.a i k).1 (q.b k n).1))))) ∧
          (∀ e, q.m ≤ e / 64 ∨ q.n ≤ e % 64 → after e = before int e) ∧
          (16 * (j.prog + 1) < q.k → u.mem = s.mem ∧ (u.core j.owner.coreKey).scratch = core.scratch ∧
            ∃ k, (u.core c).mxq = k :: (s.core c).mxq.tail ∧ k.id = j.id ∧ k.op = j.op ∧ k.prog = j.prog + 1 ∧
              (∀ a w out, j.op = .mxrank a w out → j.prog = 0 → k.idx = Claims.beads core a ∧ k.tab = core.atten)) ∧
          (q.k ≤ 16 * (j.prog + 1) →
            (q.out = none → Claims.jobOver u c j .mxe none ∧ (u.bank j.cl bk.val).dirty = true ∧ u.mem = s.mem) ∧
            (∀ d, q.out = some d → d.space = true → d.isScaled = false → Claims.apart d →
              Claims.jobOver u c j .mxe none ∧ (u.bank j.cl bk.val).dirty = false ∧ u.mem = s.mem ∧
              ∀ i n, i < d.tileRows d.at_ → n < d.tileCols d.at_ →
                Claims.tileElem (u.core j.owner.coreKey) d i n = Claims.storedAs d.fmt j.fpm (after (64 * i + n)) % 2 ^ (8 * d.eb))))

/-- R304, R305, R316, R317: MXLOAD of a tile of the scratchpad fills its entries and keeps the others, MXSTORE writes the entries to its
tile and changes none, and MXZERO leaves the cleared state, which reads as the identity of each kind; each is over in one step. -/
def Sys2Proof.Claims.BankTransfers : Prop :=
  ∀ (cl c : Nat) (j : Job) (bk : Bank) (s : State), Claims.mxeRuns s cl c j bk →
    let bank := s.bank j.cl bk.val
    let core := s.core j.owner.coreKey
    (∀ h, j.op = .mxload h → h.space = true → 1 ≤ h.tileCols h.at_ → h.tileCols h.at_ ≤ 64 →
      ∃ u, exec (.mxeStep cl) s = .next u ∧ Claims.jobOver u c j .mxe none ∧ u.mem = s.mem ∧
        (u.core j.owner.coreKey).scratch = core.scratch ∧
        let b := u.bank j.cl bk.val
        b.inuse = true ∧ b.dirty = true ∧ b.poison = false ∧
        (∀ i k, i < h.tileRows h.at_ → k < h.tileCols h.at_ →
          b.get 0 (64 * i + k) = Claims.loadedAs h.fmt j.fpm (Claims.tileElem core h i k) % 2 ^ 32) ∧
        ∀ e, h.tileRows h.at_ ≤ e / 64 ∨ h.tileCols h.at_ ≤ e % 64 → b.get 0 e = bank.get (if h.fmt = 0x04 then 0 else 0x80000000) e) ∧
    (∀ h, j.op = .mxstore h → h.space = true → h.isScaled = false → Claims.apart h →
      (j.prog = 0 → bank.poison = true →
        ∃ u, exec (.mxeStep cl) s = .next u ∧ Claims.jobOver u c j .mxe (some 2) ∧ u.mem = s.mem ∧
          (u.core j.owner.coreKey).scratch = core.scratch) ∧
      (bank.poison = false → ∃ u, exec (.mxeStep cl) s = .next u ∧ Claims.jobOver u c j .mxe none ∧ u.mem = s.mem ∧
        (u.bank j.cl bk.val).dirty = false ∧ (∀ v e, (u.bank j.cl bk.val).get v e = bank.get v e) ∧
        ∀ i k, i < h.tileRows h.at_ → k < h.tileCols h.at_ →
          Claims.tileElem (u.core j.owner.coreKey) h i k =
            Claims.storedAs h.fmt j.fpm (bank.get (if h.fmt = 0x04 then 0 else 0x80000000) (64 * i + k)) % 2 ^ (8 * h.eb))) ∧
    (j.op = .mxzero → ∃ u, exec (.mxeStep cl) s = .next u ∧ Claims.jobOver u c j .mxe none ∧ u.mem = s.mem ∧
      (u.core j.owner.coreKey).scratch = core.scratch ∧
      let b := u.bank j.cl bk.val
      b.inuse = false ∧ b.dirty = false ∧ b.poison = false ∧ b.owner = bank.owner ∧ ∀ v e, b.get v e = v)

/-- R302 to R317: the steps of the matrix engine. -/
def Obligations.IntegerMatrixMultiply : Prop := Claims.IntegerProduct ∧ Claims.MultiplySteps ∧ Claims.BankTransfers

end

namespace Sys2Proof.Claims
open Sys2Proof.Machine

/-- R342: in a package with no gang, every present die has joined the c-th collective of a launch with the oldest job of one of its
cores, and no message of it has been lost (R439, R450): js lists the cores and their jobs in ring order. -/
def joined (s : State) (lid c : Nat) (js : List (Nat × Job)) : Prop :=
  s.presentDies.map (fun d => s.colJob lid d c) = js.map some ∧ (∀ x ∈ js, s.colHead x = true) ∧
  ∃ l, s.launch? lid = some l ∧ l.gang ≠ 3 ∧ Assoc.find c l.lostCols = none ∧ l.gangLo.1 = 0 ∧ l.gangHi.1 = 0

/-- R323: element e of an array of a scratchpad, by rows. -/
def arrayElem (s : State) (core : Nat) (h : TensorHandle) (e : Nat) : Nat :=
  (s.core core).scratch.num (h.base.toNat + e / h.cols.toNat * h.stride.toNat + e % h.cols.toNat * h.eb) h.eb

/-- R343: the operation of a COLRED on two values: acc[2:1] is 0 for the sum, 1 for the maximum and 2 for the minimum. -/
def combine (fmt : BitVec 5) (fpm : BitVec 6) (acc : BitVec 3) (r x : Nat) : Nat :=
  let o := acc.extractLsb' 1 2
  match elemOf fmt.toNat with
  | some (.int sg w) =>
    if o = 0 then (r + x) % 2 ^ w
    else if o = 1 then (if integer sg w r < integer sg w x then x else r)
    else (if integer sg w x < integer sg w r then x else r)
  | some (.flt F) => if o = 0 then (rounded2 FVal.add F fpm r x).1 else (F.maxmin fpm (o = 1) r x).1
  | _ => r

/-- A participant of a collective whose output is an array of n elements of its core's scratchpad, no two rows of which share a byte;
nothing has failed in its job, and its thread has no second copy (R408). -/
def participant (s : State) (x : Nat × Job) (hd : TensorHandle) (fmt : BitVec 5) (n : Nat) : Prop :=
  x.2.owner.coreKey = x.1 ∧ s.copiesOf x.2.owner = [] ∧ x.2.fail = none ∧ hd.space = true ∧ hd.fmt = fmt ∧ hd.count = n ∧
  (hd.cols.toNat * hd.eb ≤ hd.stride.toNat ∨ hd.rows.toNat = 1)

/-- The collective of a participant has completed, without failure. -/
def collected (u : State) (x : Nat × Job) : Prop := ∃ y ∈ (u.core x.1).done, y.id = x.2.id ∧ y.eng = .cle ∧ y.fail = none

/-- R342, R343: COLLECTIVE_EXECUTE. A collective that every die has joined completes on each. Of arrays of the scratchpads: a COLRED
gives every participant the elements combined in ring order, all of them or, with .rs, its own part; a COLBC gives every participant
the root's array. No physical memory changes. -/
def Collectives (s : State) : Prop :=
  ∀ (lid c : Nat) (js : List (Nat × Job)) (hd ha : Nat → TensorHandle) (fmt : BitVec 5) (fpm : BitVec 6) (acc : BitVec 3) (n : Nat),
    joined s lid c js →
    (∃ u, exec (.collectiveExecute lid c) s = .next u ∧ ∀ x ∈ js, ∃ y ∈ (u.core x.1).done, y.id = x.2.id ∧ y.eng = .cle) ∧
    (let part := if acc.getLsbD 0 then n / js.length else n;
      s.memoryOk = true → colFormat fmt = true → 0 < n → acc.extractLsb' 1 2 ≠ 3 → (acc.getLsbD 0 = true → n % js.length = 0) →
      (∀ x ∈ js, x.2.op = .colred (hd x.1) (ha x.1) acc ∧ x.2.fpm = fpm ∧ participant s x (hd x.1) fmt part ∧
        (ha x.1).space = true ∧ (ha x.1).fmt = fmt ∧ (ha x.1).count = n) →
      ∃ u, exec (.collectiveExecute lid c) s = .next u ∧ u.mem = s.mem ∧ ∀ i x x0 r, js[i]? = some x → js = x0 :: r →
        collected u x ∧ ∀ e, e < part →
          let k := if acc.getLsbD 0 then i * part + e else e
          arrayElem u x.1 (hd x.1) e =
            (r.foldl (fun v y => combine fmt fpm acc v (arrayElem s y.1 (ha y.1) k)) (arrayElem s x0.1 (ha x0.1) k)) %
              2 ^ (8 * (hd x.1).eb)) ∧
    (∀ root ∈ js, s.memoryOk = true → colFormat fmt = true → 0 < n →
      (∀ x ∈ js, x.2.op = .colbc (hd x.1) (ha x.1) ∧ x.2.fpm = fpm ∧ participant s x (hd x.1) fmt n ∧
        (x ≠ root → (ha x.1).empty? = true)) →
      (ha root.1).space = true → (ha root.1).fmt = fmt → (ha root.1).count = n →
      ∃ u, exec (.collectiveExecute lid c) s = .next u ∧ u.mem = s.mem ∧ ∀ x ∈ js, collected u x ∧
        ∀ e, e < n → arrayElem u x.1 (hd x.1) e = arrayElem s root.1 (ha root.1) e)

end Sys2Proof.Claims

namespace Sys2Proof.Claims
open Sys2Proof.Machine

/-! Tiles of scratchpads as the block transfer unit reads and writes them (R335, R337). -/

/-- R335: a scratch BASE that selects the submitter's own core, or a core of its cluster. -/
def inPads (h : TensorHandle) : Prop :=
  h.space = true ∧ h.base.toNat / 2 ^ 23 = 0 ∧ (h.base.toNat / 2 ^ 19 % 16 = 0 ∨ 8 ≤ h.base.toNat / 2 ^ 19 % 16)

/-- R335: the core whose scratchpad it selects. -/
def padOf (h : TensorHandle) (t : Tid) : Nat :=
  if h.base.toNat / 2 ^ 19 % 16 = 0 then t.coreKey
  else t.die * 256 + (coresOfCluster (clusterOf t.core)).getD (h.base.toNat / 2 ^ 19 % 16 - 8) 0

/-- R335: the offset in the scratchpad of the element at a row and column of the tile at a cursor. -/
def spotOf (h : TensorHandle) (cur i k : Nat) : Nat :=
  h.base.toNat % 2 ^ 19 + (h.row0 cur + i) * h.stride.toNat + (h.col0 cur + k) * h.eb

/-- The element there. -/
def elemOfPad (s : State) (t : Tid) (h : TensorHandle) (cur i k : Nat) : Nat :=
  (s.core (padOf h t)).scratch.num (spotOf h cur i k) h.eb

/-- R40: the offset of the scale byte of that element. -/
def scaleSpot (h : TensorHandle) (cur i k : Nat) : Nat :=
  h.base.toNat % 2 ^ 19 + h.spoff.toNat + (h.row0 cur + i) * ((h.cols.toNat + 63) / 64) + (h.col0 cur + k) / 64

/-- The scale byte there. -/
def scaleOfPad (s : State) (t : Tid) (h : TensorHandle) (cur i k : Nat) : Nat :=
  (s.core (padOf h t)).scratch.num (scaleSpot h cur i k) 1

/-- R337: an element copied between two formats without scales, and the flags of its conversion. -/
def copied (src dst : BitVec 5) (fpm : BitVec 6) (x : Nat) : Nat × BitVec 5 :=
  if src = dst then (x, 0)
  else match elemOf src.toNat, elemOf dst.toNat with
    | some k, some l => convert k l fpm false x
    | _, _ => (x, 0)

/-- Every byte of every scratchpad that is not among those named has kept its value. -/
def padsKeep (s u : State) (named : Nat → Nat → Prop) : Prop :=
  ∀ c a, ¬ named c a → (u.core c).scratch.read a = (s.core c).scratch.read a

/-- A byte of an element of the tile of a handle at one of the cursors CUR to CUR + p − 1. -/
def tileByte (h : TensorHandle) (t : Tid) (p : Nat) (c a : Nat) : Prop :=
  c = padOf h t ∧ ∃ q i k, q < p ∧ i < h.tileRows (h.at_ + q) ∧ k < h.tileCols (h.at_ + q) ∧
    spotOf h (h.at_ + q) i k ≤ a ∧ a < spotOf h (h.at_ + q) i k + h.eb

/-- R334: the block transfer that has the head of its core's queue and has not begun. -/
def btuHead (s : State) (core : Nat) (j : Job) (r : List Job) : Prop :=
  (s.core core).btq = j :: r ∧ (∀ x ∈ r, x.id ≠ j.id) ∧ j.prog = 0 ∧ j.fail = none ∧ s.copiesOf j.owner = [] ∧ s.memoryOk = true

/-- R334: it has begun: its cause is this one, and its flags are those of the conversions that the predicate names. -/
def begun (u : State) (core : Nat) (j : Job) (r : List Job) (fail : Option Nat) (flag : Nat → Prop) : Prop :=
  ∃ k, (u.core core).btq = k :: r ∧ k.id = j.id ∧ k.owner = j.owner ∧ k.op = j.op ∧ k.prog = 1 ∧ k.fail = fail ∧
    ∀ b, k.flags.getLsbD b = true ↔ j.flags.getLsbD b = true ∨ flag b

/-- R337: elements (i, k) of a tile, as they lie in a buffer (R338): the byte b of the stream. -/
def streamByte (m : Memory) (h : TensorHandle) (b : Nat) : Byte :=
  let e := b / h.eb
  m.read (spotOf h h.at_ (e / h.tileCols h.at_) (e % h.tileCols h.at_) + b % h.eb)

/-- R338: the slots that the bytes of a tile fill. -/
def slotsOf (h : TensorHandle) (k : CbHandle) : Nat :=
  (h.tileRows h.at_ * h.tileCols h.at_ * h.eb + k.slotsz.toNat - 1) / k.slotsz.toNat

end Sys2Proof.Claims

section
open Sys2Proof Sys2Proof.Machine

/-- R337, R338, R341: what a block transfer between scratchpads moves as it begins, in a machine with no poisoned value. CPY and CPYG
write every element of their tiles, converted, from what the source held before; CPYF its pattern; CPYW the bytes of the tile into the
slots from TAIL, or those of the slots from HEAD into the tile. An index not below ROWS fails a gather with INDEX, and a buffer without
the room or the slots a CPYW with RING: nothing is written. A buffer advances at the end, when the job has not failed. Tiles with scale
planes are stated for a CPY of one plane with equal formats whose blocks are cut alike. -/
def Sys2Proof.Claims.BlockTransfers : Prop :=
  ∀ (s : State), s.unmarked = true → (∀ c, (s.core c).poison = []) →
    (∀ core j r, Claims.btuHead s core j r →
      let t := j.owner
      (∀ d a p, j.op = .cpy d a p → Claims.inPads d → Claims.inPads a → Claims.apart d → d.isScaled = false → a.isScaled = false →
        (∀ q, q < p → d.tileRows (d.at_ + q) = a.tileRows (a.at_ + q) ∧ d.tileCols (d.at_ + q) = a.tileCols (a.at_ + q)) →
        let value (q i k : Nat) := Claims.copied a.fmt d.fmt j.fpm (Claims.elemOfPad s t a (a.at_ + q) i k)
        let within (q i k : Nat) := q < p ∧ i < d.tileRows (d.at_ + q) ∧ k < d.tileCols (d.at_ + q)
        ∃ u, exec (.btuJobStart core j.id) s = .next u ∧ u.mem = s.mem ∧
          Claims.begun u core j r none (fun b => ∃ q i k, within q i k ∧ (value q i k).2.getLsbD b = true) ∧
          (∀ q i k, within q i k → Claims.elemOfPad u t d (d.at_ + q) i k = (value q i k).1 % 2 ^ (8 * d.eb)) ∧
          Claims.padsKeep s u (Claims.tileByte d t p)) ∧
      (∀ d a, j.op = .cpy d a 1 → Claims.inPads d → Claims.inPads a → Claims.apart d → d.isScaled = true → a.fmt = d.fmt →
        d.rows.toNat * d.stride.toNat + d.cols.toNat * d.eb ≤ d.spoff.toNat → a.col0 a.at_ % 64 = d.col0 d.at_ % 64 →
        d.tileRows d.at_ = a.tileRows a.at_ → d.tileCols d.at_ = a.tileCols a.at_ →
        ∃ u, exec (.btuJobStart core j.id) s = .next u ∧ u.mem = s.mem ∧ Claims.begun u core j r none (fun _ => False) ∧
          ∀ i k, i < d.tileRows d.at_ → k < d.tileCols d.at_ →
            Claims.elemOfPad u t d d.at_ i k = Claims.elemOfPad s t a a.at_ i k ∧
            Claims.scaleOfPad u t d d.at_ i k = Claims.scaleOfPad s t a a.at_ i k) ∧
      (∀ d a ix, j.op = .cpyg d a ix → Claims.inPads d → Claims.inPads a → Claims.inPads ix → Claims.apart d →
        d.isScaled = false → a.isScaled = false →
        let m := d.tileRows d.at_
        let idx (i : Nat) := Claims.elemOfPad s t ix ix.at_ 0 i
        let value (i k : Nat) := Claims.copied a.fmt d.fmt j.fpm ((s.core (Claims.padOf a t)).scratch.num
          (a.base.toNat % 2 ^ 19 + idx i * a.stride.toNat + (a.col0 a.at_ + k) * a.eb) a.eb)
        let within (i k : Nat) := i < m ∧ k < d.tileCols d.at_
        ((∃ i, i < m ∧ a.rows.toNat ≤ idx i) → ∃ u, exec (.btuJobStart core j.id) s = .next u ∧ u.mem = s.mem ∧
          Claims.begun u core j r (some 2) (fun _ => False) ∧ Claims.padsKeep s u (fun _ _ => False)) ∧
        ((∀ i, i < m → idx i < a.rows.toNat) → ∃ u, exec (.btuJobStart core j.id) s = .next u ∧ u.mem = s.mem ∧
          Claims.begun u core j r none (fun b => ∃ i k, within i k ∧ (value i k).2.getLsbD b = true) ∧
          (∀ i k, within i k → Claims.elemOfPad u t d d.at_ i k = (value i k).1 % 2 ^ (8 * d.eb)) ∧
          Claims.padsKeep s u (Claims.tileByte d t 1))) ∧
      (∀ d pat, j.op = .cpyf d pat → Claims.inPads d → Claims.apart d →
        ∃ u, exec (.btuJobStart core j.id) s = .next u ∧ u.mem = s.mem ∧ Claims.begun u core j r none (fun _ => False) ∧
          (∀ i k, i < d.tileRows d.at_ → k < d.tileCols d.at_ → Claims.elemOfPad u t d d.at_ i k = pat.toNat % 2 ^ (8 * d.eb)) ∧
          Claims.padsKeep s u (Claims.tileByte d t 1)) ∧
      (∀ c a, j.op = .cpywFill c a → Claims.inPads a → ((s.thread t).rc c).valid = true →
        let k := (s.thread t).rc c
        let size := a.tileRows a.at_ * a.tileCols a.at_ * a.eb
        let ring (b : Nat) := k.base.toNat + (k.tail.toNat * k.slotsz.toNat + b) % (k.count.toNat * k.slotsz.toNat)
        (k.count.toNat - k.fill.toNat < Claims.slotsOf a k → ∃ u, exec (.btuJobStart core j.id) s = .next u ∧ u.mem = s.mem ∧
          Claims.begun u core j r (some 3) (fun _ => False) ∧ Claims.padsKeep s u (fun _ _ => False)) ∧
        (Claims.slotsOf a k ≤ k.count.toNat - k.fill.toNat → ∃ u, exec (.btuJobStart core j.id) s = .next u ∧ u.mem = s.mem ∧
          Claims.begun u core j r none (fun _ => False) ∧ (u.thread t).rc c = k ∧
          (∀ b, b < size → (u.core t.coreKey).scratch.read (ring b) = Claims.streamByte (s.core (Claims.padOf a t)).scratch a b) ∧
          Claims.padsKeep s u (fun x y => x = t.coreKey ∧ ∃ b, b < size ∧ y = ring b))) ∧
      (∀ d c, j.op = .cpywDrain d c → Claims.inPads d → Claims.apart d → ((s.thread t).rc c).valid = true →
        let k := (s.thread t).rc c
        let size := d.tileRows d.at_ * d.tileCols d.at_ * d.eb
        let ring (b : Nat) := k.base.toNat + (k.head.toNat * k.slotsz.toNat + b) % (k.count.toNat * k.slotsz.toNat)
        (k.fill.toNat < Claims.slotsOf d k → ∃ u, exec (.btuJobStart core j.id) s = .next u ∧ u.mem = s.mem ∧
          Claims.begun u core j r (some 3) (fun _ => False) ∧ Claims.padsKeep s u (fun _ _ => False)) ∧
        (Claims.slotsOf d k ≤ k.fill.toNat → ∃ u, exec (.btuJobStart core j.id) s = .next u ∧ u.mem = s.mem ∧
          Claims.begun u core j r none (fun _ => False) ∧ (u.thread t).rc c = k ∧
          (∀ b, b < size → Claims.streamByte (u.core (Claims.padOf d t)).scratch d b = (s.core t.coreKey).scratch.read (ring b)) ∧
          Claims.padsKeep s u (Claims.tileByte d t 1)))) ∧
    ∀ core j r, (s.core core).btq = j :: r → (∀ x ∈ r, x.id ≠ j.id) → j.prog ≠ 0 →
      let end_ (c : CReg) (k : CbHandle) := ∃ u, exec (.btuJobComplete core j.id) s = .next u ∧ (u.thread j.owner).rc c = k ∧ u.mem = s.mem ∧
        ∀ x, (u.core x).scratch = (s.core x).scratch
      (∀ c a, j.op = .cpywFill c a → ((s.thread j.owner).rc c).valid = true →
        let k := (s.thread j.owner).rc c
        let n := Claims.slotsOf a k
        (j.fail.isSome = true → end_ c k) ∧
        (j.fail = none → end_ c { k with tail := BitVec.ofNat 8 ((k.tail.toNat + n) % k.count.toNat), fill := k.fill + BitVec.ofNat 8 n })) ∧
      (∀ d c, j.op = .cpywDrain d c → ((s.thread j.owner).rc c).valid = true →
        let k := (s.thread j.owner).rc c
        let n := Claims.slotsOf d k
        (j.fail.isSome = true → end_ c k) ∧
        (j.fail = none → end_ c { k with head := BitVec.ofNat 8 ((k.head.toNat + n) % k.count.toNat), fill := k.fill - BitVec.ofNat 8 n }))

/-- R51, R245: ACC_SPILL writes an entry of the slice in the layout of R51 to a free place of its die's region, of which the entry then
keeps the number, or brings one back; every accumulator keeps its value. -/
def Sys2Proof.Claims.AccSpills : Prop :=
  ∀ (slice : Nat) (s : State), s.memoryOk = true → s.pkg.accs.Pairwise (fun x y => x.asid ≠ y.asid ∨ x.va ≠ y.va) →
    let d := s.sliceDie slice
    let room := 1024 * ((s.die d).accspill.toNat % 2 ^ 16)
    let changed (u : State) (e e' : AccEntry) := (∀ x, x ∈ u.pkg.accs ↔ x = e' ∨ x ∈ s.pkg.accs ∧ x ≠ e) ∧
      ∀ k va, u.accRead k va = s.accRead k va
    ((∃ e ∈ s.pkg.accs, e.spilled = none ∧ s.slotOf e = slice) →
      (s.pkg.accs.filter (fun e => e.spilled.isSome && s.accDie e == d)).length < room →
      ∃ u e i, exec (.accSpill slice false) s = .next u ∧ e ∈ s.pkg.accs ∧ e.spilled = none ∧ s.slotOf e = slice ∧
        i < room ∧ (∀ x ∈ s.pkg.accs, x.spilled = some i → s.accDie x ≠ d) ∧ changed u e { e with spilled := some i } ∧
        let a := (s.die d).accspill.toNat / 2 ^ 16 % 2 ^ 36 * 65536 + 64 * i
        let bits := [e.acc.xsat, e.acc.pinf, e.acc.ninf, e.acc.nan, e.acc.any, e.acc.nnz]
        Claims.holds u.mem a 40 e.acc.val.toNat ∧
        Claims.holds u.mem (a + 40) 8 (e.acc.xc.toNat + ((bits.zipIdx.map (fun x => x.1.toNat * 2 ^ (8 + x.2))).sum)) ∧
        Claims.sameOutside s.mem u.mem a 64) ∧
    ((∃ e ∈ s.pkg.accs, e.spilled.isSome = true ∧ s.slotOf e = slice) →
      (s.pkg.accs.filter (fun e => e.spilled.isNone && s.slotOf e == slice)).length < 4096 →
      ∃ u e, exec (.accSpill slice true) s = .next u ∧ e ∈ s.pkg.accs ∧ e.spilled.isSome = true ∧ s.slotOf e = slice ∧
        changed u e { e with spilled := none } ∧ u.mem = s.mem)

/-- R321, R334, R338, R342, R343, R303, R245: what the engines' own steps do to their queues where no value is poisoned (R392): a pass of
a job that has more to come counts it, and the last completes it (that a job acts whole at its last pass is the model's choice, its log
entry 18); a transfer begins when the jobs before it have begun, and completes after that; a collective completes on every die with its
result; a bank whose release waited is cleared. -/
def Sys2Proof.Claims.EngineQueues : Prop :=
  ∀ (s : State), s.unmarked = true → (∀ c, (s.core c).poison = []) →
    (∀ cl p j, s.rkNext cl = some p → headFor (s.core (posCore cl p)).rsq cl = some j →
      let c := posCore cl p
      (j.prog + 1 < j.op.passes →
        ∃ u, exec (.rsuPass cl) s = .next u ∧ (u.core c).rsq = { j with prog := j.prog + 1 } :: (s.core c).rsq.tail) ∧
      (j.op.passes ≤ j.prog + 1 →
        ∃ u, exec (.rsuPass cl) s = .next u ∧ (∀ x ∈ (u.core c).rsq, x.id ≠ j.id) ∧
          ∃ d ∈ (u.core c).done, d.id = j.id ∧ d.eng = .rsu ∧ d.owner = j.owner)) ∧
    (∀ core j r, (s.core core).btq = j :: r → (∀ x ∈ r, x.id ≠ j.id) →
      (j.prog = 0 → ∃ u k, exec (.btuJobStart core j.id) s = .next u ∧ k ∈ (u.core core).btq ∧ k.id = j.id ∧ k.op = j.op ∧ k.prog = 1) ∧
      (j.prog ≠ 0 → ∃ u, exec (.btuJobComplete core j.id) s = .next u ∧ (u.core core).btq = r ∧
        ∃ d ∈ (u.core core).done, d.id = j.id ∧ d.eng = .btu ∧ d.fail = j.fail)) ∧
    Claims.Collectives s ∧
    (∀ cl b t, (s.bank cl b.val).owner = some t → (s.bank cl b.val).releasing = true → s.bankBusy t cl b.val = false →
      ∃ u, exec (.bankRelease cl b) s = .next u ∧ u.bank cl b.val = BankState.cleared ∧ u.mem = s.mem ∧ u.threads = s.threads) ∧
    (∀ slice s', s.spillOne slice = some s' → exec (.accSpill slice false) s = .next s') ∧
    (∀ slice s', s.unspillOne slice = some s' → exec (.accSpill slice true) s = .next s')

/-- R245, R303, R321, R334, R337, R338, R342, R343: the engines' own steps. -/
def Obligations.EngineEvents : Prop := Claims.EngineQueues ∧ Claims.BlockTransfers ∧ Claims.AccSpills

end

namespace Sys2Proof.Claims
open Sys2Proof.Machine

/-- R324: the value of a key, a subnormal one read as zero when FPM.SUB is 2 or 3; none of a NaN. The infinities lie beyond every value
of the key formats. -/
def keyValue (fmt : BitVec 5) (fpm : BitVec 6) (x : Nat) : Option Int :=
  match elemOf fmt.toNat with
  | some (.int sg w) => some (integer sg w x * one)
  | some (.flt F) =>
    if finite F x then some (if fpm.getLsbD 3 && x / 2 ^ F.fbits % 2 ^ F.ebits == 0 then 0 else value F x)
    else if !F.f8 && x % 2 ^ F.fbits == 0 then some (if x.testBit (F.width - 1) then -2 ^ 1500 else 2 ^ 1500)
    else none
  | _ => none

/-- R324: a key of one value and index precedes another: the greater, of equal ones and of NaNs the one with the lower index, and a
number a NaN. -/
def before (a b : Option Int × Nat) : Bool :=
  match a.1, b.1 with
  | some x, some y => decide (y < x) || (x == y && decide (a.2 < b.2))
  | some _, none => true
  | none, some _ => false
  | none, none => decide (a.2 < b.2)

/-- R325: a key exceeds the threshold of a configuration, a binary32 value. -/
def exceeds (cfg : Word) (fpm : BitVec 6) (v : Option Int) : Bool :=
  match v, keyValue 0x0A fpm (cfg.toNat / 2 ^ 32) with
  | some x, some t => decide (t < x)
  | _, _ => false

/-- R321: the job whose last pass is the next of a cluster's rank and select unit, in a machine with no poisoned value. -/
def lastPass (s : State) (cl c : Nat) (j : Job) : Prop :=
  s.unmarked = true ∧ (∀ c, (s.core c).poison = []) ∧ s.memoryOk = true ∧ j.fail = none ∧ s.copiesOf j.owner = [] ∧
  j.op.passes ≤ j.prog + 1 ∧ ∃ p, s.rkNext cl = some p ∧ c = posCore cl p ∧ headFor (s.core c).rsq cl = some j

/-- R326: a bead string and its zeros. -/
def beadString (m : Memory) (a n : Nat) (ranks : List Nat) : Prop :=
  holds m a 4 n ∧ holds m (a + 4) 4 ranks.length ∧ (∀ i, i < ranks.length → holds m (a + 8 + 2 * i) 2 (ranks.getD i 0)) ∧
  ∀ b, 8 + 2 * ranks.length ≤ b → b < (8 + 2 * ranks.length + 15) / 16 * 16 → m.read (a + b) = 0

end Sys2Proof.Claims

section
open Sys2Proof Sys2Proof.Machine

/-- R324, R325: the order of ranking: of two numeric keys the greater comes first, equal keys by their index, and a NaN after every
number; the kept indices are distinct, at most CUT of them: the first min(C, A) of the order, in that order. -/
def Sys2Proof.Claims.RankOrder : Prop :=
  ∀ (fmt : BitVec 5) (fpm : BitVec 6) (cfg : Word) (keys : List Nat),
    let kept := rankRun fmt fpm cfg keys
    let at_ (i : Nat) := (Claims.keyValue fmt fpm (keys.getD i 0), i)
    let cut := if cfg.extractLsb' 0 17 = 0 then 65536 else (cfg.extractLsb' 0 17).toNat
    let above := (List.range keys.length).filter (fun i => Claims.exceeds cfg fpm (at_ i).1)
    (keyFormat fmt = true → (∀ k ∈ keys, k < 2 ^ (8 * fmtBytes fmt.toNat)) →
      kept.Pairwise (fun i j => Claims.before (at_ i) (at_ j) = true) ∧
      (∀ i ∈ kept, ∀ j, j < keys.length → Claims.before (at_ j) (at_ i) = true → j ∈ kept) ∧
      kept.length = min cut (if cfg.getLsbD 17 then above.length else keys.length)) ∧
    let key (i : Nat) := rankKey fmt fpm (keys.getD i 0)
    kept.length ≤ rkCut cfg ∧ kept.length ≤ keys.length ∧ kept.Nodup ∧ (∀ i ∈ kept, i < keys.length) ∧
    (cfg.getLsbD 17 = false → keys.length ≤ rkCut cfg → kept.length = keys.length) ∧
    (∀ i j, i < j → j < keys.length → key i = none → key j = none → precedes (key i, i) (key j, j) = true) ∧
    (∀ i j v, key i = some v → key j = none → precedes (key i, i) (key j, j) = true ∧ precedes (key j, j) (key i, i) = false)

/-- R326, R327, R329, R330: what the last pass of a job leaves in the scratchpads and the tables, in a machine with no poisoned value:
RKSORT and RKTOPK write the bead string of every run, and zeros up to a multiple of 16 bytes, and no other byte; RKTAB replaces the table
that the image names, or fails with TABLE; RKVAL writes the vector that the string and T′ rebuild, or fails with BEAD, and nothing is
written. That a job acts whole at its last pass is the model's choice (its log entry 18). -/
def Sys2Proof.Claims.RankResults : Prop :=
  ∀ (cl c : Nat) (j : Job) (s : State), Claims.lastPass s cl c j →
    let core := s.core j.owner.coreKey
    let at_ (h : TensorHandle) (a n : Nat) := core.scratch.num (h.base.toNat + a) n
    let kept (u : State) := u.mem = s.mem ∧ (u.core j.owner.coreKey).atten = core.atten ∧ (u.core j.owner.coreKey).recon = core.recon ∧
      (u.core j.owner.coreKey).reconFill = core.reconFill
    let failed (cause : Nat) := ∃ u, exec (.rsuPass cl) s = .next u ∧ Claims.jobOver u c j .rsu (some cause) ∧ kept u ∧
      Claims.padsKeep s u (fun _ _ => False)
    (∀ (columns : Bool) d k cfg, j.op = (if columns then .rktopk d k cfg else .rksort d k cfg) → d.space = true → k.space = true →
      let runs := if columns then k.cols.toNat else 1
      let n := if columns then k.rows.toNat else k.rows.toNat * k.cols.toNat
      let key (run i : Nat) := if columns then at_ k (i * k.stride.toNat + run * k.eb) k.eb
        else at_ k (i / k.cols.toNat * k.stride.toNat + i % k.cols.toNat * k.eb) k.eb
      let ranks (run : Nat) := rankRun k.fmt j.fpm cfg ((List.range n).map (key run))
      let place (run : Nat) := d.base.toNat + run * d.stride.toNat
      n ≤ 65536 → (runs ≤ 1 ∨ ∀ run, run < runs → (8 + 2 * (ranks run).length + 15) / 16 * 16 ≤ d.stride.toNat) →
      ∃ u, exec (.rsuPass cl) s = .next u ∧ Claims.jobOver u c j .rsu none ∧ kept u ∧
        (∀ run, run < runs → Claims.beadString (u.core j.owner.coreKey).scratch (place run) n (ranks run)) ∧
        Claims.padsKeep s u (fun x y => x = j.owner.coreKey ∧
          ∃ run, run < runs ∧ place run ≤ y ∧ y < place run + (8 + 2 * (ranks run).length + 15) / 16 * 16)) ∧
    (∀ h, j.op = .rktab h → h.space = true →
      let l := at_ h 2 2 % 1024 + 1
      let table := (List.range l).map (fun i => BitVec.ofNat 32 (at_ h (16 + i * h.eb) h.eb * (if h.fmt = 0x09 then 65536 else 1)))
      if at_ h 0 2 < 2 ∧ at_ h 2 2 < 1024 ∧ at_ h 8 8 = 0 ∧ h.base.toNat + 16 + l * h.eb ≤ core.scratchSize then
        ∃ u, exec (.rsuPass cl) s = .next u ∧ Claims.jobOver u c j .rsu none ∧ u.mem = s.mem ∧ Claims.padsKeep s u (fun _ _ => False) ∧
          let v := u.core j.owner.coreKey
          if at_ h 0 2 = 0 then v.atten = table ∧ v.recon = core.recon ∧ v.reconFill = core.reconFill
          else v.atten = core.atten ∧ v.recon = table ∧ v.reconFill = BitVec.ofNat 32 (at_ h 4 4)
      else failed 2) ∧
    (∀ d b, j.op = .rkval d b → d.space = true → b.space = true → Claims.apart d →
      let n := at_ b 0 4
      let r := at_ b 4 4
      let idx (q : Nat) := at_ b (8 + 2 * q) 2
      let spot (e : Nat) := d.base.toNat + e / d.cols.toNat * d.stride.toNat + e % d.cols.toNat * d.eb
      let ok := 1 ≤ n ∧ n ≤ 65536 ∧ r ≤ 65536 ∧ n = d.rows.toNat * d.cols.toNat ∧ b.base.toNat + 8 + 2 * r ≤ core.scratchSize ∧
        ∀ q, q < r → idx q < n
      (¬ ok → failed 3) ∧
      (ok → ∃ u, exec (.rsuPass cl) s = .next u ∧ Claims.jobOver u c j .rsu none ∧ kept u ∧
        let new (e : Nat) := (u.core j.owner.coreKey).scratch.num (spot e) d.eb
        let names (q e : Nat) := q < r ∧ q < core.recon.length ∧ idx q = e
        (∀ q e, e < n → names q e → (∀ q', q < q' → ¬ names q' e) →
          new e = Claims.storedAs d.fmt j.fpm (core.recon.getD q 0).toNat % 2 ^ (8 * d.eb)) ∧
        (∀ e, e < n → (∀ q, ¬ names q e) → new e = Claims.storedAs d.fmt j.fpm core.reconFill.toNat % 2 ^ (8 * d.eb)) ∧
        Claims.padsKeep s u (fun x y => x = j.owner.coreKey ∧ ∃ e, e < n ∧ spot e ≤ y ∧ y < spot e + d.eb)))

/-- R321 to R327, R329, R330: the rank and select unit. -/
def Obligations.RankAndSelect : Prop := Claims.RankSubmissions ∧ Claims.RankOrder ∧ Claims.RankResults

end

namespace Sys2Proof.Claims
open Sys2Proof.Machine

/-- A queue on a slot with its current packet at the front end: nothing stops the packet from being carried out (R353 to R359). -/
def packetReady (s : State) (slot q : Nat) (x : Queue) (p : Packet) : Prop :=
  s.onSlot slot = some (q, x) ∧ s.queue q = x ∧ x.killed = false ∧ x.fault = none ∧ x.packet = some p ∧ p.bad = none ∧ (p.bar = true → s.armedOver x = true)

/-- The byte that a list of cells leaves at an address, the last of them, or what was there. -/
def lastOf (cells : List Host.Cell) (a : Nat) (old : Byte) : Byte := ((cells.reverse.find? (fun c => c.1 == a)).map (·.2)).getD old

/-- R229: the bytes that an entry of a commit buffer holds, at the granule of its token. -/
def masked (e : D2Entry) : List Host.Cell :=
  (List.range 16).filterMap (fun i =>
    if e.mask.getLsbD i then some (16 * e.pgran.getD 0 + i, e.data.extractLsb' (8 * i) 8) else none)

/-- R277, R435, R447: a request of a transaction is below the horizon of its key's lock manager: every sequencer of the array's scope has
announced a greater RN to it. -/
def belowHorizon (s : State) (x : Txn) (q : KeyReq) : Prop :=
  let slice := s.keySlice q.key
  let pod := s.keyPod q.key
  (∀ d ∈ s.presentDies, x.rn < s.hzFrom slice d pod) ∧
  (pod = true → ∀ p ∈ s.podOthers, ∀ r, r < s.diesIn p → x.rn < s.hzFar slice p r)

/-- R279: a queued request may be granted: it is below the horizon, and no request of lower RN on the key is queued or held, or, for a read,
no write is. -/
def mayGrant (s : State) (x : Txn) (q : KeyReq) : Prop :=
  q.queued = true ∧ q.released = false ∧ s.ownsKey q.key = true ∧ belowHorizon s x q ∧
  (∀ lid idx y r, s.txn? lid idx = some y → r ∈ y.reqs → r.queued = true → r.released = false → r.key = q.key → y.rn < x.rn →
    q.write = false ∧ r.write = false) ∧
  (∀ r ∈ s.pkg.podReqs, r.key = q.key → r.rn < x.rn → q.write = false ∧ r.write = false)

/-- Every launch, and every transaction of one, is listed once. -/
def listedOnce (s : State) : Prop :=
  (s.pkg.launches.map Prod.fst).Nodup ∧ ∀ e ∈ s.pkg.launches, (e.2.txns.map Prod.fst).Nodup

/-- R279: what the rules allow is granted, at once and no more, and no other state of a request changes. -/
def grantsAllowed (s u : State) : Prop :=
  ∀ (lid idx : Nat) (x : Txn) (i : Nat) (q : KeyReq), s.txn? lid idx = some x → x.reqs[i]? = some q →
    ∃ (x' : Txn) (q' : KeyReq), u.txn? lid idx = some x' ∧ x'.rn = x.rn ∧ x'.state = x.state ∧ x'.reqs[i]? = some q' ∧ q'.key = q.key ∧ q'.write = q.write ∧
      q'.queued = q.queued ∧ q'.released = q.released ∧ (q'.granted = true ↔ q.granted = true ∨ mayGrant s x q)

/-- The packet completes: the stream moves past it and n − 1 packets more, and its vector is raised with INT. -/
def packetDone (s : State) (q : Nat) (p : Packet) (n : Nat) : State := s.fePass q n p.int

/-- R353: the malformed fields of a packet: the offset in the packet and the value of each. -/
def malformed (p : Packet) : List (Nat × Nat) :=
  let unused (tys : List Nat) (v : Nat) : Bool := tys.contains p.ty && v != 0
  let tspec := unused [0, 1, 3, 5, 8, 9] p.tspec || p.ty == 2 && !decide (2 ≤ p.tspec ∧ p.tspec ≤ 8) || p.ty == 4 && !decide (p.tspec ≤ 1) ||
    p.ty == 6 && !decide (p.tspec % 256 ≤ 3 ∧ 1 ≤ p.tspec / 256) || p.ty == 7 && !decide (1 ≤ p.tspec ∧ p.tspec ≤ 255)
  let a := unused [0, 8] p.a || [3, 4, 6].contains p.ty && p.a % 8 != 0 || p.ty == 5 && p.a % 32 != 0 || p.ty == 7 && !decide (p.a < 2 ^ 32)
  let b := unused [0, 7, 8] p.b || [1, 2].contains p.ty && p.b % 8 != 0 || p.ty == 5 && !decide (1 ≤ p.b ∧ p.b ≤ 2 ^ 20)
  let c := unused [0, 1, 2, 3, 4, 5, 6, 7, 8] p.c || p.ty == 9 && !decide (1 ≤ p.c ∧ p.c ≤ 2 ^ 32)
  ([(decide (10 ≤ p.ty), 0, p.ty), (p.rsv != 0, 1, p.rsv), (p.rsvWord != 0, 4, p.rsvWord), (tspec, 2, p.tspec), (a, 8, p.a), (b, 0x10, p.b),
    (c, 0x18, p.c)].filter (·.1)).map (·.2)

/-- R358: the spans that a packet names, in order: the offset and value of the operand, the first byte, the length, and whether R and W
are needed. -/
def spans (p : Packet) : List (Nat × Nat × Nat × Nat × Bool × Bool) :=
  let signal := if p.b = 0 then [] else [(0x10, p.b, p.b, 8, false, true)]
  match p.ty with
  | 1 => (8, p.a, p.a, 1536, true, false) :: signal
  | 2 => (List.range p.tspec).map (fun i => (8, p.a, p.a + 1536 * i, 1536, true, false)) ++ signal
  | 3 => [(8, p.a, p.a, 8, true, false)]
  | 4 => [(8, p.a, p.a, 8, true, true)]
  | 5 => [(8, p.a, p.a, 32 * p.b, true, false)]
  | 6 => [(8, p.a, p.a, 8, true, false)]
  | 9 => [(8, p.a, p.a, p.c, true, false), (0x10, p.b, p.b, p.c, false, true)]
  | _ => []

/-- Some capability window of a queue holds a span, with the permissions asked for. -/
def windowed (x : Queue) (a n : Nat) (r w : Bool) : Prop :=
  ∃ e ∈ x.win, e.2.1 ≠ 0 ∧ e.1 ≤ a ∧ a + n ≤ e.1 + e.2.1 ∧ (r = true → e.2.2.1 = true) ∧ (w = true → e.2.2.2 = true)

/-- The events that carry out packets, by type; a SIGNAL's by what its TSPEC asks for. -/
def packetEvents (p : Packet) (slot : Nat) : List Instr :=
  match p.ty with
  | 0 => [.packetNop slot] | 1 => [.packetLaunch slot] | 2 => [.packetBundle slot] | 3 => [.packetWait slot, .packetWaitMet slot]
  | 4 => if p.tspec = 0 then [.packetSignalStore slot] else [.packetSignalAdd slot]
  | 5 => [.packetIb slot] | 6 => [.packetPred slot] | 7 => [.packetLoop slot] | 8 => [.packetFetchfence slot] | 9 => [.packetCopy slot]
  | _ => [.packetFetch slot]

/-- R358: an error of a queue at the current packet of its innermost level: ERR holds the cause, RPTR, the level, the offset and value of
the field and the packet's VA, STATE is ERROR, the slot is free, the vector is raised on the queue's port, and the packet has done nothing
else. -/
def packetFails (i : Instr) (s : State) (q cause off value : Nat) : Prop :=
  let x := s.queue q
  ∃ u, exec i s = .next u ∧ u.qState q = 3 ∧ (u.queue q).slot = none ∧
    u.qGet q 0x80 4 = cause ∧ u.qGet q 0x84 4 = s.qGet q 0x14 4 ∧ u.qGet q 0x88 1 = (x.levels.length - 1) % 256 ∧ u.qGet q 0x89 1 = off ∧
    u.qGet q 0x8A 6 = 0 ∧ u.qGet q 0x90 8 = value % 2 ^ 64 ∧
    (∀ l r, x.levels = l :: r → u.qGet q 0x98 8 = (l.base + 32 * (l.pos % Nat.max l.wrap 1)) % 2 ^ 64) ∧
    field x.ctl 48 8 % 64 ∈ (u.port (x.ctl.getLsbD 0)).msix ∧ u.threads = s.threads ∧ u.pkg.launches = s.pkg.launches ∧
    ∀ a, (a < s.qcb q ∨ s.qcb q + 256 ≤ a) → u.mem.read a = s.mem.read a

/-- R353 to R355, R358, R359: the errors of packets: BAD_PACKET for a malformed field (of several the model's choice, its log entry 85), for
n packets that run past the level or an enclosing loop, for spans of a COPY that overlap, and for FETCHFENCE in a loop; CAP_BOUND and
CAP_PERM for the first span that no window admits; IB_DEPTH; LOOP_NEST, judged at the packet's own level (the model's reading, its log entry
47); and FAULT for a word whose page refuses the access, where an absent page makes the packet wait. -/
def PacketFaults : Prop :=
  ∀ (s : State) (slot q : Nat) (x : Queue) (p : Packet) (l : FeLevel) (r : List FeLevel), s.memoryOk = true →
    s.onSlot slot = some (q, x) → s.queue q = x → x.killed = false → x.fault = none → x.packet = some p → x.levels = l :: r →
    (malformed p ≠ [] → ∃ e ∈ malformed p, ∀ i ∈ packetEvents p slot, packetFails i s q 1 e.1 e.2) ∧
    (malformed p = [] ↔ p.bad = none) ∧
    (malformed p = [] → (p.bar = true → s.armedOver x = true) →
      (p.ty = 7 → l.loop.isSome = true → packetFails (.packetLoop slot) s q 5 0 7) ∧
      (p.ty = 7 → l.loop = none → x.runsPast p.tspec = true → packetFails (.packetLoop slot) s q 1 2 p.tspec) ∧
      (p.ty = 8 → l.loop.isSome = true → packetFails (.packetFetchfence slot) s q 1 0 8) ∧
      (p.ty = 6 → x.runsPast (p.tspec / 256) = true → packetFails (.packetPred slot) s q 1 2 p.tspec) ∧
      (p.ty = 5 → 3 ≤ x.levels.length → packetFails (.packetIb slot) s q 4 0 5) ∧
      (p.ty = 9 → p.a < p.b + p.c → p.b < p.a + p.c → packetFails (.packetCopy slot) s q 1 0x10 p.b) ∧
      (∀ (k off v a n : Nat) (rd wr : Bool), (spans p)[k]? = some (off, v, a, n, rd, wr) →
        (∀ (j : Nat), j < k → ∀ (o b c m : Nat) (y z : Bool), (spans p)[j]? = some (o, b, c, m, y, z) → windowed x c m y z) → ¬windowed x a n rd wr →
        (p.ty = 6 → x.runsPast (p.tspec / 256) = false) → (p.ty = 5 → x.levels.length < 3) →
        (p.ty = 9 → p.b + p.c ≤ p.a ∨ p.a + p.c ≤ p.b) → ∀ i ∈ packetEvents p slot,
        (windowed x a n false false → packetFails i s q 3 off v) ∧ (¬windowed x a n false false → packetFails i s q 2 off v)) ∧
      (∀ c, p.ty = 3 ∨ p.ty = 4 ∨ p.ty = 6 → windowed x p.a 8 true (p.ty == 4) → (p.ty = 6 → x.runsPast (p.tspec / 256) = false) →
        s.grant (x.ctl.extractLsb' 32 16) p.a .read true = .error c → ∀ i ∈ packetEvents p slot,
        (c ≠ .PAGE_ABSENT → packetFails i s q 7 8 p.a) ∧
        (c = .PAGE_ABSENT → ∃ u, exec i s = .next u ∧ (u.queue q).fault = some (x.ctl.extractLsb' 32 16, p.a / 65536) ∧
          (u.queue q).levels = x.levels ∧ (u.queue q).slot = some slot ∧ u.mem = s.mem ∧ u.threads = s.threads)))

/-- A unit of the package that is neither leased nor retired (R394). -/
def inService (s : State) (u : UnitId) : Prop := s.isUnit u = true ∧ (s.unitOf u).lease = .inService

/-- A unit has left service: it is under test, or its score has retired it (R395, R398). -/
def outOfService (s : State) (u : UnitId) : Prop := (s.unitOf u).lease = .testing ∨ (s.unitOf u).lease = .retired

/-- A slot on which a thread of a launch stands ready, in the state of R28; that it owns no bank is not said here. -/
def boundAtEntry (u : State) (l : Launch) (t : Tid) : Prop :=
  let x := u.thread t
  let r := l.record
  x.pc = r.entry ∧ x.status = .ready ∧
  (∀ k : SReg, x.rs k =
    if k.val = 1 then (if r.isTxn then 0 else BitVec.ofNat 64 x.bind.unit)
    else if k.val = 31 then (match x.region with | some j => r.stkbase + BitVec.ofNat 64 ((j + 1) * r.stksz) | none => r.stkbase)
    else 0) ∧
  (∀ p, x.rp p = decide (p = 0)) ∧ (∀ m, x.rm m = BitVec.allOnes 128) ∧
  (∀ i : Fin 7, x.slots[i] = if i.val < r.reserve then some (Vector.replicate 4 0) else none) ∧ x.ldq = [] ∧ x.sdq = [] ∧
  (∀ h, x.rh h = ⟨0, false, 0, 0, 0, 0, 0, 0, 0, 0, 0x3FF⟩) ∧ (∀ c, x.rc c = ⟨0, 0, 0, 0, 0, 0⟩) ∧
  x.fpm = r.ctl.extractLsb' 17 6 ∧ x.fpf = 0 ∧ x.clvcnt = 0

end Sys2Proof.Claims

section
open Sys2Proof Sys2Proof.Machine

/-- R203, R205, R206, R210, R229, R230, R256, R428 to R430, R432: the events of the memory system and of the rounds of D2: what a sector
takes, what a write-back brings home, what an applied update brings to the replicas of its die, and what the commit of a round brings to
memory, slice by slice in ascending index. That a grant alone brings no line into an L1 is the model's choice (its log entry 54). -/
def Obligations.MemorySystemEvents : Prop :=
  ∀ (s : State), s.memoryOk = true →
    (∀ core asid va kind user s' g, s.grant asid va.toNat kind user = .ok (s', g) →
      exec (.lineGrantRequest core asid va kind user) s = .next s' ∧ s'.threads = s.threads ∧ s'.cores = s.cores) ∧
    (∀ asid va kind user s' g, va.toNat < 2 ^ 55 → s.walkGrant asid va.toNat kind user = .ok (s', g) →
      exec (.tableWalkComplete asid va kind user) s = .next s' ∧ s'.threads = s.threads ∧ s'.cores = s.cores) ∧
    (∀ core asid va i, (s.core core).lineIx asid va.toNat = some i →
      let l := (s.core core).lineAt i;
      (l.rd = true → ∃ u, exec (.sectorFill core asid va) s = .next u ∧ u.mem = s.mem ∧ ((u.core core).lineAt i).dirty = l.dirty ∧
        (∀ k : Fin 2, ((u.core core).lineAt i).valid.getLsbD k = (l.valid.getLsbD k || decide (k.val = va.toNat % 256 / 128))) ∧
        ∀ k, k < 256 → ((u.core core).lineAt i).data.extractLsb' (8 * k) 8 =
          if l.dirty.getLsbD k || l.valid.getLsbD (k / 128) || decide (k / 128 ≠ va.toNat % 256 / 128) then l.data.extractLsb' (8 * k) 8
          else match (s.die (core / 256)).replicas.find? (fun r => r.vline == l.vline && r.pline == l.pline && tagMatches r.asid asid) with
            | some r => r.data.extractLsb' (8 * k) 8
            | none => s.mem.read (l.pline * 256 + k)) ∧
      (∃ u, exec (.writeBack core asid va) s = .next u ∧ ((u.core core).lineAt i).dirty = 0 ∧
        (∀ k, k < 256 → l.dirty.getLsbD k = true → u.mem.read (l.pline * 256 + k) = l.data.extractLsb' (8 * k) 8) ∧
        (∀ a, (∀ k, k < 256 → l.dirty.getLsbD k = true → a ≠ l.pline * 256 + k) → u.mem.read a = s.mem.read a))) ∧
    (∀ die src x, src < 9 → (s.die die).updates.find? (fun y => y.src == src) = some x → (s.die die).canApply x = true →
      ∃ u, exec (.updateApply die src) s = .next u ∧ (u.die die).count src = x.v.getD src 0 % 2 ^ 48 ∧
        (∀ k, k ≠ src → (u.die die).count k = (s.die die).count k) ∧ (u.die die).updates = (s.die die).updates.erase x ∧ u.mem = s.mem ∧
        ∀ (j : Nat) (r : Replica), (s.die die).replicas[j]? = some r → ∃ r', (u.die die).replicas[j]? = some r' ∧ r'.asid = r.asid ∧
          r'.vline = r.vline ∧ r'.pline = r.pline ∧
          ∀ k, k < 256 → r'.data.extractLsb' (8 * k) 8 = Claims.lastOf x.cells (r.pline * 256 + k) (r.data.extractLsb' (8 * k) 8)) ∧
    (∀ die asid va, ∃ u, exec (.replicaDrop die asid va) s = .next u ∧ u.mem = s.mem ∧
      ∀ r ∈ (u.die die).replicas, ¬(r.vline = va.toNat / 256 ∧ tagMatches r.asid asid = true)) ∧
    (∀ die asid va r h, s.replicaHome (s.tagOf asid (va.toNat / 256)) (va.toNat / 256) = some (r, h) → s.sliceDie h ≠ die →
      s.presentDies.contains die = true → (s.die die).fills = [] → (s.die die).covers die (s.fillOf r h).2 = true →
      ∃ u, exec (.replicaFillInstall die asid va) s = .next u ∧ (s.fillOf r h).1 ∈ (u.die die).replicas ∧ (u.die die).fills = [] ∧
        u.mem = s.mem) ∧
    (∀ r : L2Rec, ∀ h, (s.fillOf r h).1.vline = r.vline ∧ (s.fillOf r h).1.pline = r.pline ∧
      (s.fillOf r h).1.data = BitVec.ofNat 2048 (s.mem.num (r.pline * 256) 256) ∧
      (s.fillOf r h).2 = tabulate 9 (s.die (s.sliceDie h)).count) ∧
    (∀ t, (s.thread t).status = .waiting .acquire →
      (∀ die, s.pkg.clockAns.any (fun a => a.1 == t && a.2.1 == die) = false →
        ∃ u, exec (.clockRequest t die) s = .next u ∧ (t, die, (s.die die).count die) ∈ u.pkg.clockAns ∧ u.threads = s.threads) ∧
      ((∀ d ∈ s.presentDies, ∃ n, (t, d, n) ∈ s.pkg.clockAns) →
        (∀ d n, (t, d, n) ∈ s.pkg.clockAns → n ≤ (s.die t.die).count d) → (s.thread t).d2 = false →
        ∃ u, exec (.packageAcquireEnd t) s = .next u ∧ (u.thread t).status = .ready ∧ (u.thread t).pc = (s.thread t).pc + 4 ∧
          (u.thread t).s = (s.thread t).s ∧ (∀ l ∈ (u.core t.coreKey).l1, l.valid = 0) ∧ u.mem = s.mem)) ∧
    (∀ t, (s.thread t).d2 = true → (s.thread t).status ≠ .free → (s.thread t).bind.qlen ≤ (s.thread t).qretired →
      ∃ u, exec (.d2QuantumExpiry t) s = .next u ∧ (u.thread t).quanta = (s.thread t).quanta + 1 ∧ (u.thread t).qretired = 0 ∧
        u.mem = s.mem) ∧
    (∀ t, (s.thread t).status = .waiting .quant → s.roundDone (s.thread t) = true → (s.thread t).mayRetire →
      ∃ u, exec (.quantWaitEnd t) s = .next u ∧ (u.thread t).s = (s.thread t).s ∧ u.mem = s.mem ∧
        ((s.thread t).bind.level ≤ 3 → (u.thread t).pc = (s.thread t).pc + 4) ∧
        (4 ≤ (s.thread t).bind.level → (u.thread t).status = .waiting .acquire)) ∧
    (∀ lid grp l, s.launch? lid = some l → l.record.isTxn = false → l.record.det = 2 → l.liveIn grp ≠ [] → l.spread grp = false →
      (∀ i ∈ l.liveIn grp, ∃ q, s.quantaOf l i = some q ∧ (l.group grp).rounds < q) →
      ∃ u l', exec (.d2RoundCommit lid grp) s = .next u ∧ u.launch? lid = some l' ∧
        (l'.group grp).rounds = (l.group grp).rounds + 1 ∧
        (∀ i ∈ l.liveIn grp, ∀ t, Assoc.find i l.units = some (.bound t) → (u.thread t).d2buf = []) ∧
        (l.liveIn grp).Pairwise (· < ·) ∧
        (let ts := (l.liveIn grp).filterMap (fun i => match Assoc.find i l.units with | some (.bound t) => some t | _ => none);
          ts.Nodup →
          (∀ t ∈ ts, (∀ e ∈ (s.thread t).d2buf, e.pgran.isSome = true) ∧ ∀ k ∈ (s.core t.coreKey).l1, k.dirty = 0) →
          ∀ a, u.mem.read a = Claims.lastOf (ts.flatMap (fun t => (s.thread t).d2buf.flatMap Claims.masked)) a (s.mem.read a)))

/-- R28, R30, R170 to R173, R416: the scheduler's events: a group is bound whole at its entry, a slice ends and frees its slot, a failed
slice is bound again, priorities age, lower threads are asked to leave where threads are what a launch lacks, and a die without work
takes half of another's. -/
def Obligations.SchedulerEvents : Prop :=
  ∀ (s : State) (lid : Nat) (l : Launch),
    (∀ die g m ts, s.launch? lid = some l → l.bindable = true → l.record.paired = false → s.firstInLine lid = true →
      s.nextGroup lid l die = some g → s.groupSlots lid l g = some m → s.chosenOk lid false m ts = true → l.spread g = false →
      s.gatedOf ts = [] →
      ∃ u, exec (.sliceBind lid die ts) s = .next u ∧ ∀ x ∈ m.zip ts, Claims.boundAtEntry u l x.2 ∧ (u.thread x.2).bind.unit = x.1.1) ∧
    (s.launch? lid = some l →
      (∀ t, (s.thread t).status = .waiting .halt → (s.thread t).bind.lid = lid → (s.thread t).txn = none → (s.thread t).bind.txn = false →
        s.hasJobs t = false → s.roundDone (s.thread t) = true → (s.core t.coreKey).doneOf t = [] → s.shadowsOf t = [] →
        (s.thread t).mayRetire →
        ∃ u l', exec (.sliceComplete t) s = .next u ∧ (u.thread t).status = .free ∧ u.launch? lid = some l' ∧
          Assoc.find (s.thread t).bind.unit l'.units = some .ended) ∧
      (∀ idx t, l.state.final = false → l.killed = none → l.gang ≠ 3 → l.rerunNext (l.record.groupOf idx) = some idx →
        l.liveIn (l.record.groupOf idx) = [] →
        (s.threadsOf lid).any (fun x => l.record.groupOf (s.thread x).bind.unit == l.record.groupOf idx) = false →
        (s.freeSlots t.coreKey lid).contains t = true → s.regionsFor l 1 = true → s.gatedOf [t] = [] → l.record.paired = false →
        ∃ u l', exec (.restartRerun lid idx t) s = .next u ∧ Claims.boundAtEntry u l t ∧ u.launch? lid = some l' ∧
          Assoc.find idx l'.units = some (.bound t) ∧ Assoc.find idx l'.reruns = some ((Assoc.find idx l.reruns).getD 0 + 1)) ∧
      (s.pkg.ageq ≠ 0 → l.state = .ready → l.unbound = true → l.agedAt + s.pkg.ageq.toNat ≤ s.pkg.lastLid →
        ∃ u l', exec .ageingStep s = .next u ∧ u.launch? lid = some l' ∧ l'.aged = (if l.aged < 6 then l.aged + 1 else l.aged) ∧
          l'.agedAt = l.agedAt + s.pkg.ageq.toNat ∧ u.threads = s.threads) ∧
      (∀ cores t, let z := s.setLaunch lid { l with starvedAt := s.pkg.lastLid };
        l.bindable = true → l.unbound = true → s.pkg.ageq ≠ 0 → s.canBind lid l = false → s.lacksThreads lid l = true →
        l.starvedAt + s.pkg.ageq.toNat ≤ s.pkg.lastLid → z.starvedInstance lid l = some cores →
        t ∈ s.boundTids → (s.thread t).bind.txn = false → (s.thread t).bind.lid ≠ lid → s.prio (s.thread t).bind.lid + 2 ≤ s.prio lid →
        t.coreKey ∈ cores → (s.thread t).status = .ready →
        ∃ u, exec (.priorityPreemption lid) s = .next u ∧ (u.thread t).preempt = true) ∧
      (∀ thief, l.bindable = true → l.record.replays = false → thief ∈ s.presentDies → l.unitsLeft thief = 0 →
        (∃ d ∈ s.presentDies, 2 ≤ l.unitsLeft d) →
        ∃ u l' d, exec (.workSteal lid thief) s = .next u ∧ u.launch? lid = some l' ∧ d ∈ s.presentDies ∧
          (∀ e ∈ s.presentDies, l.unitsLeft e ≤ l.unitsLeft d) ∧ l'.unitsLeft thief = l.unitsLeft d / 2 ∧
          l'.unitsLeft d = l.unitsLeft d - l.unitsLeft d / 2 ∧ u.threads = s.threads))

/-- R262, R263, R372 to R387, R452: fault packets are delivered in freeze order, each where it belongs; windows and DCTL act on a
frozen thread; page faults are recorded and answered, and threads go to frames and come back. -/
def Obligations.FaultAndFrameEvents : Prop :=
  ∀ (s : State), s.memoryOk = true →
    (∀ die h r, (s.die die).held = h :: r →
      (s.supervisor die = none → ∃ u, exec (.faultPacketWrite die) s = .next u ∧ (u.die die).held = r ∧
        (u.die die).firmware = (s.die die).firmware ++ [h] ∧ u.mem = s.mem) ∧
      (∀ t, let d := s.die die;
        let pa := field d.fring 12 40 * 4096 + 64 * (d.prod.toNat % 2 ^ field d.fring 0 4);
        s.supervisor die = some t → (s.thread t).status = .ready → h.tid ≠ t → field d.fring 12 40 ≠ 0 → d.ringRoom = true →
        ∃ u, exec (.faultPacketWrite die) s = .next u ∧ (u.die die).held = r ∧ (u.die die).prod = d.prod + 1 ∧
          u.mem.read pa = BitVec.ofNat 8 h.code.code ∧ Claims.holds u.mem (pa + 8) 8 h.pc.toNat ∧
          Claims.holds u.mem (pa + 16) 8 h.va.toNat ∧ Claims.holds u.mem (pa + 24) 8 h.info.toNat ∧
          Claims.sameOutside s.mem u.mem pa 64)) ∧
    (∀ die hs h r, (s.die die).held = hs ++ h :: r → (∀ x ∈ hs, s.toFirmware die x = false) → (s.die die).ringRoom = false →
      s.toFirmware die h = true →
      ∃ u, exec (.faultPacketWrite die) s = .next u ∧ (u.die die).held = hs ++ r ∧
        (u.die die).firmware = (s.die die).firmware ++ [h] ∧ u.mem = s.mem) ∧
    (∀ t f, (s.thread t).status = .frozen f → s.presentDies.contains t.die = true →
      (∀ v, ∃ u, exec (.debugWindowAccess t 0 (some v)) s = .next u ∧ u.thread t = { s.thread t with
        pc := v
        qended := (s.thread t).qended && (s.thread t).pc == v }) ∧
      (∀ v : BitVec 64, let dctl := exec (.debugWindowAccess t 0x1B08 (some v)) s;
        (v.extractLsb' 0 2 = 1 → f.cause ≠ .TX_UNSTABLE →
          ∃ u, dctl = .next u ∧ u.thread t = { s.thread t with status := .resuming f } ∧ Instr.dctlResume t (v.getLsbD 2) ∈ u.agenda) ∧
        (v.extractLsb' 0 2 = 1 → f.cause = .TX_UNSTABLE → dctl = .next s) ∧
        (v.extractLsb' 0 2 = 2 → v.getLsbD 3 = true →
          ∃ u, dctl = .next u ∧ u.thread t = { s.thread t with status := .waiting .condemned } ∧
            Instr.dctlTerminateLaunch t ∈ u.urgent) ∧
        (v.extractLsb' 0 2 = 2 → v.getLsbD 3 = false →
          ∃ u, dctl = .next u ∧ u.thread t = { s.thread t with status := .waiting .terminated } ∧
            Instr.dctlTerminateSlice t ∈ u.agenda) ∧
        (v.extractLsb' 0 2 = 0 ∨ v.extractLsb' 0 2 = 3 → dctl = .next s))) ∧
    (∀ t f clr, (s.thread t).status = .frozen f ∨ (s.thread t).status = .resuming f → f.cause ≠ .TX_UNSTABLE → f.cause ≠ .TX_LONG →
      (s.thread t).d2 = false → s.gangLost (s.thread t).bind.lid = false → (s.thread t).joberr = 0 →
      ∃ u, exec (.dctlResume t clr) s = .next u ∧
        u.thread t = { s.thread t with
          status := .ready
          clvcnt := if clr then 0 else (s.thread t).clvcnt }) ∧
    (∀ t f l, (s.thread t).status = .frozen f → s.launch? (s.thread t).bind.lid = some l → s.gangLost (s.thread t).bind.lid = false →
      (s.hasJobs t = true → ∃ u, exec (.dctlTerminateSlice t) s = .next u ∧ u.thread t = { s.thread t with
        status := .waiting .terminated
        d2buf := [] }) ∧
      (s.hasJobs t = false → (s.thread t).txn = none → s.shadowsOf t = [] →
        ∃ u l', exec (.dctlTerminateSlice t) s = .next u ∧ (u.thread t).status = .free ∧
          u.launch? (s.thread t).bind.lid = some l' ∧ Assoc.find (s.thread t).bind.unit l'.units = some (.failed 9)) ∧
      (l.state.final = false → l.killed = none →
        ∃ u l', exec (.dctlTerminateLaunch t) s = .next u ∧ u.launch? (s.thread t).bind.lid = some l' ∧ l'.killed = some 9 ∧
          (u.threadsOf (s.thread t).bind.lid = [] → l'.state = .failed ∧ l'.reason = 9))) ∧
    (∀ t, (s.thread t).status = .ready → (s.thread t).bind.txn = false →
      (∃ u, exec (.dctlPreempt t) s = .next u ∧ u.thread t = { s.thread t with preempt := true }) ∧
      (∀ v : BitVec 64, v.extractLsb' 0 2 = 3 → s.presentDies.contains t.die = true →
        ∃ u, exec (.debugWindowAccess t 0x1B08 (some v)) s = .next u ∧ u.thread t = { s.thread t with preempt := true })) ∧
    (∀ t va k, (s.thread t).status = .waiting (.pageFault va k) →
      let page := ((s.thread t).bind.asid, va.toNat / 65536);
      (s.inPlace t = true →
        (s.askedFor t page = false → exec (.faultFrameWrite t) s = .next (s.post [.pageFaultRecord t])) ∧
        (∃ u r, exec (.pageFaultRecord t) s = .next u ∧ r ∈ u.pkg.pageFaults ∧ r.asid = page.1 ∧ r.vpage = page.2 ∧ t ∈ r.threads)) ∧
      (∀ i l, s.launch? (s.thread t).bind.lid = some l → s.askedFor t page = false → s.inPlace t = false → s.hasJobs t = false →
        s.shadowsOf t = [] → s.frameRoom t.die ((s.faultFrameSize t + 8191) / 8192) = some i →
        ∃ u l' x, exec (.faultFrameWrite t) s = .next u ∧ (u.thread t).status = .free ∧ u.launch? (s.thread t).bind.lid = some l' ∧
          Assoc.find (s.thread t).bind.unit l'.units = some (.saved x) ∧ x.kind = 0 ∧ x.thread.s = (s.thread t).s ∧
          x.thread.pc = (s.thread t).pc ∧ x.page = some page ∧ Instr.pageFaultRecord t ∈ u.agenda) ∧
      (s.askedFor t page = true → t ∈ s.boundTids →
        (s.mayResolve page = true → ∃ u, exec (.pageFaultResolved page.1 page.2) s = .next u ∧ (u.thread t).status = .ready ∧
          (u.thread t).s = (s.thread t).s ∧ (u.thread t).pc = (s.thread t).pc) ∧
        (∀ l, s.mayKill page = true → s.launch? (s.thread t).bind.lid = some l →
          ∃ u l', exec (.pageFaultKill page.1 page.2) s = .next u ∧ u.launch? (s.thread t).bind.lid = some l' ∧
            (l'.state.final = true ∨ l'.killed.isSome = true)))) ∧
    (∀ pkg asid vpage, pkg ≠ s.pkgId → s.pageOwner asid vpage = s.pkgId →
      let z := s.makePageResident asid vpage;
      ∃ u ans, exec (.remoteFaultRecord pkg asid vpage) s = .next u ∧ u.pkg.podOut = s.pkg.podOut ++ [(pkg, .page asid vpage ans)] ∧
        u.threads = s.threads ∧ (ans = none ∧ u.mem = s.mem ∨ ans = z.pageContents asid vpage ∧ u.mem = z.mem)) ∧
    (∀ t kind ix live w g i l, (s.thread t).status = .waiting (.drain kind ix live w g) → s.hasJobs t = false →
      s.launch? (s.thread t).bind.lid = some l → s.gangLost (s.thread t).bind.lid = false → s.roundDone (s.thread t) = true →
      s.shadowsOf t = [] → s.frameRoom t.die ((((s.observeAll t).contextFrame t kind ix live).length + 8191) / 8192) = some i →
      ∃ u l' x, exec (.contextFrameWrite t) s = .next u ∧ (u.thread t).status = .free ∧ u.launch? (s.thread t).bind.lid = some l' ∧
        Assoc.find (s.thread t).bind.unit l'.units = some (.saved x) ∧ x.kind = kind ∧ x.live = live ∧ x.thread.s = (s.thread t).s ∧
        x.cont = (s.thread t).pc) ∧
    (∀ lid idx t f, s.savedOf lid idx = some f → s.resumeSlot f t = true → s.gatedOf [t] = [] → f.thread.bind.paired = false →
      (f.kind ≠ 0 → ∃ u l', exec (.contextResume lid idx t) s = .next u ∧
        u.thread t = { s.resumedThread f with status := .waiting .resumer } ∧ u.launch? lid = some l' ∧
        Assoc.find idx l'.units = some (.bound t) ∧ Instr.vrClaimGrant t.coreKey ∈ u.agenda) ∧
      (f.kind = 0 → f.page = none → ∃ u l', exec (.faultFrameRestore lid idx t) s = .next u ∧
        u.thread t = { f.thread with
          preempt := s.gangLost lid
          status := .waiting .resumer } ∧ u.launch? lid = some l' ∧
        Assoc.find idx l'.units = some (.bound t) ∧ Instr.vrClaimGrant t.coreKey ∈ u.agenda))

/-- R271 to R282, R289, R414, R434: a sequencer computes sets, reserves landings and sends requests in the order of RNs; lock managers
queue requests, take horizons, grant what the rules of R279 allow, and push granted tiles byte for byte; and a transaction is bound when
every grant has reached its core. That ASSIGN_RECEIVE finds no transaction waiting for its number is the model's reading: they are numbered
when their launch becomes READY (its log entry 16). -/
def Obligations.SequencerEvents : Prop :=
  ∀ (s : State) (die : Nat) (t : Tid) (lid : Nat) (x : Txn) (l : Launch),
    (s.seqTarget die (fun y => y.state == .numbered && !y.passed) (fun _ => true) = some (lid, x) →
      (s.recordOf lid).isRecon = false →
      ∃ u y, exec (.seqSetCompute die) s = .next u ∧ u.txn? lid x.idx = some y ∧ y.passed = true ∧
        y.slots = (s.templateSet (s.recordOf lid) x.idx).slots ∧ y.rn = x.rn) ∧
    (s.launch? lid = some l →
      (s.passTarget die = some (lid, x) → s.firstInLine lid = true → (s.passSlots lid die x).contains t = true → s.gatedOf [t] = [] →
        l.record.paired = false → (s.regionOf lid l x).isSome = true →
        ∃ u y b, exec (.reconPassBind die t) s = .next u ∧ Claims.boundAtEntry u l t ∧ (u.thread t).txn = some b ∧ b.recon = true ∧
          u.txn? lid x.idx = some y ∧ y.state = .recon) ∧
      (∀ z o, let set := s.setOfSlots x.slots;
        s.reserveTarget die = some (lid, x) → s.firstInLine lid = true → (s.reserveSlots lid die x).contains t = true →
        s.gatedOf [t] = [] →
        s.holdLanding lid x.idx l t set.need set.align = some (z, o) →
        ∃ u y, exec (.seqReserve die t) s = .next u ∧ u.txn? lid x.idx = some y ∧ y.state = .reserved ∧ y.landing = some t ∧
          y.stgBase = o ∧ Instr.seqSendRequests die ∈ u.agenda) ∧
      (let keys := (s.setOfSlots x.slots).keys;
        s.seqTarget die (fun _ => true) (fun y => y.state == .reserved) = some (lid, x) →
        (∀ k ∈ keys, s.ownsKey k.1 = true) →
        (∀ j, (s.lkmLoad j (keys.map Prod.fst)).1 ≤ 8192 ∧ (s.lkmLoad j (keys.map Prod.fst)).2 ≤ 16384) →
        ∃ u y, exec (.seqSendRequests die) s = .next u ∧ u.txn? lid x.idx = some y ∧ y.state = .requested ∧
          y.reqs.map (fun r => (r.key, r.write)) = keys ∧ ∀ r ∈ y.reqs, r.granted = false)) ∧
    (∀ pod rn, s.pkg.assigns.contains (die, pod, rn) = true → 0 < (s.seqSpan pod).2 →
      ∃ u, exec (.assignReceive die pod rn) s = .next u ∧ rn ≤ u.nextRn die pod ∧ u.pkg.assigns = s.pkg.assigns.erase (die, pod, rn)) ∧
    (∀ slice, (lowestTxn (s.inFlight slice die) = some (lid, x) → (s.launch? lid).isSome = true →
        let z := s.setTxn lid x.idx { x with reqs := x.reqs.map (fun r => if s.keySlice r.key = slice then { r with queued := true } else r) };
        ∃ u y, exec (.lkmRequest slice die) s = .next u ∧ u.txn? lid x.idx = some y ∧
          (∀ r ∈ y.reqs, s.keySlice r.key = slice → r.queued = true) ∧
          (s.presentDies ≠ [] → Claims.listedOnce z → Claims.grantsAllowed z u)) ∧
      (s.inFlight slice die = [] →
        ∃ u z, exec (.lkmHorizon slice die) s = .next u ∧
          z.pkg.launches = s.pkg.launches ∧ z.pkg.podReqs = s.pkg.podReqs ∧ z.pkg.arrays = s.pkg.arrays ∧ z.dies = s.dies ∧
          z.hzFrom slice die false = Nat.max (s.hzFrom slice die false) (s.die die).horizon ∧
          z.hzFrom slice die true = Nat.max (s.hzFrom slice die true) (s.die die).podHorizon ∧
          (∀ j d pod, (j, d) ≠ (slice, die) → j < 4096 → slice < 4096 → z.hzFrom j d pod = s.hzFrom j d pod) ∧
          u.pkg.hzSeen = z.pkg.hzSeen ∧ (s.die die).horizon ≤ u.hzFrom slice die false ∧
          s.hzFrom slice die false ≤ u.hzFrom slice die false ∧ (s.presentDies ≠ [] → Claims.listedOnce s → Claims.grantsAllowed z u))) ∧
    (s.launch? lid = some l → s.txn? lid x.idx = some x →
      (∀ i q o n, x.reqs[i]? = some q → x.landing = some t → x.copyOff q.key = some o → q.granted = true → q.released = false →
        n ∉ q.pushed → 16 * n < q.push.bytes.length →
        ∃ u y, exec (.lkmPush lid x.idx i n) s = .next u ∧ (u.core t.coreKey).full ((o + 16 * n) / 16) = true ∧
          u.txn? lid x.idx = some y ∧ y.reqs[i]? = some { q with pushed := q.pushed ++ [n] } ∧ u.mem = s.mem ∧
          (s.memoryOk = true → s.shadowsOf t = [] →
            (∀ k, k < 16 → 16 * n + k < q.push.bytes.length →
              (u.core t.coreKey).scratch.read (o + 16 * n + k) = q.push.bytes.getD (16 * n + k) 0) ∧
            Claims.sameOutside (s.core t.coreKey).scratch (u.core t.coreKey).scratch (o + 16 * n)
              (Nat.min 16 (q.push.bytes.length - 16 * n)))) ∧
      (x.state = .requested →
        (x.landing = some t → (∀ r ∈ x.reqs, r.granted = true) → (s.regionOf lid l x).isSome = true →
          ∃ u y b, exec (.transactionBind lid x.idx) s = .next u ∧ Claims.boundAtEntry u l t ∧ (u.thread t).txn = some b ∧
            b.recon = false ∧ b.rn = BitVec.ofNat 48 x.rn ∧ u.txn? lid x.idx = some y ∧ y.state = .bound) ∧
        (∀ z o, let set := s.setOfSlots x.slots;
          x.landing = none → (s.landingSlots lid x.seqDie (s.homeCluster x) set.need set.align).contains t = true → s.gatedOf [t] = [] →
          s.holdLanding lid x.idx l t set.need set.align = some (z, o) →
          ∃ u y, exec (.transactionReland lid x.idx t) s = .next u ∧ u.txn? lid x.idx = some y ∧ y.landing = some t ∧ y.stgBase = o ∧
            y.rn = x.rn ∧ y.reqs.map (·.granted) = x.reqs.map (·.granted) ∧ ∀ q ∈ y.reqs, q.pushed = [])))

/-- R391, R393, R395 to R402: scrubbing and patrol change no thread and no core; scores decay by half; a lease drains, is tested and ends
as its result says. That a scrub or a patrol read may meet a corrected error, which adds to the score, is a free value of the model (its
log entry 22). -/
def Obligations.LeasesAndTests : Prop :=
  ∀ (s : State) (x : UnitId),
    (∀ core word, let k : UnitId := ⟨0, core / 256, core % 256⟩;
      ∃ u, exec (.registerScrub core word) s = .next u ∧ u.threads = s.threads ∧ u.cores = s.cores ∧
        ((u.unitOf k).score = (s.unitOf k).score ∨ (u.unitOf k).score = min 65535 ((s.unitOf k).score + 1))) ∧
    (∀ die ch pa, let k : UnitId := ⟨2, die, ch⟩;
      ∃ u, exec (.patrolRead die ch pa) s = .next u ∧ u.threads = s.threads ∧ u.cores = s.cores ∧
        ((u.unitOf k).score = (s.unitOf k).score ∨ (u.unitOf k).score = min 65535 ((s.unitOf k).score + 1))) ∧
    (∀ die ch, exec (.channelTestWindow die ch) s = .next s) ∧
    ((s.pkg.unitTab.map (·.uid)).Nodup →
      ∃ u, exec .scoreDecay s = .next u ∧ (u.unitOf x).score = (s.unitOf x).score / 2 ∧ (u.unitOf x).lease = (s.unitOf x).lease) ∧
    (Claims.inService s x → s.leaseRoom x = true → (s.unitOf x).early = true →
      ∃ u, exec (.leaseIssue x) s = .next u ∧ (u.unitOf x).lease = .draining ∧ Instr.leaseDrainComplete x ∈ u.agenda) ∧
    ((s.unitOf x).lease = .draining →
      (s.drained x = true →
        ∃ u, exec (.leaseDrainComplete x) s = .next u ∧
          (u.unitOf x).lease = (if 1024 ≤ (s.unitOf x).score then .retired else .testing) ∧ u.threads = s.threads) ∧
      (s.drained x = false →
        ∃ u, exec (.leaseDrainTimeout x) s = .next u ∧ (u.unitOf x).lease = .inService ∧ u.threads = s.threads)) ∧
    ((s.unitOf x).lease = .testing →
      (∃ u, exec (.assayResult x .pass) s = .next u ∧ (u.unitOf x).lease = .inService ∧ (u.unitOf x).marg = false ∧
        (u.unitOf x).passed = (s.unitOf x).passed + 1) ∧
      (∃ u, exec (.assayResult x .marginal) s = .next u ∧ (u.unitOf x).lease = .inService ∧ (u.unitOf x).marg = true ∧
        (u.unitOf x).score = min 65535 ((s.unitOf x).score + 32)) ∧
      (x.cls ≠ 2 → ∃ u, exec (.assayResult x .fail) s = .next u ∧ (u.unitOf x).lease = .retired) ∧
      (x.cls = 2 → ∃ u, exec (.assayResult x .fail) s = .next u ∧ (u.unitOf x).lease = .inService ∧ (u.unitOf x).failed = true)) ∧
    ((s.unitOf x).score < 256 → 192 ≤ (s.unitOf x).score → ((s.charge x 64).unitOf x).early = true) ∧
    (x.cls = 3 ∨ x.cls = 4 → s.isUnit x = true →
      ∃ u, exec (.flitReplay x) s = .next u ∧ (u.unitOf x).score = min 65535 ((s.unitOf x).score + 1) ∧ u.threads = s.threads)

/-- R389, R390, R392: a fatal error stops the package until its dump is complete, and after it only what log entry 50 names still happens
(the model's reading); an error that is met at a home or in a replica poisons there and charges the channel of R390, of those not retired
(R402, which leaves open which; log entry 22); one that is consumed inside a containment rectangle takes the unit out of service, anywhere
else it is fatal (R411, R412); one in an engine's storage ends its job (the oldest of the named core's queue, and is no consumption: the
model's choice, its log entry 22). -/
def Sys2Proof.Claims.StorageErrors : Prop :=
  ∀ (s : State) (x : UnitId),
    (s.pkg.stopped = false → ∀ cause : BitVec 32, 1 ≤ cause.toNat → cause.toNat ≤ 3 →
      ∃ u, exec (.fatalError cause) s = .next u ∧ u.pkg.stopped = true ∧ u.pkg.dumpinfo.extractLsb' 0 12 = 2#12 ∧
        Instr.dumpComplete ∈ u.agenda ∧ ∀ e ∈ u.agenda, whileStopped e = true) ∧
    (s.pkg.dumpinfo.extractLsb' 0 12 = 2#12 → s.pkg.portA.present = true →
      ∃ u, exec .dumpComplete s = .next u ∧ u.pkg.dumpinfo.extractLsb' 0 12 = 1#12 ∧ 63 ∈ u.pkg.portA.msix ∧ u.threads = s.threads) ∧
    (s.isUnit x = true →
      (x.cls = 0 → s.rectOf x.die (clusterOf x.ix) = none → ∃ u, exec (.ueConsumption (.used x)) s = .next u ∧ u.pkg.stopped = true) ∧
      (∀ r, x.cls = 0 → s.rectOf x.die (clusterOf x.ix) = some r →
        ∃ u, exec (.ueConsumption (.used x)) s = .next u ∧ Claims.outOfService u x)) ∧
    (∀ y : Storage, s.isUnit y.unit = true →
      ∃ u, exec (.ueConsumption (.corrected y)) s = .next u ∧ (u.unitOf y.unit).score = min 65535 ((s.unitOf y.unit).score + 1)) ∧
    (∀ n, s.pkg.l2.any (fun r => r.pline == n) = true → let ch : UnitId := ⟨2, s.sliceDie (s.lineSlice n), s.lineSlice n % 32⟩;
      ∃ u, exec (.ueConsumption (.l2 n)) s = .next u ∧ (u.unitOf ch).score = min 65535 ((s.unitOf ch).score + 256) ∧
        u.poisonedAt (256 * n) 256 = true ∧ u.threads = s.threads) ∧
    (∀ die n r, (s.die die).replicas.find? (fun r => r.pline == n) = some r → let ch : UnitId := ⟨2, die, r.slice⟩;
      ∃ u, exec (.ueConsumption (.replica die n)) s = .next u ∧ (u.unitOf ch).score = min 65535 ((s.unitOf ch).score + 256) ∧
        (∀ k ∈ (u.die die).replicas, k.pline = n → Assoc.find n k.whole = some (BitVec.allOnes 256)) ∧ u.threads = s.threads) ∧
    (∀ n, s.paPopulated (64 * n) = true → let up := fun c => (s.unitOf ⟨2, 64 * n / 2 ^ 36, c⟩).lease ≠ .retired;
      (∃ c, c < 32 ∧ up c) →
      ∃ u c, c < 32 ∧ up c ∧ ((∀ k, k < 32 → up k) → c = channelOf (64 * n)) ∧ (let ch : UnitId := ⟨2, 64 * n / 2 ^ 36, c⟩;
        exec (.ueConsumption (.hbm n)) s = .next u ∧ (u.unitOf ch).score = min 65535 ((s.unitOf ch).score + 256) ∧
        u.poisonedAt (64 * n) 64 = true ∧ u.threads = s.threads)) ∧
    (∀ die core j r, (s.core (die * 256 + core)).mxq = j :: r →
      ∃ u, exec (.ueConsumption (.engine 0 die core)) s = .next u ∧
        ∃ d ∈ (u.core (die * 256 + core)).done, d.id = j.id ∧ d.eng = .mxe ∧ d.fail = some 1)

/-- R408 to R410, R437 to R440: failing links leave service, and a mismatch or a timeout of a pair charges its cores. That the outcome of
the comparison comes with the event is the model's choice (its log entry 45). -/
def Sys2Proof.Claims.PairsAndLinks : Prop :=
  ∀ (s : State) (x : UnitId) (t : Tid),
    (s.isLeader t = true →
      exec (.pairedCompare t true) s = .next s ∧
      (let core : UnitId := ⟨0, t.die, t.core⟩;
        (∀ y ∈ s.shadowsOf t, (y.die, y.core) ≠ (t.die, t.core)) →
        (∃ u, exec (.pairedCompare t false) s = .next u ∧ (u.unitOf core).score = min 65535 ((s.unitOf core).score + 64)) ∧
        (∃ u, exec (.pairTimeout t) s = .next u ∧ (u.unitOf core).score = min 65535 ((s.unitOf core).score + 64)))) ∧
    (s.carries ⟨3, x.die, x.ix⟩ = true →
      ∃ u, exec (.boundaryFailure x.die x.ix) s = .next u ∧ Claims.outOfService u ⟨3, x.die, x.ix⟩) ∧
    (s.carries ⟨4, x.die, x.ix⟩ = true →
      ∃ u, exec (.dywinLinkFailure x.die x.ix) s = .next u ∧ Claims.outOfService u ⟨4, x.die, x.ix⟩)

/-- R442, R449, R450: the silence of a package. Of a gang that it belongs to: after START its unbound slices are never bound, every
running thread is asked to stop, and the launch ends FAILED with GANG_LOST once it holds none, nor a fault frame; before START the leader
sends ABORT, and a member whose leader it was ends REFUSED. -/
def Sys2Proof.Claims.Silence : Prop :=
  ∀ (s : State) (lid p : Nat) (l : Launch), p ≠ s.pkgId →
    (p < s.podSize → p ∉ s.pkg.silent → ∃ u, exec (.packageSilence p) s = .next u ∧ p ∈ u.pkg.silent) ∧
    (p ∈ s.pkg.silent → ∃ u, exec (.contactRegained p) s = .next u ∧ p ∉ u.pkg.silent ∧ u.threads = s.threads) ∧
    (p < s.podSize → p ∉ s.pkg.silent → (s.pkg.launches.map Prod.fst).Nodup → s.launch? lid = some l → l.record.gangBit = true →
      l.state = .ready ∨ l.state = .running → l.gang ≠ 3 → l.killed = none →
      ∃ u l', exec (.packageSilence p) s = .next u ∧ u.launch? lid = some l' ∧
        ((∃ a ∈ l.started, a.pkg = p) →
          l'.gang = 3 ∧ l'.ranges = [] ∧
          (∀ t ∈ s.threadsOf lid, (s.thread t).status = .ready → (s.thread t).bind.txn = false → (u.thread t).preempt = true) ∧
          (s.threadsOf lid = [] → (∀ f ∈ l.frames, f.kind ≠ 0) → l'.state = .failed ∧ l'.reason = 10)) ∧
        (l.beforeStart = true → l.reason = 0 →
          (l.record.leader = p → l.gang = 1 → l'.state = .refused ∧ l'.reason = 10) ∧
          (l.record.leader = s.pkgId → (∃ a ∈ s.acksOf l.record, a.pkg = p) →
            (∀ e ∈ s.pkg.launches, e.2.record.gangBit = true → e.2.record.gid = l.record.gid → e.1 = lid) →
            l'.reason = 10 ∧ Instr.gangAbort lid ∈ u.agenda ∧
            ∀ q ∈ s.podOthers, (q, PodMsg.abort l.record.gid 10) ∈ u.pkg.podOut)))

/-- R172, R449: the share of the groups that START gives to each present die of this package: of n units, divided by the clusters that the
ACKs of the started members gave, in the order of package ids and then of dies. -/
def Sys2Proof.Claims.gangShares (s : State) (l : Launch) : List (Nat × Nat × Nat) :=
  let clusters (as : List GangAck) : Nat := (as.map (fun a => a.clusters.sum)).sum
  let before := clusters (l.started.filter (fun a => decide (a.pkg < s.pkgId)))
  let after := clusters (l.started.filter (fun a => decide (s.pkgId < a.pkg)))
  let own := ((l.started.find? (fun a => a.pkg == s.pkgId)).map (·.clusters)).getD []
  let mine := (List.range s.presentDies.length).map (fun k => own.getD k 0)
  let all := before + mine.sum + after
  let edge (k : Nat) : Nat := (l.record.divided * (before + (mine.take k).sum) + all - 1) / all
  (s.presentDies.zipIdx.map (fun d => (d.1, edge d.2, edge (d.2 + 1)))).filter (fun r => decide (r.2.1 < r.2.2))

/-- R449, R450, R454: the gang protocol: a member sends its ACK; the leader sends START or ABORT once every ACK has come, and in the model
in the step that decides (its log entry 20); START gives the member its share, or, when another member is silent already, the gang is
lost to it; ABORT ends it with the leader's reason. A member whose leader is silent when its counter reaches 0 ends REFUSED. -/
def Sys2Proof.Claims.GangProtocol : Prop :=
  ∀ (s : State) (lid : Nat) (l : Launch), s.launch? lid = some l → l.record.gangBit = true →
    (l.state = .ready → l.gang = 0 →
      (s.pkg.silent.contains l.record.leader = true →
        ∃ u l', exec (.gangAck lid) s = .next u ∧ u.launch? lid = some l' ∧ l'.state = .refused ∧ l'.reason = 10) ∧
      (s.pkg.silent.contains l.record.leader = false →
        ∃ u l', exec (.gangAck lid) s = .next u ∧ u.launch? lid = some l' ∧ l'.gang = 1 ∧ u.threads = s.threads ∧
          (l.record.leader ≠ s.pkgId → u.pkg.podOut = s.pkg.podOut ++ [(l.record.leader, .ack l.record.gid (s.ackOf l))]) ∧
          (l.record.leader = s.pkgId → (l.record.gid, s.ackOf l) ∈ u.pkg.gangAcks))) ∧
    (l.state = .ready → l.gang = 1 → l.reason = 0 →
      (let acks := s.acksOf l.record;
        l.record.leader = s.pkgId → l.record.gangSize ≤ acks.length →
        let silent := acks.any (fun a => s.pkg.silent.contains a.pkg);
        let same := acks.all (fun a => acks.all (fun b => a.rsig == b.rsig && a.nslice == b.nslice && a.dgrp == b.dgrp));
        ∃ u l', exec (.gangAcksComplete lid) s = .next u ∧ u.launch? lid = some l' ∧ u.threads = s.threads ∧
          (silent = true → l'.reason = 10 ∧ Instr.gangAbort lid ∈ u.agenda) ∧
          (silent = false → l.record.replays = false → same = false → l'.reason = 15 ∧ Instr.gangAbort lid ∈ u.agenda) ∧
          (silent = false → l.record.replays = true → tiles l.record.nslice 0 acks = false →
            l'.reason = 11 ∧ Instr.gangAbort lid ∈ u.agenda) ∧
          (silent = false → same = true → l.record.replays = false ∨ tiles l.record.nslice 0 acks = true →
            l'.started = acks ∧ Instr.gangStart lid ∈ u.agenda ∧
            ∀ a ∈ acks, a.pkg ≠ s.pkgId → (a.pkg, PodMsg.start l.record.gid acks) ∈ u.pkg.podOut)) ∧
      (l.started ≠ [] → ∃ u l', exec (.gangStart lid) s = .next u ∧ u.launch? lid = some l' ∧
        ((∀ a ∈ l.started, a.pkg ∉ s.pkg.silent) → l'.gang = 2 ∧
          (l.record.replays = false → l.killed = none → l'.ranges = Claims.gangShares s l)) ∧
        ((∃ a ∈ l.started, a.pkg ∈ s.pkg.silent) → l'.gang = 3 ∧ l'.ranges = []))) ∧
    (l.state.final = false → l.beforeStart = true → l.reason ≠ 0 →
      ∃ u l', exec (.gangAbort lid) s = .next u ∧ u.launch? lid = some l' ∧ l'.state = .refused ∧ l'.reason = l.reason)

/-- R389, R390, R392, R408 to R412, R437 to R442, R448 to R450: fatal errors and errors of storage, the pairs, the links, silence, and the
gang protocol. -/
def Obligations.FailuresAndGangs : Prop :=
  Claims.StorageErrors ∧ Claims.PairsAndLinks ∧ Claims.Silence ∧ Claims.GangProtocol

/-- R348 to R359: doorbells, the mapping of queues to slots, the fetch of packets, and what each packet does when it completes. That of
several resets and disables before the front end acts the last is the one, and that its accesses are at user level, is the model's
reading (its log entry 23); so is it that a LOOP and a FETCHFENCE are judged at the packet's own level (its log entry 47), and that a reset
or disable acts between the packets of an open IB or LOOP (its log entry 80, the model's choice). -/
def Sys2Proof.Claims.QueuesAndPackets : Prop :=
  ∀ (s : State), s.memoryOk = true →
    (∀ port page (qid : BitVec 16) (ask : Option Bool), let q := qid.toNat;
      let ring := match ask with
        | none => exec (.doorbellRing port page qid) s
        | some false => exec (.doorbellReset port page qid) s
        | some true => exec (.doorbellDisable port page qid) s;
      (s.dropsDoorbell port page q ask.isNone = true →
        ∃ u, ring = .next u ∧ u.pkg.queues = s.pkg.queues ∧ u.mem = s.mem ∧ (u.port port).dbdrop =
          if (s.port port).dbdrop = BitVec.allOnes 32 then (s.port port).dbdrop else (s.port port).dbdrop + 1) ∧
      (s.dropsDoorbell port page q ask.isNone = false →
        ∃ u, ring = .next u ∧ (u.queue q).pending = true ∧ (u.queue q).ask = ask.or (s.queue q).ask ∧
          (u.queue q).slot = (s.queue q).slot ∧ u.mem = s.mem ∧ Instr.fePendingService q ∈ u.agenda)) ∧
    (∀ q, (s.queue q).killed = false → (s.queue q).pending = true → s.pkg.hostGated = false →
      ((s.queue q).ask = none → s.qState q = qIdle → (BitVec.ofNat 32 (s.qGet q 0 4)).getLsbD 4 = true →
        ∃ u, exec (.fePendingService q) s = .next u ∧ u.qState q = qPending ∧ (u.queue q).pending = false) ∧
      ((s.queue q).busy = false →
        ((s.queue q).ask = some false → ∃ u, exec (.fePendingService q) s = .next u ∧ u.qState q = qIdle ∧
          u.qGet q 0x14 4 = s.qGet q 0x10 4 ∧ (u.queue q).slot = none ∧ (u.queue q).pending = false) ∧
        ((s.queue q).ask = some true → ∃ u, exec (.fePendingService q) s = .next u ∧ u.qState q = qDisabled ∧
          (u.queue q).slot = none ∧ (u.queue q).pending = false))) ∧
    (∀ port slot q, slot < 64 → (s.port port).slotport.getLsbD slot = true → s.onSlot slot = none → s.bestPending port = some q →
      ∃ u, exec (.queueMap port slot) s = .next u ∧
        (u.qState q = qMapped ∧ (u.queue q).slot = some slot ∨ u.qState q = qError ∨ u.qState q = qIdle)) ∧
    (∀ slot q x, s.onSlot slot = some (q, x) → s.queue q = x → 256 ≤ x.run → s.outranked q = true →
      ∃ u, exec (.queueSlotRelease slot) s = .next u ∧ u.qState q = qPending ∧ (u.queue q).slot = none) ∧
    (∀ slot q x l, let at_ := fun (g : Nat) => l.addr (g / 2) + 16 * (g % 2);
      s.onSlot slot = some (q, x) → s.queue q = x → x.killed = false → x.fault = none → x.levels = [l] → l.held = [] → l.pos < l.limit →
      x.span ⟨0, l.base⟩ l.base (32 * l.wrap) true false = .ok () →
      (∀ g ∈ l.wanted, ∃ r, s.feRead x.asid ⟨0, at_ g⟩ (at_ g) 16 = .ok r) →
      ∃ u g s' bs, exec (.packetFetch slot) s = .next u ∧ g ∈ l.wanted ∧ s.feRead x.asid ⟨0, at_ g⟩ (at_ g) 16 = .ok (s', bs) ∧
        (u.queue q).levels = [{ l with held := [(g, BitVec.ofNat 128 (leNat bs))] }]) ∧
    (∀ slot q x p, Claims.packetReady s slot q x p →
      (p.ty = 0 → exec (.packetNop slot) s = .next (Claims.packetDone s q p 1)) ∧
      (∀ s' bs lid, p.ty = 1 → x.span p.opA p.a 1536 true false = .ok () → p.b = 0 ∨ x.span p.opB p.b 8 false true = .ok () →
        s.feRead x.asid p.opA p.a 1536 = .ok (s', bs) → s'.refusal x.asid .queue (LaunchRec.ofBytes bs) ≠ some reasonNodeFull →
        lid = s'.pkg.lastLid + 1 →
        ∃ u l, exec (.packetLaunch slot) s = .next u ∧ u.pkg.lastLid = lid ∧ u.launch? lid = some l ∧
          l.record = LaunchRec.ofBytes bs ∧ l.asid = x.asid) ∧
      (∀ s' bs, p.ty = 2 → (∀ i, i < p.tspec → x.span p.opA (p.a + 1536 * i) 1536 true false = .ok ()) →
        p.b = 0 ∨ x.span p.opB p.b 8 false true = .ok () → s.feRead x.asid p.opA p.a (1536 * p.tspec) = .ok (s', bs) →
        bundleRefused x.asid s' (tabulate p.tspec (fun i => (bs.drop (1536 * i)).take 1536)) 0 = none →
        ∃ u, exec (.packetBundle slot) s = .next u ∧ u.pkg.lastLid = s'.pkg.lastLid + p.tspec) ∧
      (∀ s' bs, p.ty = 3 → x.span p.opA p.a 8 true false = .ok () → s.feRead x.asid p.opA p.a 8 = .ok (s', bs) →
        (p.b ≤ leNat bs → exec (.packetWait slot) s = .next (Claims.packetDone s' q p 1) ∧
          exec (.packetWaitMet slot) s = .next (Claims.packetDone s' q p 1)) ∧
        (leNat bs < p.b → exec (.packetWait slot) s = .next (s.upQueue q (fun x => { x with busy := true })))) ∧
      (∀ s' bs z, p.ty = 4 → x.span p.opA p.a 8 true true = .ok () → s.feRead x.asid p.opA p.a 8 = .ok (s', bs) →
        (p.tspec = 0 → s'.feWrite (s'.qPort q) x.asid p.opA p.a (leBytes 8 (p.b % 2 ^ 64)) = .ok z →
          exec (.packetSignalStore slot) s = .next (Claims.packetDone z q p 1)) ∧
        (p.tspec = 1 → s'.feWrite (s'.qPort q) x.asid p.opA p.a (leBytes 8 ((leNat bs + p.b) % 2 ^ 64)) = .ok z →
          exec (.packetSignalAdd slot) s = .next (Claims.packetDone z q p 1))) ∧
      (p.ty = 5 → x.ask = none → x.levels.length < 3 → x.span p.opA p.a (32 * p.b) true false = .ok () →
        ∃ u, exec (.packetIb slot) s = .next u ∧
          (u.queue q).levels = ⟨p.a, p.b, 0, p.b, none, x.ahead, p.int, false⟩ :: x.levels) ∧
      (∀ s' bs, p.ty = 6 → x.runsPast (p.tspec / 256) = false → x.span p.opA p.a 8 true false = .ok () →
        s.feRead x.asid p.opA p.a 8 = .ok (s', bs) →
        (predHolds (p.tspec % 8) (leNat bs) p.b = true → exec (.packetPred slot) s = .next (Claims.packetDone s' q p 1)) ∧
        (∀ l r, predHolds (p.tspec % 8) (leNat bs) p.b = false → x.levels = l :: r → l.pos + 1 + p.tspec / 256 ≤ l.limit →
          exec (.packetPred slot) s = .next (Claims.packetDone s' q p (1 + p.tspec / 256)))) ∧
      (∀ l r, p.ty = 7 → x.ask = none → x.levels = l :: r → l.loop = none → x.runsPast p.tspec = false → p.a ≠ 0 →
        ∃ u, exec (.packetLoop slot) s = .next u ∧ u.threads = s.threads ∧
          (u.queue q).levels = { l with
            pos := l.pos + 1
            loop := some (l.pos + 1, p.tspec, p.a)
            loopInt := p.int } :: r) ∧
      (∀ l r, p.ty = 8 → x.levels = l :: r → l.loop = none →
        ∃ u, exec (.packetFetchfence slot) s = .next u ∧ u.threads = s.threads ∧ ∀ k ∈ (u.queue q).levels, k.held = []) ∧
      (∀ s' bs z, p.ty = 9 → p.b + p.c ≤ p.a ∨ p.a + p.c ≤ p.b → x.span p.opA p.a p.c true false = .ok () →
        x.span p.opB p.b p.c false true = .ok () → s.feRead x.asid p.opA p.a p.c = .ok (s', bs) →
        s'.feWrite (s'.qPort q) x.asid p.opB p.b bs = .ok z → exec (.packetCopy slot) s = .next (Claims.packetDone z q p 1))) ∧
    (∀ lid l q va z, s.launch? lid = some l → l.signal = some (q, 0, va) → l.state.final = true → va ≠ 0 →
      let word : Word := if l.state = .complete then 3 else BitVec.ofNat 64 (l.state.code + l.reason * 256);
      s.feWrite (s.qPort q) l.asid ⟨0x10, va.toNat⟩ va.toNat (leBytes 8 word.toNat) = .ok z →
      ∃ u l', exec (.launchSignalWrite lid) s = .next u ∧ u.launch? lid = some l' ∧ l'.signal = none ∧ u.mem = z.mem)

/-- R348 to R359: the front end: what its events do, and the errors of packets. -/
def Obligations.FrontEndEvents : Prop := Claims.QueuesAndPackets ∧ Claims.PacketFaults

/-- R345, R359, R389, R455, R457 to R461: hosts reach memory through the aperture and the port registers; attestation answers with the
nonce; islands are throttled, gated and powered, and what is dirty in the L1s of a die is written back before it is gated; power is
removed by a trip, and the link goes down with it; and the package reset leaves no thread, no launch and the reset state of every core and
cluster, with an image that the fused minimum version admits, or in the ROM. That the boot is one step is the model's choice (its log
entry 2), and so are the image that boots and the minimum that it leaves (its log entry 63). -/
def Obligations.HostAndFirmwareEvents : Prop :=
  ∀ (s : State), s.memoryOk = true →
    (∀ port off bs, let pa := (s.port port).hapbase.toNat * 2 ^ 36 + off;
      (s.port port).present = true → off + bs.length ≤ 2 ^ 36 → s.paPopulated pa = true → s.paPopulated (pa + bs.length - 1) = true →
      ∃ u, exec (.hostMemoryAccess port off (some bs)) s = .next u ∧ (∀ i, i < bs.length → u.mem.read (pa + i) = bs.getD i 0) ∧
        Claims.sameOutside s.mem u.mem pa bs.length ∧ u.threads = s.threads) ∧
    (∀ port off n a, let pa := (s.port port).hapbase.toNat * 2 ^ 36 + off;
      (s.port port).present = true → s.pkg.tripped = false → off + n ≤ 2 ^ 36 → s.paPopulated pa = true → s.paPopulated (pa + n - 1) = true →
      a < n → (s.apertureRead port off n).map (fun bs => bs.getD a 0) = some (s.mem.read (pa + a))) ∧
    (s.pkg.tripped = true → ∀ port page off n,
      s.hostRead port off = none ∧ s.doorbellRead port page off = none ∧ s.apertureRead port off n = none) ∧
    (∀ port (v : BitVec 64), (s.port port).present = true →
      (∃ u, exec (.hostRegisterWrite port 0x010 v) s = .next u ∧ (u.port port).dbdrop = (s.port port).dbdrop &&& ~~~(v.setWidth 32)) ∧
      (∃ u, exec (.hostRegisterWrite port 0x018 v) s = .next u ∧ (u.port port).hapbase = v.extractLsb' 36 16) ∧
      ((s.port port).busy = false →
        ∃ u, exec (.attestationGo port) s = .next u ∧ (u.port port).busy = true ∧ (u.port port).busyNonce = (s.port port).nonce)) ∧
    (∀ port, (s.port port).busy = true →
      ∃ u, exec (.attestationReportDone port) s = .next u ∧ (u.port port).attDone = true ∧ (u.port port).busy = false ∧
        (u.port port).report.length = 768 ∧ leNat (((u.port port).report.drop 0x20).take 64) = (s.port port).busyNonce.toNat) ∧
    (∀ die, die ∈ s.presentDies →
      (∃ u, exec (.thermalThrottle die) s = .next u ∧ (u.die die).clock = max 800 ((s.die die).clock - 100) ∧ u.mem = s.mem) ∧
      (die < 9 → ∀ mhz, 800 ≤ mhz → mhz ≤ 2400 → ∃ u, exec (.dvfsChange die mhz) s = .next u ∧ (u.die die).clock = mhz ∧ u.mem = s.mem) ∧
      (die < 9 → ∀ mhz, 1200 ≤ mhz → mhz ≤ 2400 →
        ∃ u, exec (.dvfsChange (9 + die) mhz) s = .next u ∧ (u.die die).meshClock = mhz ∧ (u.die die).clock = (s.die die).clock ∧
          u.mem = s.mem ∧ u.threads = s.threads) ∧
      (die < 9 → s.computeIdle die = true → ∃ u, exec (.islandGate die) s = .next u ∧ (u.die die).gated = true ∧ u.threads = s.threads ∧
        ∀ c, c < 256 → ∀ l ∈ (u.core (die * 256 + c)).l1, l.dirty = 0) ∧
      (die < 9 → (s.die die).gated = true → ∃ u, exec (.islandPowerUp die) s = .next u ∧ (u.die die).gated = false ∧ u.mem = s.mem ∧
        ∀ c, c < 256 → let k := u.core (die * 256 + c); k.scratch = [] ∧ k.poison = [] ∧ k.fe = [] ∧ k.l1 = [] ∧ k.icache = [])) ∧
    (∃ u, exec .thermalTrip s = .next u ∧ u.pkg.tripped = true ∧ ∀ e ∈ u.agenda, e = .packageReset) ∧
    (∃ u, exec .packageReset s = .next u ∧ (∀ t, u.thread t = Thread.reset) ∧ (∀ c, u.core c = Core.reset) ∧
      (∀ k, u.cluster k = Cluster.reset) ∧ u.pkg.launches = [] ∧ u.pkg.stopped = false ∧ u.pkg.tripped = false ∧
      (∀ d, (u.die d).cons = 0 ∧ (u.die d).prod = 0 ∧ (u.die d).held = []) ∧
      (s.pkg.bootImage = none → u.pkg.bootst.extractLsb' 0 4 = 15 ∧ u.pkg.bootst.extractLsb' 8 4 = 1) ∧
      u.pkg.bootst.getLsbD 12 = (s.pkg.tripped || s.pkg.bootst.getLsbD 12) ∧
      (∀ b x, s.pkg.bootImage = some (b, x) → s.pkg.minVersion ≤ x.version ∧
        (u.pkg.bootst.extractLsb' 0 4 = 5 ∨ u.pkg.bootst.extractLsb' 0 4 = 15) ∧ u.pkg.bootst.getLsbD 4 = b ∧
        u.pkg.bootst.extractLsb' 16 32 = x.version ∧
        u.pkg.minVersion = if x.raises then x.version else s.pkg.minVersion))

end

namespace Sys2Proof.Claims
open Sys2Proof.Machine

/-- The halfword that the current thread fetches at an address, when it lies in a text section of its code object and the core's
instruction cache holds it (R29, R220). -/
def fetched (s : State) (va : Word) (h : BitVec 16) : Prop :=
  s.inText s.me va.toNat = true ∧ s.myCore.iFind s.me.bind.asid va.toNat = some h

/-- Words of the spec's encodings with the instructions they stand for: worked words of R112, R117, R143, R147, R239 and R198, and
words laid out by R63, R65, R68 to R71. -/
noncomputable def words : List (Nat × Instr) :=
  [(0x48D00291, .addi 5 0 0x2468), (0x0000309D, .cmpiEq 1 3 0), (0x0800003F, .halt), (0x0002027B, .srr 4 1), (0x4000027B, .rng 4),
   (0x00000073, .bar), (0x04000273, .bararv 4), (0x100062F3, .domq 5 6), (0x18008073, .wake 8), (0x40020077, .vrgive 1),
   (0x0002537D, .lrpatch 6 5 1), (0x600043FD, .lrstat 7 4), (0x14000071, .fence 2 2), (0x40000071, .ifence), (0x60000071, .quant)]

/-- Nothing that firmware or another package has asked for, no division and no numbering waits to be made after a step. -/
def nothingPending (s : State) : Prop :=
  s.pkg.podIn = [] ∧ s.pkg.fwRecords = [] ∧ ∀ e ∈ s.pkg.launches, e.2.state ≠ .ready

/-- The instructions whose only destination is s[d]. -/
def scalarForms (g : Guard) (d a b : SReg) (i15 : BitVec 15) (i6 : BitVec 6) (k : BitVec 8) : List Instr :=
  alu.map (fun row => row.1 g d a b) ++ [.clz g d a, .ctz g d a, .popc g d a, .brev g d a, .bswap g d a, .bext g d a b, .bins g d a b,
    .sext8 g d a, .sext16 g d a, .sext32 g d a] ++ immediates.map (fun row => row.1 d a i15) ++
  immediateShifts.map (fun row => row.1 d a i6) ++ constantOps.map (fun row => row.1 d a k) ++ [.kld d k, .klds d k, .kldd d k]

/-- The instructions whose only destination is p[d]. -/
def predicateForms (g : Guard) (d q r : PReg) (a b : SReg) (i12 : BitVec 12) : List Instr :=
  compares.map (fun row => row.1 g d a b) ++ predicateOps.map (fun row => row.1 g d q r) ++ [.pnot g d q] ++
  immediateCompares.map (fun row => row.1 d a i12)

/-- The vector instructions whose destinations are vd, the flags and the queues that their operands name. -/
noncomputable def vectorForms (esz : BitVec 2) (mk : MReg) (vd va vb : VName) (b : SReg) : List Instr :=
  laneOps.map (fun row => row.1 esz mk vd va vb) ++ laneUnary.map (fun row => row.1 esz mk vd va) ++ [.vmac esz mk vd va vb] ++
  fpOps.map (fun row => row.1 esz mk vd va vb) ++ fpUnary.map (fun row => row.1 esz mk vd va) ++
  fused.map (fun row => row.1 esz mk vd va vb) ++ reductions.map (fun row => row.1 esz mk vd va) ++
  fpReductions.map (fun row => row.1 esz mk vd va) ++ [.vscan esz mk vd va, .vfscan esz mk vd va] ++
  permutes2.map (fun row => row.1 esz mk vd va vb) ++ permutes1.map (fun row => row.1 esz mk vd va b) ++
  [.vcompress esz mk vd va, .vexpand esz mk vd va]

/-- Outside the thread's own registers an instruction of registers only changes nothing: every byte of memory and of the
scratchpads, the caches, the engines, the package and every other thread are as they were. -/
def onlyRegisters (s t : State) : Prop :=
  (∀ a, t.mem.read a = s.mem.read a) ∧ (∀ c a, (t.core c).scratch.read a = (s.core c).scratch.read a) ∧ t.cores = s.cores ∧
  t.clusters = s.clusters ∧ t.pkg = s.pkg ∧ t.cur = s.cur ∧ ∀ v : Tid, v.key ≠ s.cur.key → t.thread v = s.thread v

end Sys2Proof.Claims

section
open Sys2Proof Sys2Proof.Machine

/-- R62 to R71, R85 to R103: DECODE AND ENCODE AGREE. The words of a well-formed instruction, with every operand at every value its
encoding admits, decode to it. -/
def Obligations.RoundTrip : Prop :=
  ∀ i : Instr, i.wf = true → ∀ e, encode i = some e → decodeEnc e = .ok i ∧ takeEnc e.halves = some e

/-- R6, R67, R74, R87: a word that the decoder accepts is the one encoding of a well-formed instruction: no unused bit is ignored, and
no two words mean the same. -/
def Obligations.OneWordEach : Prop :=
  ∀ (e : Enc) (i : Instr), takeEnc e.halves = some e → decodeEnc e = .ok i → i.wf = true ∧ encode i = some e

/-- The words of the spec's encodings decode to the instructions they stand for, and reserved words are rejected: an unassigned major
(R86), a nonzero unused bit (R67), the halfword 0x0000 (R85). -/
def Obligations.DecodeWords : Prop :=
  (∀ row ∈ Claims.words, decodeHalves [BitVec.ofNat 16 row.1, BitVec.ofNat 16 (row.1 / 65536)] = .ok row.2) ∧
  decodeHalves [0x70EC] = .ok (.vmax16 false 7 28) ∧ decodeHalves [0x0001, 0x0000] = .error .unassignedMajor ∧
  decodeHalves [0x0073, 0x0001] = .error .reservedField ∧ decodeHalves [0x0000] = .error .laneForm

/-- A STEP RUNS THE DECODED INSTRUCTION (R29, R62, R74): when no event of another agent comes first and the halfwords at PC decode to
an instruction, the pointer of the thread's half moves to it (R175) and the step is that instruction's effect, after which the model
chooses the next thread (its log entries 5 and 6), which changes no thread, cluster or core; a word that is no instruction takes
ILLEGAL with the word in INFO. -/
def Obligations.StepRunsDecoded : Prop :=
  (∀ (s : State) (lo : BitVec 16), s.halted = false → s.agentTurn = false → Claims.fetched s s.me.pc lo →
    (lo.getLsbD 0 = false →
      (∀ i, decodeEnc (.h16 lo) = .ok i → step s = finish (exec i s.takeTurn)) ∧
      (∀ e, decodeEnc (.h16 lo) = .error e → step s = finish (.next (s.takeTurn.freeze s.cur ⟨.ILLEGAL, 0, lo.setWidth 64, 0⟩)))) ∧
    (∀ hi, lo.getLsbD 0 = true → Claims.fetched s (s.me.pc + 2) hi →
      (∀ i, decodeEnc (.w32 (hi ++ lo)) = .ok i → step s = finish (exec i s.takeTurn)) ∧
      (∀ e, decodeEnc (.w32 (hi ++ lo)) = .error e →
        step s = finish (.next (s.takeTurn.freeze s.cur ⟨.ILLEGAL, 0, (hi ++ lo).setWidth 64, 0⟩))))) ∧
  (∀ s : State, finish (.next s) = .next s.advance ∧ s.advance.threads = s.threads ∧ s.advance.clusters = s.clusters ∧
    s.advance.cores = s.cores ∧
    (Claims.nothingPending s → s.advance.dies = s.dies ∧ s.advance.pkg = s.pkg ∧ s.advance.mem = s.mem)) ∧
  (∀ s : State, s.takeTurn.threads = s.threads ∧ s.takeTurn.cur = s.cur ∧ s.takeTurn.pkg = s.pkg ∧ s.takeTurn.mem = s.mem ∧
    (∀ c, c ≠ s.cur.coreKey → s.takeTurn.core c = s.core c) ∧
    s.takeTurn.myCore = { s.myCore with
      rr := if s.nextExec s.cur then s.myCore.rr else s.cur.tnum, rrx := if s.nextExec s.cur then s.cur.tnum else s.myCore.rrx })

/-- R389, R455, R460, R461: a package that is stopped, unpowered, still to boot or whose boot has failed (PHASE 15: the model's choice,
its log entry 2) runs no instruction: until it is reset no thread, no core and no cluster changes. What still happens there is the
model's reading (its log entry 50). One that is to boot, with nothing due, boots. -/
def Obligations.StoppedPackage : Prop :=
  ∀ s : State, s.halted = true →
    (s.boots = true → s.urgent = [] → s.agenda = [] → step s = finish (exec .packageReset s)) ∧
    ∀ t : State, step s = .next t →
      (s.urgent ++ s.agenda).head? = some .packageReset ∨ (s.urgent = [] ∧ s.agenda = [] ∧ s.boots = true) ∨
        (t.halted = true ∧ t.threads = s.threads ∧ t.clusters = s.clusters ∧ t.cores = s.cores)

/-- EVERY STEP KEEPS THE MEMORIES IN CANONICAL FORM: addresses rising, and no entry equal to what an unlisted address reads as (the
model's log entry 4), in physical memory and in every scratchpad. -/
def Obligations.StepKeepsMemory : Prop := ∀ s t : State, s.memoryOk = true → step s = .next t → t.memoryOk = true

/-- R461, R180, R200, R307, R15: what reset leaves, and that the invariant of the memories holds of it: no thread is bound; no
launch, no queue, no job; the pool has 48 free blocks and the L1 split is 1; weights are 1. The registers of a slot with no thread
are those that R28 gives a thread at binding, and zero where it gives none (the model's choice, its log entry 3). The package is
still to boot: PHASE is 0. -/
def Obligations.ResetState : Prop :=
  State.reset.memoryOk = true ∧ State.reset.unmarked = true ∧ State.reset.urgent = [] ∧
  (∀ t : Tid, let x := State.reset.thread t;
    x.status = .free ∧ (∀ r, x.rs r = 0) ∧ (∀ p, x.rp p = decide (p = 0)) ∧ (∀ m, x.rm m = BitVec.allOnes 128) ∧
    (∀ i : Fin 7, x.slots[i] = none) ∧ x.ldq = [] ∧ x.sdq = [] ∧ x.fpm = 0 ∧ x.fpf = 0 ∧ x.clvcnt = 0 ∧
    (∀ h, x.rh h = ⟨0, false, 0, 0, 0, 0, 0, 0, 0, 0, 0x3FF⟩) ∧ (∀ c, x.rc c = ⟨0, 0, 0, 0, 0, 0⟩)) ∧
  (∀ c, let x := State.reset.core c; x.freeBlocks = 48 ∧ x.fifo = [] ∧ x.fe = [] ∧ x.l1 = [] ∧ x.icache = [] ∧ x.mxq = [] ∧ x.rsq = [] ∧
    x.btq = [] ∧ x.clq = [] ∧ x.l1q = 1 ∧ x.l1next = 1) ∧
  (∀ k, (State.reset.cluster k).banks.toList.all (fun b => b == BankState.cleared) = true ∧
    (State.reset.cluster k).wgt = Vector.replicate 8 1) ∧
  (∀ d, (State.reset.die d).prod = 0 ∧ (State.reset.die d).cons = 0 ∧ (State.reset.die d).bstep = 1 ∧ (State.reset.die d).txstg = 16) ∧
  State.reset.pkg.launches = [] ∧ State.reset.pkg.queues = [] ∧ State.reset.pkg.bootst = 0 ∧ State.reset.boots = true

/-- THE FRAME of the instructions of registers only, whether they retire or fault: nothing outside the thread's registers changes, and
of these only the destination the instruction names (R73, R131, R132). -/
def Obligations.RegisterFrames : Prop :=
  ∀ (g : Guard) (d a b : SReg) (p q r : PReg) (i15 : BitVec 15) (i12 : BitVec 12) (i6 : BitVec 6) (k : BitVec 8) (esz : BitVec 2)
    (mk : MReg) (vd va vb : VName) (s t : State),
    (∀ i ∈ Claims.scalarForms g d a b i15 i6 k, exec i s = .next t →
      Claims.onlyRegisters s t ∧ (∀ x, x ≠ d → t.me.rs x = s.me.rs x) ∧ t.me.p = s.me.p ∧ t.me.m = s.me.m ∧ t.me.slots = s.me.slots ∧
      t.me.ldq = s.me.ldq ∧ t.me.sdq = s.me.sdq ∧ t.me.h = s.me.h ∧ t.me.c = s.me.c ∧ t.me.fpm = s.me.fpm ∧ t.me.fpf = s.me.fpf) ∧
    (∀ i ∈ Claims.predicateForms g p q r a b i12, exec i s = .next t →
      Claims.onlyRegisters s t ∧ (∀ x, x ≠ p → t.me.rp x = s.me.rp x) ∧ t.me.s = s.me.s ∧ t.me.m = s.me.m ∧ t.me.slots = s.me.slots ∧
      t.me.ldq = s.me.ldq ∧ t.me.sdq = s.me.sdq ∧ t.me.h = s.me.h ∧ t.me.c = s.me.c ∧ t.me.fpm = s.me.fpm ∧ t.me.fpf = s.me.fpf) ∧
    (∀ i ∈ Claims.vectorForms esz mk vd va vb b, exec i s = .next t →
      Claims.onlyRegisters s t ∧ t.me.s = s.me.s ∧ t.me.p = s.me.p ∧ t.me.m = s.me.m ∧ t.me.h = s.me.h ∧ t.me.c = s.me.c ∧
      t.me.fpm = s.me.fpm ∧ t.me.fpf ||| s.me.fpf = t.me.fpf ∧
      ∀ n : VName, n.val < 28 → n ≠ vd → (t.me.vRead 8 n).2 = (s.me.vRead 8 n).2)

/-- R7, R18: memory reads back what was written and keeps every other byte; writes keep the canonical form, in which equal contents are
equal data. -/
def Obligations.MemoryLaws : Prop :=
  (∀ (m : Memory) (a b : Nat) (v : Byte), m.wf = true →
    (m.write a v).wf = true ∧ (m.write a v).read b = if b = a then v else m.read b) ∧
  (∀ (m : Memory) (a b : Nat) (bs : List Byte), m.wf = true →
    (m.writeBytes a bs).wf = true ∧
    (m.writeBytes a bs).read b = if a ≤ b ∧ b < a + bs.length then bs.getD (b - a) 0 else m.read b) ∧
  (∀ m m' : Memory, m.wf = true → m'.wf = true → (∀ a, m.read a = m'.read a) → m = m')

end
end

