-- ==== Sys2Proof/Laws/Fields.lean ====
section
/-! SUPPORT. Splitting a packed word gives back its fields, for every format; fields that hold a register, a flag or a short
number give back what was put in. -/

namespace Sys2Proof

theorem RF.unpack_pack (x : RF) : RF.unpack (RF.pack x) = x := by
  cases x
  simp only [RF.unpack, RF.pack, RF.mk.injEq]
  refine ⟨?_, ?_, ?_, ?_, ?_, ?_, ?_⟩ <;> (ext i hi; simp; try grind)
theorem IF.unpack_pack (x : IF) : IF.unpack (IF.pack x) = x := by
  cases x
  simp only [IF.unpack, IF.pack, IF.mk.injEq]
  refine ⟨?_, ?_, ?_, ?_⟩ <;> (ext i hi; simp; try grind)
theorem KF.unpack_pack (x : KF) : KF.unpack (KF.pack x) = x := by
  cases x
  simp only [KF.unpack, KF.pack, KF.mk.injEq]
  refine ⟨?_, ?_, ?_, ?_, ?_⟩ <;> (ext i hi; simp; try grind)
theorem MF.unpack_pack (x : MF) : MF.unpack (MF.pack x) = x := by
  cases x
  simp only [MF.unpack, MF.pack, MF.mk.injEq]
  refine ⟨?_, ?_, ?_, ?_, ?_, ?_, ?_⟩ <;> (ext i hi; simp; try grind)
theorem BF.unpack_pack (x : BF) : BF.unpack (BF.pack x) = x := by
  cases x
  simp only [BF.unpack, BF.pack, BF.mk.injEq]
  refine ⟨?_, ?_, ?_, ?_⟩ <;> (ext i hi; simp; try grind)
theorem VF.unpack_pack (x : VF) : VF.unpack (VF.pack x) = x := by
  cases x
  simp only [VF.unpack, VF.pack, VF.mk.injEq]
  refine ⟨?_, ?_, ?_, ?_, ?_, ?_, ?_⟩ <;> (ext i hi; simp; try grind)
theorem EF.unpack_pack (x : EF) : EF.unpack (EF.pack x) = x := by
  cases x
  simp only [EF.unpack, EF.pack, EF.mk.injEq]
  refine ⟨?_, ?_, ?_, ?_, ?_, ?_, ?_⟩ <;> (ext i hi; simp; try grind)
theorem SF.unpack_pack (x : SF) : SF.unpack (SF.pack x) = x := by
  cases x
  simp only [SF.unpack, SF.pack, SF.mk.injEq]
  refine ⟨?_, ?_, ?_, ?_, ?_⟩ <;> (ext i hi; simp; try grind)

theorem RF.major_pack (x : RF) : (RF.pack x).extractLsb' 1 6 = x.major := congrArg RF.major (RF.unpack_pack x)
theorem IF.major_pack (x : IF) : (IF.pack x).extractLsb' 1 6 = x.major := congrArg IF.major (IF.unpack_pack x)
theorem KF.major_pack (x : KF) : (KF.pack x).extractLsb' 1 6 = x.major := congrArg KF.major (KF.unpack_pack x)
theorem MF.major_pack (x : MF) : (MF.pack x).extractLsb' 1 6 = x.major := congrArg MF.major (MF.unpack_pack x)
theorem BF.major_pack (x : BF) : (BF.pack x).extractLsb' 1 6 = x.major := congrArg BF.major (BF.unpack_pack x)
theorem VF.major_pack (x : VF) : (VF.pack x).extractLsb' 1 6 = x.major := congrArg VF.major (VF.unpack_pack x)
theorem EF.major_pack (x : EF) : (EF.pack x).extractLsb' 1 6 = x.major := congrArg EF.major (EF.unpack_pack x)
theorem SF.major_pack (x : SF) : (SF.pack x).extractLsb' 1 6 = x.major := congrArg SF.major (SF.unpack_pack x)

theorem bit_ofBit (b : Bool) : bit (ofBit b) = b := by cases b <;> rfl
theorem lo3_up5 (x : Fin 8) : lo3 (up5 x) = x := by revert x; decide
theorem hi2_up5 (x : Fin 8) : hi2 (up5 x) = 0 := by revert x; decide
theorem lo3b_up4 (x : Fin 8) : lo3b (up4 x) = x := by revert x; decide
theorem hi1_up4 (x : Fin 8) : hi1 (up4 x) = 0 := by revert x; decide

/-! Two joined fields cut apart again. -/

theorem cut_1_1_at_0_1 (x : BitVec 1) (y : BitVec 1) : BitVec.extractLsb' 0 1 (x ++ y : BitVec 2) = y := by
  ext i hi; simp; try grind
theorem cut_1_1_at_1_1 (x : BitVec 1) (y : BitVec 1) : BitVec.extractLsb' 1 1 (x ++ y : BitVec 2) = x := by
  ext i hi; simp; try grind
theorem cut_5_5_at_0_5 (x : BitVec 5) (y : BitVec 5) : BitVec.extractLsb' 0 5 (x ++ y : BitVec 10) = y := by
  ext i hi; simp; try grind
theorem cut_5_5_at_5_5 (x : BitVec 5) (y : BitVec 5) : BitVec.extractLsb' 5 5 (x ++ y : BitVec 10) = x := by
  ext i hi; simp; try grind
theorem cut_3_12_at_12_3 (x : BitVec 3) (y : BitVec 12) : BitVec.extractLsb' 12 3 (x ++ y : BitVec 15) = x := by
  ext i hi; simp; try grind
theorem cut_3_12_at_0_12 (x : BitVec 3) (y : BitVec 12) : BitVec.extractLsb' 0 12 (x ++ y : BitVec 15) = y := by
  ext i hi; simp; try grind
theorem cut_3_2_at_2_3 (x : BitVec 3) (y : BitVec 2) : BitVec.extractLsb' 2 3 (x ++ y : BitVec 5) = x := by
  ext i hi; simp; try grind
theorem cut_3_2_at_0_2 (x : BitVec 3) (y : BitVec 2) : BitVec.extractLsb' 0 2 (x ++ y : BitVec 5) = y := by
  ext i hi; simp; try grind
theorem cut_5_7_at_7_5 (x : BitVec 5) (y : BitVec 7) : BitVec.extractLsb' 7 5 (x ++ y : BitVec 12) = x := by
  ext i hi; simp; try grind
theorem cut_5_7_at_0_7 (x : BitVec 5) (y : BitVec 7) : BitVec.extractLsb' 0 7 (x ++ y : BitVec 12) = y := by
  ext i hi; simp; try grind
theorem cut_8_4_at_4_8 (x : BitVec 8) (y : BitVec 4) : BitVec.extractLsb' 4 8 (x ++ y : BitVec 12) = x := by
  ext i hi; simp; try grind
theorem cut_8_4_at_0_4 (x : BitVec 8) (y : BitVec 4) : BitVec.extractLsb' 0 4 (x ++ y : BitVec 12) = y := by
  ext i hi; simp; try grind
theorem cut_1_4_at_4_1 (x : BitVec 1) (y : BitVec 4) : BitVec.extractLsb' 4 1 (x ++ y : BitVec 5) = x := by
  ext i hi; simp; try grind
theorem cut_1_4_at_0_4 (x : BitVec 1) (y : BitVec 4) : BitVec.extractLsb' 0 4 (x ++ y : BitVec 5) = y := by
  ext i hi; simp; try grind

/-! Three joined fields. -/

theorem cut_2_7_6_at_13_2 (x : BitVec 2) (y : BitVec 7) (z : BitVec 6) : BitVec.extractLsb' 13 2 (x ++ y ++ z : BitVec 15) = x := by
  ext i hi; simp; try grind
theorem cut_2_7_6_at_6_7 (x : BitVec 2) (y : BitVec 7) (z : BitVec 6) : BitVec.extractLsb' 6 7 (x ++ y ++ z : BitVec 15) = y := by
  ext i hi; simp; try grind
theorem cut_2_7_6_at_0_6 (x : BitVec 2) (y : BitVec 7) (z : BitVec 6) : BitVec.extractLsb' 0 6 (x ++ y ++ z : BitVec 15) = z := by
  ext i hi; simp; try grind
theorem cut_3_4_8_at_12_3 (x : BitVec 3) (y : BitVec 4) (z : BitVec 8) : BitVec.extractLsb' 12 3 (x ++ y ++ z : BitVec 15) = x := by
  ext i hi; simp; try grind
theorem cut_3_4_8_at_8_4 (x : BitVec 3) (y : BitVec 4) (z : BitVec 8) : BitVec.extractLsb' 8 4 (x ++ y ++ z : BitVec 15) = y := by
  ext i hi; simp; try grind
theorem cut_3_4_8_at_0_8 (x : BitVec 3) (y : BitVec 4) (z : BitVec 8) : BitVec.extractLsb' 0 8 (x ++ y ++ z : BitVec 15) = z := by
  ext i hi; simp; try grind
theorem cut_7_1_4_at_5_7 (x : BitVec 7) (y : BitVec 1) (z : BitVec 4) : BitVec.extractLsb' 5 7 (x ++ y ++ z : BitVec 12) = x := by
  ext i hi; simp; try grind
theorem cut_7_1_4_at_4_1 (x : BitVec 7) (y : BitVec 1) (z : BitVec 4) : BitVec.extractLsb' 4 1 (x ++ y ++ z : BitVec 12) = y := by
  ext i hi; simp; try grind
theorem cut_7_1_4_at_0_4 (x : BitVec 7) (y : BitVec 1) (z : BitVec 4) : BitVec.extractLsb' 0 4 (x ++ y ++ z : BitVec 12) = z := by
  ext i hi; simp; try grind
theorem cut_2_2_8_at_10_2 (x : BitVec 2) (y : BitVec 2) (z : BitVec 8) : BitVec.extractLsb' 10 2 (x ++ y ++ z : BitVec 12) = x := by
  ext i hi; simp; try grind
theorem cut_2_2_8_at_8_2 (x : BitVec 2) (y : BitVec 2) (z : BitVec 8) : BitVec.extractLsb' 8 2 (x ++ y ++ z : BitVec 12) = y := by
  ext i hi; simp; try grind
theorem cut_2_2_8_at_0_8 (x : BitVec 2) (y : BitVec 2) (z : BitVec 8) : BitVec.extractLsb' 0 8 (x ++ y ++ z : BitVec 12) = z := by
  ext i hi; simp; try grind

/-! The fields of a 16-bit lane form (R64). -/

theorem lane_op (w : BitVec 1) (s d : BitVec 5) (o : BitVec 4) : BitVec.extractLsb' 1 4 (w ++ s ++ d ++ o ++ 0#1 : BitVec 16) = o := by
  ext i hi; simp; try grind
theorem lane_vd (w : BitVec 1) (s d : BitVec 5) (o : BitVec 4) : BitVec.extractLsb' 5 5 (w ++ s ++ d ++ o ++ 0#1 : BitVec 16) = d := by
  ext i hi; simp; try grind
theorem lane_vs (w : BitVec 1) (s d : BitVec 5) (o : BitVec 4) : BitVec.extractLsb' 10 5 (w ++ s ++ d ++ o ++ 0#1 : BitVec 16) = s := by
  ext i hi; simp; try grind
theorem lane_w (w : BitVec 1) (s d : BitVec 5) (o : BitVec 4) : BitVec.extractLsb' 15 1 (w ++ s ++ d ++ o ++ 0#1 : BitVec 16) = w := by
  ext i hi; simp; try grind

/-- The twelve bits of a cleavage index, put together from its three places. -/
theorem cleave_join (x : BitVec 12) : x.extractLsb' 10 2 ++ x.extractLsb' 5 5 ++ x.extractLsb' 0 5 = x := by
  ext i hi; simp; grind

end Sys2Proof
end

