-- ==== Sys2Proof/Laws/State.lean ====
section
/-! SUPPORT. One lemma per field of the state per update, and what a look-up finds after an update: a proof uses these and never
unfolds a record update. -/

namespace Sys2Proof.Machine

/-! Keyed collections. -/

@[simp] theorem Assoc.find_put_same {α : Type} (k : Nat) (v : α) (l : Assoc α) : Assoc.find k (Assoc.put k v l) = some v := by
  induction l with
  | nil => simp [Assoc.put, Assoc.find]
  | cons e r ih =>
    simp only [Assoc.put]
    split
    · simp [Assoc.find]
    · split
      · simp [Assoc.find]
      · simp [Assoc.find, *]

theorem Assoc.find_put_other {α : Type} {k j : Nat} (v : α) (l : Assoc α) (h : k ≠ j) :
    Assoc.find k (Assoc.put j v l) = Assoc.find k l := by
  induction l with
  | nil => simp [Assoc.put, Assoc.find, h.symm]
  | cons e r ih =>
    simp only [Assoc.put]
    split
    · simp [Assoc.find, h.symm]
    · split
      · subst_vars; simp [Assoc.find, h.symm]
      · simp [Assoc.find, ih]

theorem Assoc.find_put {α : Type} (k j : Nat) (v : α) (l : Assoc α) :
    Assoc.find k (Assoc.put j v l) = if k = j then some v else Assoc.find k l := by
  split
  · subst_vars; simp
  · exact Assoc.find_put_other v l ‹_›

@[simp] theorem Assoc.put_put {α : Type} (k : Nat) (v w : α) (l : Assoc α) :
    Assoc.put k v (Assoc.put k w l) = Assoc.put k v l := by
  induction l with
  | nil => simp [Assoc.put]
  | cons e r ih =>
    obtain ⟨j, x⟩ := e
    by_cases h : k < j
    · simp [Assoc.put, h]
    · by_cases h' : j = k
      · subst h'; simp [Assoc.put]
      · simp [Assoc.put, h, h', ih]

/-! One lemma per field per update. -/

@[simp] theorem State.setThread_threads (s : State) (t : Tid) (x : Thread) : (s.setThread t x).threads = Assoc.put t.key x s.threads := rfl
@[simp] theorem State.setThread_cores (s : State) (t : Tid) (x : Thread) : (s.setThread t x).cores = s.cores := rfl
@[simp] theorem State.setThread_clusters (s : State) (t : Tid) (x : Thread) : (s.setThread t x).clusters = s.clusters := rfl
@[simp] theorem State.setThread_dies (s : State) (t : Tid) (x : Thread) : (s.setThread t x).dies = s.dies := rfl
@[simp] theorem State.setThread_pkg (s : State) (t : Tid) (x : Thread) : (s.setThread t x).pkg = s.pkg := rfl
@[simp] theorem State.setThread_mem (s : State) (t : Tid) (x : Thread) : (s.setThread t x).mem = s.mem := rfl
@[simp] theorem State.setThread_poison (s : State) (t : Tid) (x : Thread) : (s.setThread t x).poison = s.poison := rfl
@[simp] theorem State.setThread_lpoison (s : State) (t : Tid) (x : Thread) : (s.setThread t x).lpoison = s.lpoison := rfl
@[simp] theorem State.setThread_cur (s : State) (t : Tid) (x : Thread) : (s.setThread t x).cur = s.cur := rfl
@[simp] theorem State.setThread_urgent (s : State) (t : Tid) (x : Thread) : (s.setThread t x).urgent = s.urgent := rfl
@[simp] theorem State.setThread_agenda (s : State) (t : Tid) (x : Thread) : (s.setThread t x).agenda = s.agenda := rfl
@[simp] theorem State.setThread_fresh (s : State) (t : Tid) (x : Thread) : (s.setThread t x).fresh = s.fresh := rfl
@[simp] theorem State.upThread_threads (s : State) (t : Tid) (f : Thread → Thread) : (s.upThread t f).threads = Assoc.put t.key (f (s.thread t)) s.threads := rfl
@[simp] theorem State.upThread_cores (s : State) (t : Tid) (f : Thread → Thread) : (s.upThread t f).cores = s.cores := rfl
@[simp] theorem State.upThread_clusters (s : State) (t : Tid) (f : Thread → Thread) : (s.upThread t f).clusters = s.clusters := rfl
@[simp] theorem State.upThread_dies (s : State) (t : Tid) (f : Thread → Thread) : (s.upThread t f).dies = s.dies := rfl
@[simp] theorem State.upThread_pkg (s : State) (t : Tid) (f : Thread → Thread) : (s.upThread t f).pkg = s.pkg := rfl
@[simp] theorem State.upThread_mem (s : State) (t : Tid) (f : Thread → Thread) : (s.upThread t f).mem = s.mem := rfl
@[simp] theorem State.upThread_poison (s : State) (t : Tid) (f : Thread → Thread) : (s.upThread t f).poison = s.poison := rfl
@[simp] theorem State.upThread_lpoison (s : State) (t : Tid) (f : Thread → Thread) : (s.upThread t f).lpoison = s.lpoison := rfl
@[simp] theorem State.upThread_cur (s : State) (t : Tid) (f : Thread → Thread) : (s.upThread t f).cur = s.cur := rfl
@[simp] theorem State.upThread_urgent (s : State) (t : Tid) (f : Thread → Thread) : (s.upThread t f).urgent = s.urgent := rfl
@[simp] theorem State.upThread_agenda (s : State) (t : Tid) (f : Thread → Thread) : (s.upThread t f).agenda = s.agenda := rfl
@[simp] theorem State.upThread_fresh (s : State) (t : Tid) (f : Thread → Thread) : (s.upThread t f).fresh = s.fresh := rfl
@[simp] theorem State.setMe_threads (s : State) (x : Thread) : (s.setMe x).threads = Assoc.put s.cur.key x s.threads := rfl
@[simp] theorem State.setMe_cores (s : State) (x : Thread) : (s.setMe x).cores = s.cores := rfl
@[simp] theorem State.setMe_clusters (s : State) (x : Thread) : (s.setMe x).clusters = s.clusters := rfl
@[simp] theorem State.setMe_dies (s : State) (x : Thread) : (s.setMe x).dies = s.dies := rfl
@[simp] theorem State.setMe_pkg (s : State) (x : Thread) : (s.setMe x).pkg = s.pkg := rfl
@[simp] theorem State.setMe_mem (s : State) (x : Thread) : (s.setMe x).mem = s.mem := rfl
@[simp] theorem State.setMe_poison (s : State) (x : Thread) : (s.setMe x).poison = s.poison := rfl
@[simp] theorem State.setMe_lpoison (s : State) (x : Thread) : (s.setMe x).lpoison = s.lpoison := rfl
@[simp] theorem State.setMe_cur (s : State) (x : Thread) : (s.setMe x).cur = s.cur := rfl
@[simp] theorem State.setMe_urgent (s : State) (x : Thread) : (s.setMe x).urgent = s.urgent := rfl
@[simp] theorem State.setMe_agenda (s : State) (x : Thread) : (s.setMe x).agenda = s.agenda := rfl
@[simp] theorem State.setMe_fresh (s : State) (x : Thread) : (s.setMe x).fresh = s.fresh := rfl
@[simp] theorem State.upMe_threads (s : State) (f : Thread → Thread) : (s.upMe f).threads = Assoc.put s.cur.key (f s.me) s.threads := rfl
@[simp] theorem State.upMe_cores (s : State) (f : Thread → Thread) : (s.upMe f).cores = s.cores := rfl
@[simp] theorem State.upMe_clusters (s : State) (f : Thread → Thread) : (s.upMe f).clusters = s.clusters := rfl
@[simp] theorem State.upMe_dies (s : State) (f : Thread → Thread) : (s.upMe f).dies = s.dies := rfl
@[simp] theorem State.upMe_pkg (s : State) (f : Thread → Thread) : (s.upMe f).pkg = s.pkg := rfl
@[simp] theorem State.upMe_mem (s : State) (f : Thread → Thread) : (s.upMe f).mem = s.mem := rfl
@[simp] theorem State.upMe_poison (s : State) (f : Thread → Thread) : (s.upMe f).poison = s.poison := rfl
@[simp] theorem State.upMe_lpoison (s : State) (f : Thread → Thread) : (s.upMe f).lpoison = s.lpoison := rfl
@[simp] theorem State.upMe_cur (s : State) (f : Thread → Thread) : (s.upMe f).cur = s.cur := rfl
@[simp] theorem State.upMe_urgent (s : State) (f : Thread → Thread) : (s.upMe f).urgent = s.urgent := rfl
@[simp] theorem State.upMe_agenda (s : State) (f : Thread → Thread) : (s.upMe f).agenda = s.agenda := rfl
@[simp] theorem State.upMe_fresh (s : State) (f : Thread → Thread) : (s.upMe f).fresh = s.fresh := rfl
@[simp] theorem State.setCore_threads (s : State) (c : Nat) (x : Core) : (s.setCore c x).threads = s.threads := rfl
@[simp] theorem State.setCore_cores (s : State) (c : Nat) (x : Core) : (s.setCore c x).cores = Assoc.put c x s.cores := rfl
@[simp] theorem State.setCore_clusters (s : State) (c : Nat) (x : Core) : (s.setCore c x).clusters = s.clusters := rfl
@[simp] theorem State.setCore_dies (s : State) (c : Nat) (x : Core) : (s.setCore c x).dies = s.dies := rfl
@[simp] theorem State.setCore_pkg (s : State) (c : Nat) (x : Core) : (s.setCore c x).pkg = s.pkg := rfl
@[simp] theorem State.setCore_mem (s : State) (c : Nat) (x : Core) : (s.setCore c x).mem = s.mem := rfl
@[simp] theorem State.setCore_poison (s : State) (c : Nat) (x : Core) : (s.setCore c x).poison = s.poison := rfl
@[simp] theorem State.setCore_lpoison (s : State) (c : Nat) (x : Core) : (s.setCore c x).lpoison = s.lpoison := rfl
@[simp] theorem State.setCore_cur (s : State) (c : Nat) (x : Core) : (s.setCore c x).cur = s.cur := rfl
@[simp] theorem State.setCore_urgent (s : State) (c : Nat) (x : Core) : (s.setCore c x).urgent = s.urgent := rfl
@[simp] theorem State.setCore_agenda (s : State) (c : Nat) (x : Core) : (s.setCore c x).agenda = s.agenda := rfl
@[simp] theorem State.setCore_fresh (s : State) (c : Nat) (x : Core) : (s.setCore c x).fresh = s.fresh := rfl
@[simp] theorem State.upCore_threads (s : State) (c : Nat) (f : Core → Core) : (s.upCore c f).threads = s.threads := rfl
@[simp] theorem State.upCore_cores (s : State) (c : Nat) (f : Core → Core) : (s.upCore c f).cores = Assoc.put c (f (s.core c)) s.cores := rfl
@[simp] theorem State.upCore_clusters (s : State) (c : Nat) (f : Core → Core) : (s.upCore c f).clusters = s.clusters := rfl
@[simp] theorem State.upCore_dies (s : State) (c : Nat) (f : Core → Core) : (s.upCore c f).dies = s.dies := rfl
@[simp] theorem State.upCore_pkg (s : State) (c : Nat) (f : Core → Core) : (s.upCore c f).pkg = s.pkg := rfl
@[simp] theorem State.upCore_mem (s : State) (c : Nat) (f : Core → Core) : (s.upCore c f).mem = s.mem := rfl
@[simp] theorem State.upCore_poison (s : State) (c : Nat) (f : Core → Core) : (s.upCore c f).poison = s.poison := rfl
@[simp] theorem State.upCore_lpoison (s : State) (c : Nat) (f : Core → Core) : (s.upCore c f).lpoison = s.lpoison := rfl
@[simp] theorem State.upCore_cur (s : State) (c : Nat) (f : Core → Core) : (s.upCore c f).cur = s.cur := rfl
@[simp] theorem State.upCore_urgent (s : State) (c : Nat) (f : Core → Core) : (s.upCore c f).urgent = s.urgent := rfl
@[simp] theorem State.upCore_agenda (s : State) (c : Nat) (f : Core → Core) : (s.upCore c f).agenda = s.agenda := rfl
@[simp] theorem State.upCore_fresh (s : State) (c : Nat) (f : Core → Core) : (s.upCore c f).fresh = s.fresh := rfl
@[simp] theorem State.upMyCore_threads (s : State) (f : Core → Core) : (s.upMyCore f).threads = s.threads := rfl
@[simp] theorem State.upMyCore_cores (s : State) (f : Core → Core) : (s.upMyCore f).cores = Assoc.put s.cur.coreKey (f s.myCore) s.cores := rfl
@[simp] theorem State.upMyCore_clusters (s : State) (f : Core → Core) : (s.upMyCore f).clusters = s.clusters := rfl
@[simp] theorem State.upMyCore_dies (s : State) (f : Core → Core) : (s.upMyCore f).dies = s.dies := rfl
@[simp] theorem State.upMyCore_pkg (s : State) (f : Core → Core) : (s.upMyCore f).pkg = s.pkg := rfl
@[simp] theorem State.upMyCore_mem (s : State) (f : Core → Core) : (s.upMyCore f).mem = s.mem := rfl
@[simp] theorem State.upMyCore_poison (s : State) (f : Core → Core) : (s.upMyCore f).poison = s.poison := rfl
@[simp] theorem State.upMyCore_lpoison (s : State) (f : Core → Core) : (s.upMyCore f).lpoison = s.lpoison := rfl
@[simp] theorem State.upMyCore_cur (s : State) (f : Core → Core) : (s.upMyCore f).cur = s.cur := rfl
@[simp] theorem State.upMyCore_urgent (s : State) (f : Core → Core) : (s.upMyCore f).urgent = s.urgent := rfl
@[simp] theorem State.upMyCore_agenda (s : State) (f : Core → Core) : (s.upMyCore f).agenda = s.agenda := rfl
@[simp] theorem State.upMyCore_fresh (s : State) (f : Core → Core) : (s.upMyCore f).fresh = s.fresh := rfl
@[simp] theorem State.setCluster_threads (s : State) (k : Nat) (x : Cluster) : (s.setCluster k x).threads = s.threads := rfl
@[simp] theorem State.setCluster_cores (s : State) (k : Nat) (x : Cluster) : (s.setCluster k x).cores = s.cores := rfl
@[simp] theorem State.setCluster_clusters (s : State) (k : Nat) (x : Cluster) : (s.setCluster k x).clusters = Assoc.put k x s.clusters := rfl
@[simp] theorem State.setCluster_dies (s : State) (k : Nat) (x : Cluster) : (s.setCluster k x).dies = s.dies := rfl
@[simp] theorem State.setCluster_pkg (s : State) (k : Nat) (x : Cluster) : (s.setCluster k x).pkg = s.pkg := rfl
@[simp] theorem State.setCluster_mem (s : State) (k : Nat) (x : Cluster) : (s.setCluster k x).mem = s.mem := rfl
@[simp] theorem State.setCluster_poison (s : State) (k : Nat) (x : Cluster) : (s.setCluster k x).poison = s.poison := rfl
@[simp] theorem State.setCluster_lpoison (s : State) (k : Nat) (x : Cluster) : (s.setCluster k x).lpoison = s.lpoison := rfl
@[simp] theorem State.setCluster_cur (s : State) (k : Nat) (x : Cluster) : (s.setCluster k x).cur = s.cur := rfl
@[simp] theorem State.setCluster_urgent (s : State) (k : Nat) (x : Cluster) : (s.setCluster k x).urgent = s.urgent := rfl
@[simp] theorem State.setCluster_agenda (s : State) (k : Nat) (x : Cluster) : (s.setCluster k x).agenda = s.agenda := rfl
@[simp] theorem State.setCluster_fresh (s : State) (k : Nat) (x : Cluster) : (s.setCluster k x).fresh = s.fresh := rfl
@[simp] theorem State.upCluster_threads (s : State) (k : Nat) (f : Cluster → Cluster) : (s.upCluster k f).threads = s.threads := rfl
@[simp] theorem State.upCluster_cores (s : State) (k : Nat) (f : Cluster → Cluster) : (s.upCluster k f).cores = s.cores := rfl
@[simp] theorem State.upCluster_clusters (s : State) (k : Nat) (f : Cluster → Cluster) : (s.upCluster k f).clusters = Assoc.put k (f (s.cluster k)) s.clusters := rfl
@[simp] theorem State.upCluster_dies (s : State) (k : Nat) (f : Cluster → Cluster) : (s.upCluster k f).dies = s.dies := rfl
@[simp] theorem State.upCluster_pkg (s : State) (k : Nat) (f : Cluster → Cluster) : (s.upCluster k f).pkg = s.pkg := rfl
@[simp] theorem State.upCluster_mem (s : State) (k : Nat) (f : Cluster → Cluster) : (s.upCluster k f).mem = s.mem := rfl
@[simp] theorem State.upCluster_poison (s : State) (k : Nat) (f : Cluster → Cluster) : (s.upCluster k f).poison = s.poison := rfl
@[simp] theorem State.upCluster_lpoison (s : State) (k : Nat) (f : Cluster → Cluster) : (s.upCluster k f).lpoison = s.lpoison := rfl
@[simp] theorem State.upCluster_cur (s : State) (k : Nat) (f : Cluster → Cluster) : (s.upCluster k f).cur = s.cur := rfl
@[simp] theorem State.upCluster_urgent (s : State) (k : Nat) (f : Cluster → Cluster) : (s.upCluster k f).urgent = s.urgent := rfl
@[simp] theorem State.upCluster_agenda (s : State) (k : Nat) (f : Cluster → Cluster) : (s.upCluster k f).agenda = s.agenda := rfl
@[simp] theorem State.upCluster_fresh (s : State) (k : Nat) (f : Cluster → Cluster) : (s.upCluster k f).fresh = s.fresh := rfl
@[simp] theorem State.setDie_threads (s : State) (d : Nat) (x : Die) : (s.setDie d x).threads = s.threads := rfl
@[simp] theorem State.setDie_cores (s : State) (d : Nat) (x : Die) : (s.setDie d x).cores = s.cores := rfl
@[simp] theorem State.setDie_clusters (s : State) (d : Nat) (x : Die) : (s.setDie d x).clusters = s.clusters := rfl
@[simp] theorem State.setDie_dies (s : State) (d : Nat) (x : Die) : (s.setDie d x).dies = Assoc.put d x s.dies := rfl
@[simp] theorem State.setDie_pkg (s : State) (d : Nat) (x : Die) : (s.setDie d x).pkg = s.pkg := rfl
@[simp] theorem State.setDie_mem (s : State) (d : Nat) (x : Die) : (s.setDie d x).mem = s.mem := rfl
@[simp] theorem State.setDie_poison (s : State) (d : Nat) (x : Die) : (s.setDie d x).poison = s.poison := rfl
@[simp] theorem State.setDie_lpoison (s : State) (d : Nat) (x : Die) : (s.setDie d x).lpoison = s.lpoison := rfl
@[simp] theorem State.setDie_cur (s : State) (d : Nat) (x : Die) : (s.setDie d x).cur = s.cur := rfl
@[simp] theorem State.setDie_urgent (s : State) (d : Nat) (x : Die) : (s.setDie d x).urgent = s.urgent := rfl
@[simp] theorem State.setDie_agenda (s : State) (d : Nat) (x : Die) : (s.setDie d x).agenda = s.agenda := rfl
@[simp] theorem State.setDie_fresh (s : State) (d : Nat) (x : Die) : (s.setDie d x).fresh = s.fresh := rfl
@[simp] theorem State.upDie_threads (s : State) (d : Nat) (f : Die → Die) : (s.upDie d f).threads = s.threads := rfl
@[simp] theorem State.upDie_cores (s : State) (d : Nat) (f : Die → Die) : (s.upDie d f).cores = s.cores := rfl
@[simp] theorem State.upDie_clusters (s : State) (d : Nat) (f : Die → Die) : (s.upDie d f).clusters = s.clusters := rfl
@[simp] theorem State.upDie_dies (s : State) (d : Nat) (f : Die → Die) : (s.upDie d f).dies = Assoc.put d (f (s.die d)) s.dies := rfl
@[simp] theorem State.upDie_pkg (s : State) (d : Nat) (f : Die → Die) : (s.upDie d f).pkg = s.pkg := rfl
@[simp] theorem State.upDie_mem (s : State) (d : Nat) (f : Die → Die) : (s.upDie d f).mem = s.mem := rfl
@[simp] theorem State.upDie_poison (s : State) (d : Nat) (f : Die → Die) : (s.upDie d f).poison = s.poison := rfl
@[simp] theorem State.upDie_lpoison (s : State) (d : Nat) (f : Die → Die) : (s.upDie d f).lpoison = s.lpoison := rfl
@[simp] theorem State.upDie_cur (s : State) (d : Nat) (f : Die → Die) : (s.upDie d f).cur = s.cur := rfl
@[simp] theorem State.upDie_urgent (s : State) (d : Nat) (f : Die → Die) : (s.upDie d f).urgent = s.urgent := rfl
@[simp] theorem State.upDie_agenda (s : State) (d : Nat) (f : Die → Die) : (s.upDie d f).agenda = s.agenda := rfl
@[simp] theorem State.upDie_fresh (s : State) (d : Nat) (f : Die → Die) : (s.upDie d f).fresh = s.fresh := rfl
@[simp] theorem State.setLaunch_threads (s : State) (lid : Nat) (l : Launch) : (s.setLaunch lid l).threads = s.threads := rfl
@[simp] theorem State.setLaunch_cores (s : State) (lid : Nat) (l : Launch) : (s.setLaunch lid l).cores = s.cores := rfl
@[simp] theorem State.setLaunch_clusters (s : State) (lid : Nat) (l : Launch) : (s.setLaunch lid l).clusters = s.clusters := rfl
@[simp] theorem State.setLaunch_dies (s : State) (lid : Nat) (l : Launch) : (s.setLaunch lid l).dies = s.dies := rfl
@[simp] theorem State.setLaunch_pkg (s : State) (lid : Nat) (l : Launch) : (s.setLaunch lid l).pkg = { s.pkg with launches := Assoc.put lid l s.pkg.launches } := rfl
@[simp] theorem State.setLaunch_mem (s : State) (lid : Nat) (l : Launch) : (s.setLaunch lid l).mem = s.mem := rfl
@[simp] theorem State.setLaunch_poison (s : State) (lid : Nat) (l : Launch) : (s.setLaunch lid l).poison = s.poison := rfl
@[simp] theorem State.setLaunch_lpoison (s : State) (lid : Nat) (l : Launch) : (s.setLaunch lid l).lpoison = s.lpoison := rfl
@[simp] theorem State.setLaunch_cur (s : State) (lid : Nat) (l : Launch) : (s.setLaunch lid l).cur = s.cur := rfl
@[simp] theorem State.setLaunch_urgent (s : State) (lid : Nat) (l : Launch) : (s.setLaunch lid l).urgent = s.urgent := rfl
@[simp] theorem State.setLaunch_agenda (s : State) (lid : Nat) (l : Launch) : (s.setLaunch lid l).agenda = s.agenda := rfl
@[simp] theorem State.setLaunch_fresh (s : State) (lid : Nat) (l : Launch) : (s.setLaunch lid l).fresh = s.fresh := rfl
@[simp] theorem State.upPkg_threads (s : State) (f : Package → Package) : (s.upPkg f).threads = s.threads := rfl
@[simp] theorem State.upPkg_cores (s : State) (f : Package → Package) : (s.upPkg f).cores = s.cores := rfl
@[simp] theorem State.upPkg_clusters (s : State) (f : Package → Package) : (s.upPkg f).clusters = s.clusters := rfl
@[simp] theorem State.upPkg_dies (s : State) (f : Package → Package) : (s.upPkg f).dies = s.dies := rfl
@[simp] theorem State.upPkg_pkg (s : State) (f : Package → Package) : (s.upPkg f).pkg = f s.pkg := rfl
@[simp] theorem State.upPkg_mem (s : State) (f : Package → Package) : (s.upPkg f).mem = s.mem := rfl
@[simp] theorem State.upPkg_poison (s : State) (f : Package → Package) : (s.upPkg f).poison = s.poison := rfl
@[simp] theorem State.upPkg_lpoison (s : State) (f : Package → Package) : (s.upPkg f).lpoison = s.lpoison := rfl
@[simp] theorem State.upPkg_cur (s : State) (f : Package → Package) : (s.upPkg f).cur = s.cur := rfl
@[simp] theorem State.upPkg_urgent (s : State) (f : Package → Package) : (s.upPkg f).urgent = s.urgent := rfl
@[simp] theorem State.upPkg_agenda (s : State) (f : Package → Package) : (s.upPkg f).agenda = s.agenda := rfl
@[simp] theorem State.upPkg_fresh (s : State) (f : Package → Package) : (s.upPkg f).fresh = s.fresh := rfl
@[simp] theorem State.urge_threads (s : State) (evs : List Instr) : (s.urge evs).threads = s.threads := rfl
@[simp] theorem State.urge_cores (s : State) (evs : List Instr) : (s.urge evs).cores = s.cores := rfl
@[simp] theorem State.urge_clusters (s : State) (evs : List Instr) : (s.urge evs).clusters = s.clusters := rfl
@[simp] theorem State.urge_dies (s : State) (evs : List Instr) : (s.urge evs).dies = s.dies := rfl
@[simp] theorem State.urge_pkg (s : State) (evs : List Instr) : (s.urge evs).pkg = s.pkg := rfl
@[simp] theorem State.urge_mem (s : State) (evs : List Instr) : (s.urge evs).mem = s.mem := rfl
@[simp] theorem State.urge_poison (s : State) (evs : List Instr) : (s.urge evs).poison = s.poison := rfl
@[simp] theorem State.urge_lpoison (s : State) (evs : List Instr) : (s.urge evs).lpoison = s.lpoison := rfl
@[simp] theorem State.urge_cur (s : State) (evs : List Instr) : (s.urge evs).cur = s.cur := rfl
@[simp] theorem State.urge_urgent (s : State) (evs : List Instr) : (s.urge evs).urgent = s.urgent ++ evs := rfl
@[simp] theorem State.urge_agenda (s : State) (evs : List Instr) : (s.urge evs).agenda = s.agenda := rfl
@[simp] theorem State.urge_fresh (s : State) (evs : List Instr) : (s.urge evs).fresh = s.fresh := rfl
@[simp] theorem State.post_threads (s : State) (evs : List Instr) : (s.post evs).threads = s.threads := rfl
@[simp] theorem State.post_cores (s : State) (evs : List Instr) : (s.post evs).cores = s.cores := rfl
@[simp] theorem State.post_clusters (s : State) (evs : List Instr) : (s.post evs).clusters = s.clusters := rfl
@[simp] theorem State.post_dies (s : State) (evs : List Instr) : (s.post evs).dies = s.dies := rfl
@[simp] theorem State.post_pkg (s : State) (evs : List Instr) : (s.post evs).pkg = s.pkg := rfl
@[simp] theorem State.post_mem (s : State) (evs : List Instr) : (s.post evs).mem = s.mem := rfl
@[simp] theorem State.post_poison (s : State) (evs : List Instr) : (s.post evs).poison = s.poison := rfl
@[simp] theorem State.post_lpoison (s : State) (evs : List Instr) : (s.post evs).lpoison = s.lpoison := rfl
@[simp] theorem State.post_cur (s : State) (evs : List Instr) : (s.post evs).cur = s.cur := rfl
@[simp] theorem State.post_urgent (s : State) (evs : List Instr) : (s.post evs).urgent = s.urgent := rfl
@[simp] theorem State.post_agenda (s : State) (evs : List Instr) : (s.post evs).agenda = s.agenda ++ evs := rfl
@[simp] theorem State.post_fresh (s : State) (evs : List Instr) : (s.post evs).fresh = s.fresh := rfl

@[simp] theorem State.upLaunch_threads (s : State) (lid : Nat) (f : Launch → Launch) : (s.upLaunch lid f).threads = s.threads := by
  unfold State.upLaunch; split <;> rfl
@[simp] theorem State.upLaunch_cores (s : State) (lid : Nat) (f : Launch → Launch) : (s.upLaunch lid f).cores = s.cores := by
  unfold State.upLaunch; split <;> rfl
@[simp] theorem State.upLaunch_clusters (s : State) (lid : Nat) (f : Launch → Launch) : (s.upLaunch lid f).clusters = s.clusters := by
  unfold State.upLaunch; split <;> rfl
@[simp] theorem State.upLaunch_dies (s : State) (lid : Nat) (f : Launch → Launch) : (s.upLaunch lid f).dies = s.dies := by
  unfold State.upLaunch; split <;> rfl
@[simp] theorem State.upLaunch_mem (s : State) (lid : Nat) (f : Launch → Launch) : (s.upLaunch lid f).mem = s.mem := by
  unfold State.upLaunch; split <;> rfl
@[simp] theorem State.upLaunch_poison (s : State) (lid : Nat) (f : Launch → Launch) : (s.upLaunch lid f).poison = s.poison := by
  unfold State.upLaunch; split <;> rfl
@[simp] theorem State.upLaunch_lpoison (s : State) (lid : Nat) (f : Launch → Launch) : (s.upLaunch lid f).lpoison = s.lpoison := by
  unfold State.upLaunch; split <;> rfl
@[simp] theorem State.upLaunch_cur (s : State) (lid : Nat) (f : Launch → Launch) : (s.upLaunch lid f).cur = s.cur := by
  unfold State.upLaunch; split <;> rfl
@[simp] theorem State.upLaunch_urgent (s : State) (lid : Nat) (f : Launch → Launch) : (s.upLaunch lid f).urgent = s.urgent := by
  unfold State.upLaunch; split <;> rfl
@[simp] theorem State.upLaunch_agenda (s : State) (lid : Nat) (f : Launch → Launch) : (s.upLaunch lid f).agenda = s.agenda := by
  unfold State.upLaunch; split <;> rfl
@[simp] theorem State.upLaunch_fresh (s : State) (lid : Nat) (f : Launch → Launch) : (s.upLaunch lid f).fresh = s.fresh := by
  unfold State.upLaunch; split <;> rfl

/-! What a look-up finds after an update. -/

@[simp] theorem State.thread_setThread (s : State) (t : Tid) (x : Thread) : (s.setThread t x).thread t = x := by
  simp [State.thread]
theorem State.thread_setThread_other (s : State) {t u : Tid} (x : Thread) (h : u.key ≠ t.key) :
    (s.setThread t x).thread u = s.thread u := by
  simp [State.thread, Assoc.find_put_other x _ h]
@[simp] theorem State.thread_upThread (s : State) (t : Tid) (f : Thread → Thread) :
    (s.upThread t f).thread t = f (s.thread t) := by
  simp [State.upThread]
theorem State.thread_upThread_other (s : State) {t u : Tid} (f : Thread → Thread) (h : u.key ≠ t.key) :
    (s.upThread t f).thread u = s.thread u := State.thread_setThread_other s _ h
@[simp] theorem State.me_setMe (s : State) (x : Thread) : (s.setMe x).me = x := by simp [State.me, State.setMe]
@[simp] theorem State.me_upMe (s : State) (f : Thread → Thread) : (s.upMe f).me = f s.me := by simp [State.upMe]
@[simp] theorem State.thread_cur (s : State) : s.thread s.cur = s.me := rfl
@[simp] theorem State.setThread_self (s : State) (x : Thread) : s.setThread s.cur x = s.setMe x := rfl
@[simp] theorem State.setMe_setMe (s : State) (x y : Thread) : (s.setMe x).setMe y = s.setMe y := by
  simp [State.setMe, State.setThread]
@[simp] theorem State.setThread_setThread (s : State) (t : Tid) (x y : Thread) :
    (s.setThread t x).setThread t y = s.setThread t y := by simp [State.setThread]
@[simp] theorem State.core_setCore (s : State) (c : Nat) (x : Core) : (s.setCore c x).core c = x := by simp [State.core]
theorem State.core_setCore_other (s : State) {c k : Nat} (x : Core) (h : k ≠ c) : (s.setCore c x).core k = s.core k := by
  simp [State.core, Assoc.find_put_other x _ h]
@[simp] theorem State.core_upCore (s : State) (c : Nat) (f : Core → Core) : (s.upCore c f).core c = f (s.core c) := by
  simp [State.upCore]
@[simp] theorem State.cluster_setCluster (s : State) (k : Nat) (x : Cluster) : (s.setCluster k x).cluster k = x := by
  simp [State.cluster]
@[simp] theorem State.cluster_upCluster (s : State) (k : Nat) (f : Cluster → Cluster) :
    (s.upCluster k f).cluster k = f (s.cluster k) := by simp [State.upCluster]
@[simp] theorem State.die_setDie (s : State) (d : Nat) (x : Die) : (s.setDie d x).die d = x := by simp [State.die]
theorem State.die_setDie_other (s : State) {d e : Nat} (x : Die) (h : e ≠ d) : (s.setDie d x).die e = s.die e := by
  simp [State.die, Assoc.find_put_other x _ h]
@[simp] theorem State.die_upDie (s : State) (d : Nat) (f : Die → Die) : (s.upDie d f).die d = f (s.die d) := by
  simp [State.upDie]
@[simp] theorem State.launch?_setLaunch (s : State) (lid : Nat) (l : Launch) : (s.setLaunch lid l).launch? lid = some l := by
  simp [State.launch?]
@[simp] theorem State.core_setThread (s : State) (t : Tid) (x : Thread) (i : Nat) : (s.setThread t x).core i = s.core i := rfl
@[simp] theorem State.cluster_setThread (s : State) (t : Tid) (x : Thread) (j : Nat) : (s.setThread t x).cluster j = s.cluster j := rfl
@[simp] theorem State.die_setThread (s : State) (t : Tid) (x : Thread) (e : Nat) : (s.setThread t x).die e = s.die e := rfl
@[simp] theorem State.launch?_setThread (s : State) (t : Tid) (x : Thread) (m : Nat) : (s.setThread t x).launch? m = s.launch? m := rfl
@[simp] theorem State.core_upThread (s : State) (t : Tid) (f : Thread → Thread) (i : Nat) : (s.upThread t f).core i = s.core i := rfl
@[simp] theorem State.cluster_upThread (s : State) (t : Tid) (f : Thread → Thread) (j : Nat) : (s.upThread t f).cluster j = s.cluster j := rfl
@[simp] theorem State.die_upThread (s : State) (t : Tid) (f : Thread → Thread) (e : Nat) : (s.upThread t f).die e = s.die e := rfl
@[simp] theorem State.launch?_upThread (s : State) (t : Tid) (f : Thread → Thread) (m : Nat) : (s.upThread t f).launch? m = s.launch? m := rfl
@[simp] theorem State.core_setMe (s : State) (x : Thread) (i : Nat) : (s.setMe x).core i = s.core i := rfl
@[simp] theorem State.cluster_setMe (s : State) (x : Thread) (j : Nat) : (s.setMe x).cluster j = s.cluster j := rfl
@[simp] theorem State.die_setMe (s : State) (x : Thread) (e : Nat) : (s.setMe x).die e = s.die e := rfl
@[simp] theorem State.launch?_setMe (s : State) (x : Thread) (m : Nat) : (s.setMe x).launch? m = s.launch? m := rfl
@[simp] theorem State.core_upMe (s : State) (f : Thread → Thread) (i : Nat) : (s.upMe f).core i = s.core i := rfl
@[simp] theorem State.cluster_upMe (s : State) (f : Thread → Thread) (j : Nat) : (s.upMe f).cluster j = s.cluster j := rfl
@[simp] theorem State.die_upMe (s : State) (f : Thread → Thread) (e : Nat) : (s.upMe f).die e = s.die e := rfl
@[simp] theorem State.launch?_upMe (s : State) (f : Thread → Thread) (m : Nat) : (s.upMe f).launch? m = s.launch? m := rfl
@[simp] theorem State.thread_setCore (s : State) (c : Nat) (x : Core) (u : Tid) : (s.setCore c x).thread u = s.thread u := rfl
@[simp] theorem State.me_setCore (s : State) (c : Nat) (x : Core)  : (s.setCore c x).me = s.me := rfl
@[simp] theorem State.cluster_setCore (s : State) (c : Nat) (x : Core) (j : Nat) : (s.setCore c x).cluster j = s.cluster j := rfl
@[simp] theorem State.die_setCore (s : State) (c : Nat) (x : Core) (e : Nat) : (s.setCore c x).die e = s.die e := rfl
@[simp] theorem State.launch?_setCore (s : State) (c : Nat) (x : Core) (m : Nat) : (s.setCore c x).launch? m = s.launch? m := rfl
@[simp] theorem State.thread_upCore (s : State) (c : Nat) (f : Core → Core) (u : Tid) : (s.upCore c f).thread u = s.thread u := rfl
@[simp] theorem State.me_upCore (s : State) (c : Nat) (f : Core → Core)  : (s.upCore c f).me = s.me := rfl
@[simp] theorem State.cluster_upCore (s : State) (c : Nat) (f : Core → Core) (j : Nat) : (s.upCore c f).cluster j = s.cluster j := rfl
@[simp] theorem State.die_upCore (s : State) (c : Nat) (f : Core → Core) (e : Nat) : (s.upCore c f).die e = s.die e := rfl
@[simp] theorem State.launch?_upCore (s : State) (c : Nat) (f : Core → Core) (m : Nat) : (s.upCore c f).launch? m = s.launch? m := rfl
@[simp] theorem State.thread_upMyCore (s : State) (f : Core → Core) (u : Tid) : (s.upMyCore f).thread u = s.thread u := rfl
@[simp] theorem State.me_upMyCore (s : State) (f : Core → Core)  : (s.upMyCore f).me = s.me := rfl
@[simp] theorem State.cluster_upMyCore (s : State) (f : Core → Core) (j : Nat) : (s.upMyCore f).cluster j = s.cluster j := rfl
@[simp] theorem State.die_upMyCore (s : State) (f : Core → Core) (e : Nat) : (s.upMyCore f).die e = s.die e := rfl
@[simp] theorem State.launch?_upMyCore (s : State) (f : Core → Core) (m : Nat) : (s.upMyCore f).launch? m = s.launch? m := rfl
@[simp] theorem State.thread_setCluster (s : State) (k : Nat) (x : Cluster) (u : Tid) : (s.setCluster k x).thread u = s.thread u := rfl
@[simp] theorem State.me_setCluster (s : State) (k : Nat) (x : Cluster)  : (s.setCluster k x).me = s.me := rfl
@[simp] theorem State.core_setCluster (s : State) (k : Nat) (x : Cluster) (i : Nat) : (s.setCluster k x).core i = s.core i := rfl
@[simp] theorem State.die_setCluster (s : State) (k : Nat) (x : Cluster) (e : Nat) : (s.setCluster k x).die e = s.die e := rfl
@[simp] theorem State.launch?_setCluster (s : State) (k : Nat) (x : Cluster) (m : Nat) : (s.setCluster k x).launch? m = s.launch? m := rfl
@[simp] theorem State.thread_upCluster (s : State) (k : Nat) (f : Cluster → Cluster) (u : Tid) : (s.upCluster k f).thread u = s.thread u := rfl
@[simp] theorem State.me_upCluster (s : State) (k : Nat) (f : Cluster → Cluster)  : (s.upCluster k f).me = s.me := rfl
@[simp] theorem State.core_upCluster (s : State) (k : Nat) (f : Cluster → Cluster) (i : Nat) : (s.upCluster k f).core i = s.core i := rfl
@[simp] theorem State.die_upCluster (s : State) (k : Nat) (f : Cluster → Cluster) (e : Nat) : (s.upCluster k f).die e = s.die e := rfl
@[simp] theorem State.launch?_upCluster (s : State) (k : Nat) (f : Cluster → Cluster) (m : Nat) : (s.upCluster k f).launch? m = s.launch? m := rfl
@[simp] theorem State.thread_setDie (s : State) (d : Nat) (x : Die) (u : Tid) : (s.setDie d x).thread u = s.thread u := rfl
@[simp] theorem State.me_setDie (s : State) (d : Nat) (x : Die)  : (s.setDie d x).me = s.me := rfl
@[simp] theorem State.core_setDie (s : State) (d : Nat) (x : Die) (i : Nat) : (s.setDie d x).core i = s.core i := rfl
@[simp] theorem State.cluster_setDie (s : State) (d : Nat) (x : Die) (j : Nat) : (s.setDie d x).cluster j = s.cluster j := rfl
@[simp] theorem State.launch?_setDie (s : State) (d : Nat) (x : Die) (m : Nat) : (s.setDie d x).launch? m = s.launch? m := rfl
@[simp] theorem State.thread_upDie (s : State) (d : Nat) (f : Die → Die) (u : Tid) : (s.upDie d f).thread u = s.thread u := rfl
@[simp] theorem State.me_upDie (s : State) (d : Nat) (f : Die → Die)  : (s.upDie d f).me = s.me := rfl
@[simp] theorem State.core_upDie (s : State) (d : Nat) (f : Die → Die) (i : Nat) : (s.upDie d f).core i = s.core i := rfl
@[simp] theorem State.cluster_upDie (s : State) (d : Nat) (f : Die → Die) (j : Nat) : (s.upDie d f).cluster j = s.cluster j := rfl
@[simp] theorem State.launch?_upDie (s : State) (d : Nat) (f : Die → Die) (m : Nat) : (s.upDie d f).launch? m = s.launch? m := rfl
@[simp] theorem State.thread_setLaunch (s : State) (lid : Nat) (l : Launch) (u : Tid) : (s.setLaunch lid l).thread u = s.thread u := rfl
@[simp] theorem State.me_setLaunch (s : State) (lid : Nat) (l : Launch)  : (s.setLaunch lid l).me = s.me := rfl
@[simp] theorem State.core_setLaunch (s : State) (lid : Nat) (l : Launch) (i : Nat) : (s.setLaunch lid l).core i = s.core i := rfl
@[simp] theorem State.cluster_setLaunch (s : State) (lid : Nat) (l : Launch) (j : Nat) : (s.setLaunch lid l).cluster j = s.cluster j := rfl
@[simp] theorem State.die_setLaunch (s : State) (lid : Nat) (l : Launch) (e : Nat) : (s.setLaunch lid l).die e = s.die e := rfl
@[simp] theorem State.thread_upPkg (s : State) (f : Package → Package) (u : Tid) : (s.upPkg f).thread u = s.thread u := rfl
@[simp] theorem State.me_upPkg (s : State) (f : Package → Package)  : (s.upPkg f).me = s.me := rfl
@[simp] theorem State.core_upPkg (s : State) (f : Package → Package) (i : Nat) : (s.upPkg f).core i = s.core i := rfl
@[simp] theorem State.cluster_upPkg (s : State) (f : Package → Package) (j : Nat) : (s.upPkg f).cluster j = s.cluster j := rfl
@[simp] theorem State.die_upPkg (s : State) (f : Package → Package) (e : Nat) : (s.upPkg f).die e = s.die e := rfl
@[simp] theorem State.thread_urge (s : State) (evs : List Instr) (u : Tid) : (s.urge evs).thread u = s.thread u := rfl
@[simp] theorem State.me_urge (s : State) (evs : List Instr)  : (s.urge evs).me = s.me := rfl
@[simp] theorem State.core_urge (s : State) (evs : List Instr) (i : Nat) : (s.urge evs).core i = s.core i := rfl
@[simp] theorem State.cluster_urge (s : State) (evs : List Instr) (j : Nat) : (s.urge evs).cluster j = s.cluster j := rfl
@[simp] theorem State.die_urge (s : State) (evs : List Instr) (e : Nat) : (s.urge evs).die e = s.die e := rfl
@[simp] theorem State.launch?_urge (s : State) (evs : List Instr) (m : Nat) : (s.urge evs).launch? m = s.launch? m := rfl
@[simp] theorem State.thread_post (s : State) (evs : List Instr) (u : Tid) : (s.post evs).thread u = s.thread u := rfl
@[simp] theorem State.me_post (s : State) (evs : List Instr)  : (s.post evs).me = s.me := rfl
@[simp] theorem State.core_post (s : State) (evs : List Instr) (i : Nat) : (s.post evs).core i = s.core i := rfl
@[simp] theorem State.cluster_post (s : State) (evs : List Instr) (j : Nat) : (s.post evs).cluster j = s.cluster j := rfl
@[simp] theorem State.die_post (s : State) (evs : List Instr) (e : Nat) : (s.post evs).die e = s.die e := rfl
@[simp] theorem State.launch?_post (s : State) (evs : List Instr) (m : Nat) : (s.post evs).launch? m = s.launch? m := rfl
@[simp] theorem State.thread_upLaunch (s : State) (lid : Nat) (f : Launch → Launch) (u : Tid) : (s.upLaunch lid f).thread u = s.thread u := by
  unfold State.upLaunch; split <;> rfl
@[simp] theorem State.me_upLaunch (s : State) (lid : Nat) (f : Launch → Launch)  : (s.upLaunch lid f).me = s.me := by
  unfold State.upLaunch; split <;> rfl
@[simp] theorem State.core_upLaunch (s : State) (lid : Nat) (f : Launch → Launch) (i : Nat) : (s.upLaunch lid f).core i = s.core i := by
  unfold State.upLaunch; split <;> rfl
@[simp] theorem State.cluster_upLaunch (s : State) (lid : Nat) (f : Launch → Launch) (j : Nat) : (s.upLaunch lid f).cluster j = s.cluster j := by
  unfold State.upLaunch; split <;> rfl
@[simp] theorem State.die_upLaunch (s : State) (lid : Nat) (f : Launch → Launch) (e : Nat) : (s.upLaunch lid f).die e = s.die e := by
  unfold State.upLaunch; split <;> rfl

/-! Registers. -/

@[simp] theorem Thread.ws_pc (t : Thread) (r : SReg) (v : Word) : (t.ws r v).pc = t.pc := by
  unfold Thread.ws; split <;> rfl
@[simp] theorem Thread.ws_p (t : Thread) (r : SReg) (v : Word) : (t.ws r v).p = t.p := by
  unfold Thread.ws; split <;> rfl
@[simp] theorem Thread.ws_m (t : Thread) (r : SReg) (v : Word) : (t.ws r v).m = t.m := by
  unfold Thread.ws; split <;> rfl
@[simp] theorem Thread.ws_slots (t : Thread) (r : SReg) (v : Word) : (t.ws r v).slots = t.slots := by
  unfold Thread.ws; split <;> rfl
@[simp] theorem Thread.ws_ldq (t : Thread) (r : SReg) (v : Word) : (t.ws r v).ldq = t.ldq := by
  unfold Thread.ws; split <;> rfl
@[simp] theorem Thread.ws_sdq (t : Thread) (r : SReg) (v : Word) : (t.ws r v).sdq = t.sdq := by
  unfold Thread.ws; split <;> rfl
@[simp] theorem Thread.ws_h (t : Thread) (r : SReg) (v : Word) : (t.ws r v).h = t.h := by
  unfold Thread.ws; split <;> rfl
@[simp] theorem Thread.ws_c (t : Thread) (r : SReg) (v : Word) : (t.ws r v).c = t.c := by
  unfold Thread.ws; split <;> rfl
@[simp] theorem Thread.ws_fpm (t : Thread) (r : SReg) (v : Word) : (t.ws r v).fpm = t.fpm := by
  unfold Thread.ws; split <;> rfl
@[simp] theorem Thread.ws_fpf (t : Thread) (r : SReg) (v : Word) : (t.ws r v).fpf = t.fpf := by
  unfold Thread.ws; split <;> rfl
@[simp] theorem Thread.ws_clvcnt (t : Thread) (r : SReg) (v : Word) : (t.ws r v).clvcnt = t.clvcnt := by
  unfold Thread.ws; split <;> rfl
@[simp] theorem Thread.ws_rkcfg (t : Thread) (r : SReg) (v : Word) : (t.ws r v).rkcfg = t.rkcfg := by
  unfold Thread.ws; split <;> rfl
@[simp] theorem Thread.ws_mxerr (t : Thread) (r : SReg) (v : Word) : (t.ws r v).mxerr = t.mxerr := by
  unfold Thread.ws; split <;> rfl
@[simp] theorem Thread.ws_rkerr (t : Thread) (r : SReg) (v : Word) : (t.ws r v).rkerr = t.rkerr := by
  unfold Thread.ws; split <;> rfl
@[simp] theorem Thread.ws_bterr (t : Thread) (r : SReg) (v : Word) : (t.ws r v).bterr = t.bterr := by
  unfold Thread.ws; split <;> rfl
@[simp] theorem Thread.ws_colerr (t : Thread) (r : SReg) (v : Word) : (t.ws r v).colerr = t.colerr := by
  unfold Thread.ws; split <;> rfl
@[simp] theorem Thread.ws_joberr (t : Thread) (r : SReg) (v : Word) : (t.ws r v).joberr = t.joberr := by
  unfold Thread.ws; split <;> rfl
@[simp] theorem Thread.ws_wake (t : Thread) (r : SReg) (v : Word) : (t.ws r v).wake = t.wake := by
  unfold Thread.ws; split <;> rfl
@[simp] theorem Thread.ws_barCount (t : Thread) (r : SReg) (v : Word) : (t.ws r v).barCount = t.barCount := by
  unfold Thread.ws; split <;> rfl
@[simp] theorem Thread.ws_barOut (t : Thread) (r : SReg) (v : Word) : (t.ws r v).barOut = t.barOut := by
  unfold Thread.ws; split <;> rfl
@[simp] theorem Thread.ws_barStand (t : Thread) (r : SReg) (v : Word) : (t.ws r v).barStand = t.barStand := by
  unfold Thread.ws; split <;> rfl
@[simp] theorem Thread.ws_evm (t : Thread) (r : SReg) (v : Word) : (t.ws r v).evm = t.evm := by
  unfold Thread.ws; split <;> rfl
@[simp] theorem Thread.ws_d2buf (t : Thread) (r : SReg) (v : Word) : (t.ws r v).d2buf = t.d2buf := by
  unfold Thread.ws; split <;> rfl
@[simp] theorem Thread.ws_quanta (t : Thread) (r : SReg) (v : Word) : (t.ws r v).quanta = t.quanta := by
  unfold Thread.ws; split <;> rfl
@[simp] theorem Thread.ws_qretired (t : Thread) (r : SReg) (v : Word) : (t.ws r v).qretired = t.qretired := by
  unfold Thread.ws; split <;> rfl
@[simp] theorem Thread.ws_qended (t : Thread) (r : SReg) (v : Word) : (t.ws r v).qended = t.qended := by
  unfold Thread.ws; split <;> rfl
@[simp] theorem Thread.ws_region (t : Thread) (r : SReg) (v : Word) : (t.ws r v).region = t.region := by
  unfold Thread.ws; split <;> rfl
@[simp] theorem Thread.ws_txn (t : Thread) (r : SReg) (v : Word) : (t.ws r v).txn = t.txn := by
  unfold Thread.ws; split <;> rfl
@[simp] theorem Thread.ws_bind (t : Thread) (r : SReg) (v : Word) : (t.ws r v).bind = t.bind := by
  unfold Thread.ws; split <;> rfl
@[simp] theorem Thread.ws_tarst (t : Thread) (r : SReg) (v : Word) : (t.ws r v).tarst = t.tarst := by
  unfold Thread.ws; split <;> rfl
@[simp] theorem Thread.ws_rebuild (t : Thread) (r : SReg) (v : Word) : (t.ws r v).rebuild = t.rebuild := by
  unfold Thread.ws; split <;> rfl
@[simp] theorem Thread.ws_preempt (t : Thread) (r : SReg) (v : Word) : (t.ws r v).preempt = t.preempt := by
  unfold Thread.ws; split <;> rfl
@[simp] theorem Thread.ws_held (t : Thread) (r : SReg) (v : Word) : (t.ws r v).held = t.held := by
  unfold Thread.ws; split <;> rfl
@[simp] theorem Thread.ws_status (t : Thread) (r : SReg) (v : Word) : (t.ws r v).status = t.status := by
  unfold Thread.ws; split <;> rfl
@[simp] theorem Thread.wp_pc (t : Thread) (r : PReg) (v : Bool) : (t.wp r v).pc = t.pc := by
  unfold Thread.wp; split <;> rfl
@[simp] theorem Thread.wp_s (t : Thread) (r : PReg) (v : Bool) : (t.wp r v).s = t.s := by
  unfold Thread.wp; split <;> rfl
@[simp] theorem Thread.wp_m (t : Thread) (r : PReg) (v : Bool) : (t.wp r v).m = t.m := by
  unfold Thread.wp; split <;> rfl
@[simp] theorem Thread.wp_slots (t : Thread) (r : PReg) (v : Bool) : (t.wp r v).slots = t.slots := by
  unfold Thread.wp; split <;> rfl
@[simp] theorem Thread.wp_ldq (t : Thread) (r : PReg) (v : Bool) : (t.wp r v).ldq = t.ldq := by
  unfold Thread.wp; split <;> rfl
@[simp] theorem Thread.wp_sdq (t : Thread) (r : PReg) (v : Bool) : (t.wp r v).sdq = t.sdq := by
  unfold Thread.wp; split <;> rfl
@[simp] theorem Thread.wp_h (t : Thread) (r : PReg) (v : Bool) : (t.wp r v).h = t.h := by
  unfold Thread.wp; split <;> rfl
@[simp] theorem Thread.wp_c (t : Thread) (r : PReg) (v : Bool) : (t.wp r v).c = t.c := by
  unfold Thread.wp; split <;> rfl
@[simp] theorem Thread.wp_fpm (t : Thread) (r : PReg) (v : Bool) : (t.wp r v).fpm = t.fpm := by
  unfold Thread.wp; split <;> rfl
@[simp] theorem Thread.wp_fpf (t : Thread) (r : PReg) (v : Bool) : (t.wp r v).fpf = t.fpf := by
  unfold Thread.wp; split <;> rfl
@[simp] theorem Thread.wp_clvcnt (t : Thread) (r : PReg) (v : Bool) : (t.wp r v).clvcnt = t.clvcnt := by
  unfold Thread.wp; split <;> rfl
@[simp] theorem Thread.wp_rkcfg (t : Thread) (r : PReg) (v : Bool) : (t.wp r v).rkcfg = t.rkcfg := by
  unfold Thread.wp; split <;> rfl
@[simp] theorem Thread.wp_mxerr (t : Thread) (r : PReg) (v : Bool) : (t.wp r v).mxerr = t.mxerr := by
  unfold Thread.wp; split <;> rfl
@[simp] theorem Thread.wp_rkerr (t : Thread) (r : PReg) (v : Bool) : (t.wp r v).rkerr = t.rkerr := by
  unfold Thread.wp; split <;> rfl
@[simp] theorem Thread.wp_bterr (t : Thread) (r : PReg) (v : Bool) : (t.wp r v).bterr = t.bterr := by
  unfold Thread.wp; split <;> rfl
@[simp] theorem Thread.wp_colerr (t : Thread) (r : PReg) (v : Bool) : (t.wp r v).colerr = t.colerr := by
  unfold Thread.wp; split <;> rfl
@[simp] theorem Thread.wp_joberr (t : Thread) (r : PReg) (v : Bool) : (t.wp r v).joberr = t.joberr := by
  unfold Thread.wp; split <;> rfl
@[simp] theorem Thread.wp_wake (t : Thread) (r : PReg) (v : Bool) : (t.wp r v).wake = t.wake := by
  unfold Thread.wp; split <;> rfl
@[simp] theorem Thread.wp_barCount (t : Thread) (r : PReg) (v : Bool) : (t.wp r v).barCount = t.barCount := by
  unfold Thread.wp; split <;> rfl
@[simp] theorem Thread.wp_barOut (t : Thread) (r : PReg) (v : Bool) : (t.wp r v).barOut = t.barOut := by
  unfold Thread.wp; split <;> rfl
@[simp] theorem Thread.wp_barStand (t : Thread) (r : PReg) (v : Bool) : (t.wp r v).barStand = t.barStand := by
  unfold Thread.wp; split <;> rfl
@[simp] theorem Thread.wp_evm (t : Thread) (r : PReg) (v : Bool) : (t.wp r v).evm = t.evm := by
  unfold Thread.wp; split <;> rfl
@[simp] theorem Thread.wp_d2buf (t : Thread) (r : PReg) (v : Bool) : (t.wp r v).d2buf = t.d2buf := by
  unfold Thread.wp; split <;> rfl
@[simp] theorem Thread.wp_quanta (t : Thread) (r : PReg) (v : Bool) : (t.wp r v).quanta = t.quanta := by
  unfold Thread.wp; split <;> rfl
@[simp] theorem Thread.wp_qretired (t : Thread) (r : PReg) (v : Bool) : (t.wp r v).qretired = t.qretired := by
  unfold Thread.wp; split <;> rfl
@[simp] theorem Thread.wp_qended (t : Thread) (r : PReg) (v : Bool) : (t.wp r v).qended = t.qended := by
  unfold Thread.wp; split <;> rfl
@[simp] theorem Thread.wp_region (t : Thread) (r : PReg) (v : Bool) : (t.wp r v).region = t.region := by
  unfold Thread.wp; split <;> rfl
@[simp] theorem Thread.wp_txn (t : Thread) (r : PReg) (v : Bool) : (t.wp r v).txn = t.txn := by
  unfold Thread.wp; split <;> rfl
@[simp] theorem Thread.wp_bind (t : Thread) (r : PReg) (v : Bool) : (t.wp r v).bind = t.bind := by
  unfold Thread.wp; split <;> rfl
@[simp] theorem Thread.wp_tarst (t : Thread) (r : PReg) (v : Bool) : (t.wp r v).tarst = t.tarst := by
  unfold Thread.wp; split <;> rfl
@[simp] theorem Thread.wp_rebuild (t : Thread) (r : PReg) (v : Bool) : (t.wp r v).rebuild = t.rebuild := by
  unfold Thread.wp; split <;> rfl
@[simp] theorem Thread.wp_preempt (t : Thread) (r : PReg) (v : Bool) : (t.wp r v).preempt = t.preempt := by
  unfold Thread.wp; split <;> rfl
@[simp] theorem Thread.wp_held (t : Thread) (r : PReg) (v : Bool) : (t.wp r v).held = t.held := by
  unfold Thread.wp; split <;> rfl
@[simp] theorem Thread.wp_status (t : Thread) (r : PReg) (v : Bool) : (t.wp r v).status = t.status := by
  unfold Thread.wp; split <;> rfl
@[simp] theorem Thread.wm_pc (t : Thread) (r : MReg) (v : Mask) : (t.wm r v).pc = t.pc := by
  unfold Thread.wm; split <;> rfl
@[simp] theorem Thread.wm_s (t : Thread) (r : MReg) (v : Mask) : (t.wm r v).s = t.s := by
  unfold Thread.wm; split <;> rfl
@[simp] theorem Thread.wm_p (t : Thread) (r : MReg) (v : Mask) : (t.wm r v).p = t.p := by
  unfold Thread.wm; split <;> rfl
@[simp] theorem Thread.wm_slots (t : Thread) (r : MReg) (v : Mask) : (t.wm r v).slots = t.slots := by
  unfold Thread.wm; split <;> rfl
@[simp] theorem Thread.wm_ldq (t : Thread) (r : MReg) (v : Mask) : (t.wm r v).ldq = t.ldq := by
  unfold Thread.wm; split <;> rfl
@[simp] theorem Thread.wm_sdq (t : Thread) (r : MReg) (v : Mask) : (t.wm r v).sdq = t.sdq := by
  unfold Thread.wm; split <;> rfl
@[simp] theorem Thread.wm_h (t : Thread) (r : MReg) (v : Mask) : (t.wm r v).h = t.h := by
  unfold Thread.wm; split <;> rfl
@[simp] theorem Thread.wm_c (t : Thread) (r : MReg) (v : Mask) : (t.wm r v).c = t.c := by
  unfold Thread.wm; split <;> rfl
@[simp] theorem Thread.wm_fpm (t : Thread) (r : MReg) (v : Mask) : (t.wm r v).fpm = t.fpm := by
  unfold Thread.wm; split <;> rfl
@[simp] theorem Thread.wm_fpf (t : Thread) (r : MReg) (v : Mask) : (t.wm r v).fpf = t.fpf := by
  unfold Thread.wm; split <;> rfl
@[simp] theorem Thread.wm_clvcnt (t : Thread) (r : MReg) (v : Mask) : (t.wm r v).clvcnt = t.clvcnt := by
  unfold Thread.wm; split <;> rfl
@[simp] theorem Thread.wm_rkcfg (t : Thread) (r : MReg) (v : Mask) : (t.wm r v).rkcfg = t.rkcfg := by
  unfold Thread.wm; split <;> rfl
@[simp] theorem Thread.wm_mxerr (t : Thread) (r : MReg) (v : Mask) : (t.wm r v).mxerr = t.mxerr := by
  unfold Thread.wm; split <;> rfl
@[simp] theorem Thread.wm_rkerr (t : Thread) (r : MReg) (v : Mask) : (t.wm r v).rkerr = t.rkerr := by
  unfold Thread.wm; split <;> rfl
@[simp] theorem Thread.wm_bterr (t : Thread) (r : MReg) (v : Mask) : (t.wm r v).bterr = t.bterr := by
  unfold Thread.wm; split <;> rfl
@[simp] theorem Thread.wm_colerr (t : Thread) (r : MReg) (v : Mask) : (t.wm r v).colerr = t.colerr := by
  unfold Thread.wm; split <;> rfl
@[simp] theorem Thread.wm_joberr (t : Thread) (r : MReg) (v : Mask) : (t.wm r v).joberr = t.joberr := by
  unfold Thread.wm; split <;> rfl
@[simp] theorem Thread.wm_wake (t : Thread) (r : MReg) (v : Mask) : (t.wm r v).wake = t.wake := by
  unfold Thread.wm; split <;> rfl
@[simp] theorem Thread.wm_barCount (t : Thread) (r : MReg) (v : Mask) : (t.wm r v).barCount = t.barCount := by
  unfold Thread.wm; split <;> rfl
@[simp] theorem Thread.wm_barOut (t : Thread) (r : MReg) (v : Mask) : (t.wm r v).barOut = t.barOut := by
  unfold Thread.wm; split <;> rfl
@[simp] theorem Thread.wm_barStand (t : Thread) (r : MReg) (v : Mask) : (t.wm r v).barStand = t.barStand := by
  unfold Thread.wm; split <;> rfl
@[simp] theorem Thread.wm_evm (t : Thread) (r : MReg) (v : Mask) : (t.wm r v).evm = t.evm := by
  unfold Thread.wm; split <;> rfl
@[simp] theorem Thread.wm_d2buf (t : Thread) (r : MReg) (v : Mask) : (t.wm r v).d2buf = t.d2buf := by
  unfold Thread.wm; split <;> rfl
@[simp] theorem Thread.wm_quanta (t : Thread) (r : MReg) (v : Mask) : (t.wm r v).quanta = t.quanta := by
  unfold Thread.wm; split <;> rfl
@[simp] theorem Thread.wm_qretired (t : Thread) (r : MReg) (v : Mask) : (t.wm r v).qretired = t.qretired := by
  unfold Thread.wm; split <;> rfl
@[simp] theorem Thread.wm_qended (t : Thread) (r : MReg) (v : Mask) : (t.wm r v).qended = t.qended := by
  unfold Thread.wm; split <;> rfl
@[simp] theorem Thread.wm_region (t : Thread) (r : MReg) (v : Mask) : (t.wm r v).region = t.region := by
  unfold Thread.wm; split <;> rfl
@[simp] theorem Thread.wm_txn (t : Thread) (r : MReg) (v : Mask) : (t.wm r v).txn = t.txn := by
  unfold Thread.wm; split <;> rfl
@[simp] theorem Thread.wm_bind (t : Thread) (r : MReg) (v : Mask) : (t.wm r v).bind = t.bind := by
  unfold Thread.wm; split <;> rfl
@[simp] theorem Thread.wm_tarst (t : Thread) (r : MReg) (v : Mask) : (t.wm r v).tarst = t.tarst := by
  unfold Thread.wm; split <;> rfl
@[simp] theorem Thread.wm_rebuild (t : Thread) (r : MReg) (v : Mask) : (t.wm r v).rebuild = t.rebuild := by
  unfold Thread.wm; split <;> rfl
@[simp] theorem Thread.wm_preempt (t : Thread) (r : MReg) (v : Mask) : (t.wm r v).preempt = t.preempt := by
  unfold Thread.wm; split <;> rfl
@[simp] theorem Thread.wm_held (t : Thread) (r : MReg) (v : Mask) : (t.wm r v).held = t.held := by
  unfold Thread.wm; split <;> rfl
@[simp] theorem Thread.wm_status (t : Thread) (r : MReg) (v : Mask) : (t.wm r v).status = t.status := by
  unfold Thread.wm; split <;> rfl
@[simp] theorem Thread.wh_pc (t : Thread) (r : HReg) (v : TensorHandle) : (t.wh r v).pc = t.pc := rfl
@[simp] theorem Thread.wh_s (t : Thread) (r : HReg) (v : TensorHandle) : (t.wh r v).s = t.s := rfl
@[simp] theorem Thread.wh_p (t : Thread) (r : HReg) (v : TensorHandle) : (t.wh r v).p = t.p := rfl
@[simp] theorem Thread.wh_m (t : Thread) (r : HReg) (v : TensorHandle) : (t.wh r v).m = t.m := rfl
@[simp] theorem Thread.wh_slots (t : Thread) (r : HReg) (v : TensorHandle) : (t.wh r v).slots = t.slots := rfl
@[simp] theorem Thread.wh_ldq (t : Thread) (r : HReg) (v : TensorHandle) : (t.wh r v).ldq = t.ldq := rfl
@[simp] theorem Thread.wh_sdq (t : Thread) (r : HReg) (v : TensorHandle) : (t.wh r v).sdq = t.sdq := rfl
@[simp] theorem Thread.wh_c (t : Thread) (r : HReg) (v : TensorHandle) : (t.wh r v).c = t.c := rfl
@[simp] theorem Thread.wh_fpm (t : Thread) (r : HReg) (v : TensorHandle) : (t.wh r v).fpm = t.fpm := rfl
@[simp] theorem Thread.wh_fpf (t : Thread) (r : HReg) (v : TensorHandle) : (t.wh r v).fpf = t.fpf := rfl
@[simp] theorem Thread.wh_clvcnt (t : Thread) (r : HReg) (v : TensorHandle) : (t.wh r v).clvcnt = t.clvcnt := rfl
@[simp] theorem Thread.wh_rkcfg (t : Thread) (r : HReg) (v : TensorHandle) : (t.wh r v).rkcfg = t.rkcfg := rfl
@[simp] theorem Thread.wh_mxerr (t : Thread) (r : HReg) (v : TensorHandle) : (t.wh r v).mxerr = t.mxerr := rfl
@[simp] theorem Thread.wh_rkerr (t : Thread) (r : HReg) (v : TensorHandle) : (t.wh r v).rkerr = t.rkerr := rfl
@[simp] theorem Thread.wh_bterr (t : Thread) (r : HReg) (v : TensorHandle) : (t.wh r v).bterr = t.bterr := rfl
@[simp] theorem Thread.wh_colerr (t : Thread) (r : HReg) (v : TensorHandle) : (t.wh r v).colerr = t.colerr := rfl
@[simp] theorem Thread.wh_joberr (t : Thread) (r : HReg) (v : TensorHandle) : (t.wh r v).joberr = t.joberr := rfl
@[simp] theorem Thread.wh_wake (t : Thread) (r : HReg) (v : TensorHandle) : (t.wh r v).wake = t.wake := rfl
@[simp] theorem Thread.wh_barCount (t : Thread) (r : HReg) (v : TensorHandle) : (t.wh r v).barCount = t.barCount := rfl
@[simp] theorem Thread.wh_barOut (t : Thread) (r : HReg) (v : TensorHandle) : (t.wh r v).barOut = t.barOut := rfl
@[simp] theorem Thread.wh_barStand (t : Thread) (r : HReg) (v : TensorHandle) : (t.wh r v).barStand = t.barStand := rfl
@[simp] theorem Thread.wh_evm (t : Thread) (r : HReg) (v : TensorHandle) : (t.wh r v).evm = t.evm := rfl
@[simp] theorem Thread.wh_d2buf (t : Thread) (r : HReg) (v : TensorHandle) : (t.wh r v).d2buf = t.d2buf := rfl
@[simp] theorem Thread.wh_quanta (t : Thread) (r : HReg) (v : TensorHandle) : (t.wh r v).quanta = t.quanta := rfl
@[simp] theorem Thread.wh_qretired (t : Thread) (r : HReg) (v : TensorHandle) : (t.wh r v).qretired = t.qretired := rfl
@[simp] theorem Thread.wh_qended (t : Thread) (r : HReg) (v : TensorHandle) : (t.wh r v).qended = t.qended := rfl
@[simp] theorem Thread.wh_region (t : Thread) (r : HReg) (v : TensorHandle) : (t.wh r v).region = t.region := rfl
@[simp] theorem Thread.wh_txn (t : Thread) (r : HReg) (v : TensorHandle) : (t.wh r v).txn = t.txn := rfl
@[simp] theorem Thread.wh_bind (t : Thread) (r : HReg) (v : TensorHandle) : (t.wh r v).bind = t.bind := rfl
@[simp] theorem Thread.wh_tarst (t : Thread) (r : HReg) (v : TensorHandle) : (t.wh r v).tarst = t.tarst := rfl
@[simp] theorem Thread.wh_rebuild (t : Thread) (r : HReg) (v : TensorHandle) : (t.wh r v).rebuild = t.rebuild := rfl
@[simp] theorem Thread.wh_preempt (t : Thread) (r : HReg) (v : TensorHandle) : (t.wh r v).preempt = t.preempt := rfl
@[simp] theorem Thread.wh_held (t : Thread) (r : HReg) (v : TensorHandle) : (t.wh r v).held = t.held := rfl
@[simp] theorem Thread.wh_status (t : Thread) (r : HReg) (v : TensorHandle) : (t.wh r v).status = t.status := rfl
@[simp] theorem Thread.wc_pc (t : Thread) (r : CReg) (v : CbHandle) : (t.wc r v).pc = t.pc := rfl
@[simp] theorem Thread.wc_s (t : Thread) (r : CReg) (v : CbHandle) : (t.wc r v).s = t.s := rfl
@[simp] theorem Thread.wc_p (t : Thread) (r : CReg) (v : CbHandle) : (t.wc r v).p = t.p := rfl
@[simp] theorem Thread.wc_m (t : Thread) (r : CReg) (v : CbHandle) : (t.wc r v).m = t.m := rfl
@[simp] theorem Thread.wc_slots (t : Thread) (r : CReg) (v : CbHandle) : (t.wc r v).slots = t.slots := rfl
@[simp] theorem Thread.wc_ldq (t : Thread) (r : CReg) (v : CbHandle) : (t.wc r v).ldq = t.ldq := rfl
@[simp] theorem Thread.wc_sdq (t : Thread) (r : CReg) (v : CbHandle) : (t.wc r v).sdq = t.sdq := rfl
@[simp] theorem Thread.wc_h (t : Thread) (r : CReg) (v : CbHandle) : (t.wc r v).h = t.h := rfl
@[simp] theorem Thread.wc_fpm (t : Thread) (r : CReg) (v : CbHandle) : (t.wc r v).fpm = t.fpm := rfl
@[simp] theorem Thread.wc_fpf (t : Thread) (r : CReg) (v : CbHandle) : (t.wc r v).fpf = t.fpf := rfl
@[simp] theorem Thread.wc_clvcnt (t : Thread) (r : CReg) (v : CbHandle) : (t.wc r v).clvcnt = t.clvcnt := rfl
@[simp] theorem Thread.wc_rkcfg (t : Thread) (r : CReg) (v : CbHandle) : (t.wc r v).rkcfg = t.rkcfg := rfl
@[simp] theorem Thread.wc_mxerr (t : Thread) (r : CReg) (v : CbHandle) : (t.wc r v).mxerr = t.mxerr := rfl
@[simp] theorem Thread.wc_rkerr (t : Thread) (r : CReg) (v : CbHandle) : (t.wc r v).rkerr = t.rkerr := rfl
@[simp] theorem Thread.wc_bterr (t : Thread) (r : CReg) (v : CbHandle) : (t.wc r v).bterr = t.bterr := rfl
@[simp] theorem Thread.wc_colerr (t : Thread) (r : CReg) (v : CbHandle) : (t.wc r v).colerr = t.colerr := rfl
@[simp] theorem Thread.wc_joberr (t : Thread) (r : CReg) (v : CbHandle) : (t.wc r v).joberr = t.joberr := rfl
@[simp] theorem Thread.wc_wake (t : Thread) (r : CReg) (v : CbHandle) : (t.wc r v).wake = t.wake := rfl
@[simp] theorem Thread.wc_barCount (t : Thread) (r : CReg) (v : CbHandle) : (t.wc r v).barCount = t.barCount := rfl
@[simp] theorem Thread.wc_barOut (t : Thread) (r : CReg) (v : CbHandle) : (t.wc r v).barOut = t.barOut := rfl
@[simp] theorem Thread.wc_barStand (t : Thread) (r : CReg) (v : CbHandle) : (t.wc r v).barStand = t.barStand := rfl
@[simp] theorem Thread.wc_evm (t : Thread) (r : CReg) (v : CbHandle) : (t.wc r v).evm = t.evm := rfl
@[simp] theorem Thread.wc_d2buf (t : Thread) (r : CReg) (v : CbHandle) : (t.wc r v).d2buf = t.d2buf := rfl
@[simp] theorem Thread.wc_quanta (t : Thread) (r : CReg) (v : CbHandle) : (t.wc r v).quanta = t.quanta := rfl
@[simp] theorem Thread.wc_qretired (t : Thread) (r : CReg) (v : CbHandle) : (t.wc r v).qretired = t.qretired := rfl
@[simp] theorem Thread.wc_qended (t : Thread) (r : CReg) (v : CbHandle) : (t.wc r v).qended = t.qended := rfl
@[simp] theorem Thread.wc_region (t : Thread) (r : CReg) (v : CbHandle) : (t.wc r v).region = t.region := rfl
@[simp] theorem Thread.wc_txn (t : Thread) (r : CReg) (v : CbHandle) : (t.wc r v).txn = t.txn := rfl
@[simp] theorem Thread.wc_bind (t : Thread) (r : CReg) (v : CbHandle) : (t.wc r v).bind = t.bind := rfl
@[simp] theorem Thread.wc_tarst (t : Thread) (r : CReg) (v : CbHandle) : (t.wc r v).tarst = t.tarst := rfl
@[simp] theorem Thread.wc_rebuild (t : Thread) (r : CReg) (v : CbHandle) : (t.wc r v).rebuild = t.rebuild := rfl
@[simp] theorem Thread.wc_preempt (t : Thread) (r : CReg) (v : CbHandle) : (t.wc r v).preempt = t.preempt := rfl
@[simp] theorem Thread.wc_held (t : Thread) (r : CReg) (v : CbHandle) : (t.wc r v).held = t.held := rfl
@[simp] theorem Thread.wc_status (t : Thread) (r : CReg) (v : CbHandle) : (t.wc r v).status = t.status := rfl
@[simp] theorem Thread.orFlags_pc (t : Thread) (f : BitVec 5) : (t.orFlags f).pc = t.pc := rfl
@[simp] theorem Thread.orFlags_s (t : Thread) (f : BitVec 5) : (t.orFlags f).s = t.s := rfl
@[simp] theorem Thread.orFlags_p (t : Thread) (f : BitVec 5) : (t.orFlags f).p = t.p := rfl
@[simp] theorem Thread.orFlags_m (t : Thread) (f : BitVec 5) : (t.orFlags f).m = t.m := rfl
@[simp] theorem Thread.orFlags_slots (t : Thread) (f : BitVec 5) : (t.orFlags f).slots = t.slots := rfl
@[simp] theorem Thread.orFlags_ldq (t : Thread) (f : BitVec 5) : (t.orFlags f).ldq = t.ldq := rfl
@[simp] theorem Thread.orFlags_sdq (t : Thread) (f : BitVec 5) : (t.orFlags f).sdq = t.sdq := rfl
@[simp] theorem Thread.orFlags_h (t : Thread) (f : BitVec 5) : (t.orFlags f).h = t.h := rfl
@[simp] theorem Thread.orFlags_c (t : Thread) (f : BitVec 5) : (t.orFlags f).c = t.c := rfl
@[simp] theorem Thread.orFlags_fpm (t : Thread) (f : BitVec 5) : (t.orFlags f).fpm = t.fpm := rfl
@[simp] theorem Thread.orFlags_clvcnt (t : Thread) (f : BitVec 5) : (t.orFlags f).clvcnt = t.clvcnt := rfl
@[simp] theorem Thread.orFlags_rkcfg (t : Thread) (f : BitVec 5) : (t.orFlags f).rkcfg = t.rkcfg := rfl
@[simp] theorem Thread.orFlags_mxerr (t : Thread) (f : BitVec 5) : (t.orFlags f).mxerr = t.mxerr := rfl
@[simp] theorem Thread.orFlags_rkerr (t : Thread) (f : BitVec 5) : (t.orFlags f).rkerr = t.rkerr := rfl
@[simp] theorem Thread.orFlags_bterr (t : Thread) (f : BitVec 5) : (t.orFlags f).bterr = t.bterr := rfl
@[simp] theorem Thread.orFlags_colerr (t : Thread) (f : BitVec 5) : (t.orFlags f).colerr = t.colerr := rfl
@[simp] theorem Thread.orFlags_joberr (t : Thread) (f : BitVec 5) : (t.orFlags f).joberr = t.joberr := rfl
@[simp] theorem Thread.orFlags_wake (t : Thread) (f : BitVec 5) : (t.orFlags f).wake = t.wake := rfl
@[simp] theorem Thread.orFlags_barCount (t : Thread) (f : BitVec 5) : (t.orFlags f).barCount = t.barCount := rfl
@[simp] theorem Thread.orFlags_barOut (t : Thread) (f : BitVec 5) : (t.orFlags f).barOut = t.barOut := rfl
@[simp] theorem Thread.orFlags_barStand (t : Thread) (f : BitVec 5) : (t.orFlags f).barStand = t.barStand := rfl
@[simp] theorem Thread.orFlags_evm (t : Thread) (f : BitVec 5) : (t.orFlags f).evm = t.evm := rfl
@[simp] theorem Thread.orFlags_d2buf (t : Thread) (f : BitVec 5) : (t.orFlags f).d2buf = t.d2buf := rfl
@[simp] theorem Thread.orFlags_quanta (t : Thread) (f : BitVec 5) : (t.orFlags f).quanta = t.quanta := rfl
@[simp] theorem Thread.orFlags_qretired (t : Thread) (f : BitVec 5) : (t.orFlags f).qretired = t.qretired := rfl
@[simp] theorem Thread.orFlags_qended (t : Thread) (f : BitVec 5) : (t.orFlags f).qended = t.qended := rfl
@[simp] theorem Thread.orFlags_region (t : Thread) (f : BitVec 5) : (t.orFlags f).region = t.region := rfl
@[simp] theorem Thread.orFlags_txn (t : Thread) (f : BitVec 5) : (t.orFlags f).txn = t.txn := rfl
@[simp] theorem Thread.orFlags_bind (t : Thread) (f : BitVec 5) : (t.orFlags f).bind = t.bind := rfl
@[simp] theorem Thread.orFlags_tarst (t : Thread) (f : BitVec 5) : (t.orFlags f).tarst = t.tarst := rfl
@[simp] theorem Thread.orFlags_rebuild (t : Thread) (f : BitVec 5) : (t.orFlags f).rebuild = t.rebuild := rfl
@[simp] theorem Thread.orFlags_preempt (t : Thread) (f : BitVec 5) : (t.orFlags f).preempt = t.preempt := rfl
@[simp] theorem Thread.orFlags_held (t : Thread) (f : BitVec 5) : (t.orFlags f).held = t.held := rfl
@[simp] theorem Thread.orFlags_status (t : Thread) (f : BitVec 5) : (t.orFlags f).status = t.status := rfl
@[simp] theorem Thread.orFlags_fpf (t : Thread) (f : BitVec 5) : (t.orFlags f).fpf = t.fpf ||| f := rfl
@[simp] theorem Thread.retire_s (t : Thread) (pc : Word) : (t.retire pc).s = t.s := rfl
@[simp] theorem Thread.retire_p (t : Thread) (pc : Word) : (t.retire pc).p = t.p := rfl
@[simp] theorem Thread.retire_m (t : Thread) (pc : Word) : (t.retire pc).m = t.m := rfl
@[simp] theorem Thread.retire_slots (t : Thread) (pc : Word) : (t.retire pc).slots = t.slots := rfl
@[simp] theorem Thread.retire_ldq (t : Thread) (pc : Word) : (t.retire pc).ldq = t.ldq := rfl
@[simp] theorem Thread.retire_sdq (t : Thread) (pc : Word) : (t.retire pc).sdq = t.sdq := rfl
@[simp] theorem Thread.retire_h (t : Thread) (pc : Word) : (t.retire pc).h = t.h := rfl
@[simp] theorem Thread.retire_c (t : Thread) (pc : Word) : (t.retire pc).c = t.c := rfl
@[simp] theorem Thread.retire_fpm (t : Thread) (pc : Word) : (t.retire pc).fpm = t.fpm := rfl
@[simp] theorem Thread.retire_fpf (t : Thread) (pc : Word) : (t.retire pc).fpf = t.fpf := rfl
@[simp] theorem Thread.retire_rkcfg (t : Thread) (pc : Word) : (t.retire pc).rkcfg = t.rkcfg := rfl
@[simp] theorem Thread.retire_mxerr (t : Thread) (pc : Word) : (t.retire pc).mxerr = t.mxerr := rfl
@[simp] theorem Thread.retire_rkerr (t : Thread) (pc : Word) : (t.retire pc).rkerr = t.rkerr := rfl
@[simp] theorem Thread.retire_bterr (t : Thread) (pc : Word) : (t.retire pc).bterr = t.bterr := rfl
@[simp] theorem Thread.retire_colerr (t : Thread) (pc : Word) : (t.retire pc).colerr = t.colerr := rfl
@[simp] theorem Thread.retire_joberr (t : Thread) (pc : Word) : (t.retire pc).joberr = t.joberr := rfl
@[simp] theorem Thread.retire_wake (t : Thread) (pc : Word) : (t.retire pc).wake = t.wake := rfl
@[simp] theorem Thread.retire_barCount (t : Thread) (pc : Word) : (t.retire pc).barCount = t.barCount := rfl
@[simp] theorem Thread.retire_barOut (t : Thread) (pc : Word) : (t.retire pc).barOut = t.barOut := rfl
@[simp] theorem Thread.retire_barStand (t : Thread) (pc : Word) : (t.retire pc).barStand = t.barStand := rfl
@[simp] theorem Thread.retire_evm (t : Thread) (pc : Word) : (t.retire pc).evm = t.evm := rfl
@[simp] theorem Thread.retire_d2buf (t : Thread) (pc : Word) : (t.retire pc).d2buf = t.d2buf := rfl
@[simp] theorem Thread.retire_quanta (t : Thread) (pc : Word) : (t.retire pc).quanta = t.quanta := rfl
@[simp] theorem Thread.retire_region (t : Thread) (pc : Word) : (t.retire pc).region = t.region := rfl
@[simp] theorem Thread.retire_bind (t : Thread) (pc : Word) : (t.retire pc).bind = t.bind := rfl
@[simp] theorem Thread.retire_tarst (t : Thread) (pc : Word) : (t.retire pc).tarst = t.tarst := rfl
@[simp] theorem Thread.retire_rebuild (t : Thread) (pc : Word) : (t.retire pc).rebuild = t.rebuild := rfl
@[simp] theorem Thread.retire_preempt (t : Thread) (pc : Word) : (t.retire pc).preempt = t.preempt := rfl
@[simp] theorem Thread.retire_held (t : Thread) (pc : Word) : (t.retire pc).held = t.held := rfl
@[simp] theorem Thread.retire_status (t : Thread) (pc : Word) : (t.retire pc).status = t.status := rfl
@[simp] theorem Thread.retire_pc (t : Thread) (pc : Word) : (t.retire pc).pc = pc := rfl
@[simp] theorem Thread.retire_clvcnt (t : Thread) (pc : Word) : (t.retire pc).clvcnt = t.clvcnt + 1 := rfl
@[simp] theorem Thread.rs_zero (t : Thread) : t.rs 0 = 0 := rfl
@[simp] theorem Thread.rp_zero (t : Thread) : t.rp 0 = true := rfl
@[simp] theorem Thread.rm_zero (t : Thread) : t.rm 0 = BitVec.allOnes 128 := rfl
@[simp] theorem Thread.ws_zero (t : Thread) (v : Word) : t.ws 0 v = t := rfl
@[simp] theorem Thread.wp_zero (t : Thread) (v : Bool) : t.wp 0 v = t := rfl
@[simp] theorem Thread.wm_zero (t : Thread) (v : Mask) : t.wm 0 v = t := rfl
theorem Thread.rs_ws (t : Thread) {r : SReg} (v : Word) (h : r ≠ 0) : (t.ws r v).rs r = v := by
  simp [Thread.rs, Thread.ws, h]
theorem Thread.rs_ws_other (t : Thread) {r q : SReg} (v : Word) (h : q ≠ r) : (t.ws r v).rs q = t.rs q := by
  unfold Thread.rs Thread.ws
  split
  · rfl
  · split
    · rfl
    · simp [Vector.getElem_set_ne, Fin.val_ne_of_ne h.symm]
theorem Thread.rp_wp (t : Thread) {r : PReg} (v : Bool) (h : r ≠ 0) : (t.wp r v).rp r = v := by
  simp [Thread.rp, Thread.wp, h]
theorem Thread.rp_wp_other (t : Thread) {r q : PReg} (v : Bool) (h : q ≠ r) : (t.wp r v).rp q = t.rp q := by
  unfold Thread.rp Thread.wp
  split
  · rfl
  · split
    · rfl
    · simp [Vector.getElem_set_ne, Fin.val_ne_of_ne h.symm]
theorem Thread.rm_wm (t : Thread) {r : MReg} (v : Mask) (h : r ≠ 0) : (t.wm r v).rm r = v := by
  simp [Thread.rm, Thread.wm, h]
theorem Thread.rm_wm_other (t : Thread) {r q : MReg} (v : Mask) (h : q ≠ r) : (t.wm r v).rm q = t.rm q := by
  unfold Thread.rm Thread.wm
  split
  · rfl
  · split
    · rfl
    · simp [Vector.getElem_set_ne, Fin.val_ne_of_ne h.symm]
@[simp] theorem Thread.rh_wh (t : Thread) (r : HReg) (v : TensorHandle) : (t.wh r v).rh r = v := by simp [Thread.rh, Thread.wh]
@[simp] theorem Thread.rc_wc (t : Thread) (r : CReg) (v : CbHandle) : (t.wc r v).rc r = v := by simp [Thread.rc, Thread.wc]
@[simp] theorem Thread.rs_wp (t : Thread) (r : PReg) (v : Bool) (q : SReg) : (t.wp r v).rs q = t.rs q := by simp [Thread.rs]
@[simp] theorem Thread.rp_ws (t : Thread) (r : SReg) (v : Word) (q : PReg) : (t.ws r v).rp q = t.rp q := by simp [Thread.rp]
@[simp] theorem Thread.rs_retire (t : Thread) (pc : Word) (q : SReg) : (t.retire pc).rs q = t.rs q := rfl
@[simp] theorem Thread.rp_retire (t : Thread) (pc : Word) (q : PReg) : (t.retire pc).rp q = t.rp q := rfl
@[simp] theorem Thread.rm_retire (t : Thread) (pc : Word) (q : MReg) : (t.retire pc).rm q = t.rm q := rfl

end Sys2Proof.Machine
end

