-- ==== Sys2Proof/Laws/Ops.lean ====
section
/-! SUPPORT. What the shared endings of an instruction do: an instruction that takes its effect retires; one that faults freezes
its thread and nothing else moves; a guard that is false leaves only the retirement. -/

namespace Sys2Proof.Machine

/-! When a thread may retire. -/

theorem Thread.retireFault_none {t : Thread} (h : t.mayRetire) (cleave : Bool) : t.retireFault cleave = none := by
  unfold Thread.mayRetire at h
  unfold Thread.retireFault
  split
  · rename_i ht
    rw [if_pos ht] at h
    split
    · rename_i b hb
      have := h b hb
      rw [if_neg (by omega)]
    · rfl
  · rename_i ht
    rw [if_neg ht] at h
    have hd : ¬ t.bind.clvmax ≤ t.clvcnt := by omega
    simp [hd]

/-! The endings. -/

theorem settle_ok {s s' : State} {pc : Word} (h : s.me.mayRetire) (cleave : Bool) :
    settle cleave s (.ok (s', pc)) = .next (s'.retire s.cur pc) := by
  simp [settle, Thread.retireFault_none h]

@[simp] theorem settle_trap (cleave : Bool) (s : State) (f : Freeze) :
    settle cleave s (.error (.trap f)) = .next (s.freeze s.cur f) := rfl

theorem seq32_ok {s s' : State} (h : s.me.mayRetire) :
    seq32 s (.ok s') = .next (s'.retire s.cur (s.me.pc + 4)) := by
  simp [seq32, seqInstr, Except.map, settle_ok h]

theorem seq16_ok {s s' : State} (h : s.me.mayRetire) :
    seq16 s (.ok s') = .next (s'.retire s.cur (s.me.pc + 2)) := by
  simp [seq16, seqInstr, Except.map, settle_ok h]

@[simp] theorem seq32_trap (s : State) (f : Freeze) : seq32 s (.error (.trap f)) = .next (s.freeze s.cur f) := rfl
@[simp] theorem seq16_trap (s : State) (f : Freeze) : seq16 s (.error (.trap f)) = .next (s.freeze s.cur f) := rfl

theorem seq32_wait {s s' : State} {w : Wait} (h : s.me.mayRetire) :
    seq32 s (.error (.wait s' w)) = .next (s'.waitOn s.cur w) := by
  simp [seq32, seqInstr, Except.map, settle, Thread.retireFault_none h]

theorem guarded_true {s s' : State} {g : Guard} (h : s.me.mayRetire) (hg : s.me.guard g = true) :
    guarded g s (.ok s') = .next (s'.retire s.cur (s.me.pc + 4)) := by
  simp [guarded, hg, seq32_ok h]

theorem guarded_false {s : State} {g : Guard} (r : Except Stop State) (h : s.me.mayRetire) (hg : s.me.guard g = false) :
    guarded g s r = .next (s.retire s.cur (s.me.pc + 4)) := by
  simp [guarded, hg, seq32_ok h]

/-! Retiring. -/

/-- A thread that runs no D2 slice retires at once. -/
theorem State.retire_plain {s : State} {t : Tid} {pc : Word} (h : (s.thread t).d2 = false) :
    s.retire t pc = s.setThread t { (s.thread t).retire pc with status := .ready } := by
  have : ((s.thread t).retire pc).d2 = false := h
  simp [State.retire, this]

@[simp] theorem State.retire_mem (s : State) (t : Tid) (pc : Word) : (s.retire t pc).mem = s.mem := by
  unfold State.retire; simp only; split <;> rfl
@[simp] theorem State.retire_cur (s : State) (t : Tid) (pc : Word) : (s.retire t pc).cur = s.cur := by
  unfold State.retire; simp only; split <;> rfl
@[simp] theorem State.retire_pkg (s : State) (t : Tid) (pc : Word) : (s.retire t pc).pkg = s.pkg := by
  unfold State.retire; simp only; split <;> rfl
@[simp] theorem State.retire_cores (s : State) (t : Tid) (pc : Word) : (s.retire t pc).cores = s.cores := by
  unfold State.retire; simp only; split <;> rfl
@[simp] theorem State.retire_clusters (s : State) (t : Tid) (pc : Word) : (s.retire t pc).clusters = s.clusters := by
  unfold State.retire; simp only; split <;> rfl
@[simp] theorem State.retire_dies (s : State) (t : Tid) (pc : Word) : (s.retire t pc).dies = s.dies := by
  unfold State.retire; simp only; split <;> rfl
@[simp] theorem State.retire_fresh (s : State) (t : Tid) (pc : Word) : (s.retire t pc).fresh = s.fresh := by
  unfold State.retire; simp only; split <;> rfl

/-- Retiring changes the count and the pc of its thread, and its status; nothing else of it. -/
theorem State.retire_thread (s : State) (t : Tid) (pc : Word) :
    ∃ st, (s.retire t pc).thread t = { (s.thread t).retire pc with status := st } := by
  unfold State.retire
  simp only
  split
  · exact ⟨.waiting .round, by simp⟩
  · exact ⟨.ready, by simp⟩

theorem State.retire_thread_other (s : State) {t u : Tid} (pc : Word) (h : u.key ≠ t.key) :
    (s.retire t pc).thread u = s.thread u := by
  unfold State.retire
  simp only
  split <;> simp [State.thread_setThread_other _ _ h]

/-! Taking a fault. -/

@[simp] theorem State.freeze_mem (s : State) (t : Tid) (f : Freeze) : (s.freeze t f).mem = s.mem := rfl
@[simp] theorem State.freeze_cur (s : State) (t : Tid) (f : Freeze) : (s.freeze t f).cur = s.cur := rfl
@[simp] theorem State.freeze_pkg (s : State) (t : Tid) (f : Freeze) : (s.freeze t f).pkg = s.pkg := rfl
@[simp] theorem State.freeze_cores (s : State) (t : Tid) (f : Freeze) : (s.freeze t f).cores = s.cores := rfl
@[simp] theorem State.freeze_clusters (s : State) (t : Tid) (f : Freeze) : (s.freeze t f).clusters = s.clusters := rfl
@[simp] theorem State.freeze_fresh (s : State) (t : Tid) (f : Freeze) : (s.freeze t f).fresh = s.fresh := rfl
@[simp] theorem State.freeze_thread (s : State) (t : Tid) (f : Freeze) :
    (s.freeze t f).thread t = { s.thread t with status := .frozen f } := by
  simp [State.freeze]
theorem State.freeze_thread_other (s : State) {t u : Tid} (f : Freeze) (h : u.key ≠ t.key) :
    (s.freeze t f).thread u = s.thread u := by
  simp [State.freeze, State.thread_setThread_other _ _ h]
@[simp] theorem State.freeze_agenda (s : State) (t : Tid) (f : Freeze) :
    (s.freeze t f).agenda = s.agenda ++ [.faultPacketWrite t.die] := rfl

/-! Waiting. -/

@[simp] theorem State.waitOn_mem (s : State) (t : Tid) (w : Wait) : (s.waitOn t w).mem = s.mem := by
  unfold State.waitOn; simp only; split <;> rfl
@[simp] theorem State.waitOn_cur (s : State) (t : Tid) (w : Wait) : (s.waitOn t w).cur = s.cur := by
  unfold State.waitOn; simp only; split <;> rfl
@[simp] theorem State.waitOn_pkg (s : State) (t : Tid) (w : Wait) : (s.waitOn t w).pkg = s.pkg := by
  unfold State.waitOn; simp only; split <;> rfl
@[simp] theorem State.waitOn_cores (s : State) (t : Tid) (w : Wait) : (s.waitOn t w).cores = s.cores := by
  unfold State.waitOn; simp only; split <;> rfl
@[simp] theorem State.waitOn_thread (s : State) (t : Tid) (w : Wait) :
    (s.waitOn t w).thread t = { s.thread t with status := .waiting w } := by
  unfold State.waitOn; simp only; split <;> simp
@[simp] theorem State.pageWait_mem (s : State) (t : Tid) (va : Word) (k : BitVec 2) : (s.pageWait t va k).mem = s.mem := rfl
@[simp] theorem State.pageWait_cur (s : State) (t : Tid) (va : Word) (k : BitVec 2) : (s.pageWait t va k).cur = s.cur := rfl

@[simp] theorem State.endQuantum_mem (s : State) (t : Tid) : (s.endQuantum t).mem = s.mem := rfl
@[simp] theorem State.endQuantum_cur (s : State) (t : Tid) : (s.endQuantum t).cur = s.cur := rfl

/-- Outside D2 no instruction ends a quantum. -/
theorem quantumFirst_plain {s : State} (h : s.me.d2 = false) : quantumFirst s = .ok s := by simp [quantumFirst, h]

end Sys2Proof.Machine
end

