-- ==== Sys2Proof/Laws/Memory.lean ====
section
/-! SUPPORT. Byte memories: a read after a write, and that every memory operation keeps the canonical form; the operations of the
machine that write memory keep the form of every memory. -/

namespace Sys2Proof.Machine

/-! The canonical form. -/

theorem Memory.wfFrom_mono {m : Memory} {lo hi : Nat} (h : lo ≤ hi) (hm : m.wfFrom hi = true) : m.wfFrom lo = true := by
  cases m with
  | nil => rfl
  | cons e r =>
    simp only [Memory.wfFrom, Bool.and_eq_true, decide_eq_true_eq] at hm ⊢
    exact ⟨⟨by omega, hm.1.2⟩, hm.2⟩

theorem Memory.write_wfFrom {m : Memory} {lo a : Nat} (v : Byte) (ha : lo ≤ a) (hm : m.wfFrom lo = true) :
    (m.write a v).wfFrom lo = true := by
  induction m generalizing lo with
  | nil =>
    unfold Memory.write
    split
    · rfl
    · simp [Memory.wfFrom, *]
  | cons e r ih =>
    obtain ⟨b, w⟩ := e
    simp only [Memory.wfFrom, Bool.and_eq_true, decide_eq_true_eq] at hm
    unfold Memory.write
    split
    · split
      · simp [Memory.wfFrom, hm]
      · simp only [Memory.wfFrom, Bool.and_eq_true, decide_eq_true_eq, bne_iff_ne]
        exact ⟨⟨ha, by assumption⟩, ⟨by omega, by simpa using hm.1.2⟩, hm.2⟩
    · split
      · split
        · exact Memory.wfFrom_mono (by omega) hm.2
        · simp only [Memory.wfFrom, Bool.and_eq_true, decide_eq_true_eq, bne_iff_ne]
          exact ⟨⟨ha, by assumption⟩, by simp_all⟩
      · simp only [Memory.wfFrom, Bool.and_eq_true, decide_eq_true_eq]
        exact ⟨hm.1, ih (by omega) hm.2⟩

theorem Memory.write_wf {m : Memory} (a : Nat) (v : Byte) (hm : m.wf = true) : (m.write a v).wf = true :=
  Memory.write_wfFrom v (Nat.zero_le a) hm

theorem Memory.writeBytes_wf {m : Memory} (a : Nat) (bs : List Byte) (hm : m.wf = true) : (m.writeBytes a bs).wf = true := by
  induction bs generalizing m a with
  | nil => exact hm
  | cons b r ih => exact ih (a + 1) (Memory.write_wf a b hm)

theorem Memory.writeCells_wf {m : Memory} (cs : List Host.Cell) (hm : m.wf = true) : (m.writeCells cs).wf = true := by
  unfold Memory.writeCells
  induction cs generalizing m with
  | nil => exact hm
  | cons c r ih => exact ih (Memory.write_wf c.1 c.2 hm)

theorem Memory.filter_wfFrom {m : Memory} {lo : Nat} (p : Host.Cell → Bool) (hm : m.wfFrom lo = true) :
    Memory.wfFrom lo (m.filter p) = true := by
  induction m generalizing lo with
  | nil => exact hm
  | cons e r ih =>
    simp only [Memory.wfFrom, Bool.and_eq_true, decide_eq_true_eq] at hm
    rw [List.filter_cons]
    split
    · simp only [Memory.wfFrom, Bool.and_eq_true, decide_eq_true_eq]
      exact ⟨hm.1, ih hm.2⟩
    · exact ih (Memory.wfFrom_mono (by omega) hm.2)

theorem Memory.zero_wf {m : Memory} (a n : Nat) (hm : m.wf = true) : (m.zero a n).wf = true := Memory.filter_wfFrom _ hm

/-! Reading. -/

theorem Memory.read_below {m : Memory} {lo a : Nat} (hm : m.wfFrom lo = true) (ha : a < lo) : m.read a = Memory.unlisted := by
  induction m generalizing lo with
  | nil => rfl
  | cons e r ih =>
    simp only [Memory.wfFrom, Bool.and_eq_true, decide_eq_true_eq] at hm
    unfold Memory.read
    rw [if_neg (by omega)]
    exact ih hm.2 (by omega)

theorem Memory.read_writeFrom {m : Memory} {lo : Nat} (a b : Nat) (v : Byte) (hm : m.wfFrom lo = true) :
    (m.write a v).read b = if b = a then v else m.read b := by
  induction m generalizing lo with
  | nil =>
    unfold Memory.write
    by_cases hb : b = a
    · subst hb; by_cases h : v = Memory.unlisted <;> simp [Memory.read, h]
    · by_cases h : v = Memory.unlisted <;> simp [Memory.read, h, hb, Ne.symm hb]
  | cons e r ih =>
    obtain ⟨c, w⟩ := e
    simp only [Memory.wfFrom, Bool.and_eq_true, decide_eq_true_eq] at hm
    have below (h : a < c) : Memory.read ((c, w) :: r) a = Memory.unlisted := by
      unfold Memory.read
      rw [if_neg (by omega)]
      exact Memory.read_below hm.2 (by omega)
    have gone : Memory.read r c = Memory.unlisted := Memory.read_below hm.2 (by omega)
    unfold Memory.write
    split
    · rename_i h
      split
      · by_cases hb : b = a
        · subst hb; rw [if_pos rfl, below h]; exact (by assumption : v = _).symm
        · rw [if_neg hb]
      · by_cases hb : b = a
        · subst hb; simp [Memory.read]
        · rw [if_neg hb]
          conv => lhs; unfold Memory.read
          rw [if_neg (by omega)]
    · split
      · subst_vars
        split
        · by_cases hb : b = c
          · subst hb; rw [if_pos rfl, gone]; exact (by assumption : v = _).symm
          · rw [if_neg hb]
            conv => rhs; unfold Memory.read
            rw [if_neg (by omega)]
        · by_cases hb : b = c
          · subst hb; simp [Memory.read]
          · rw [if_neg hb]
            unfold Memory.read
            rw [if_neg (by omega), if_neg (by omega)]
      · by_cases hc : c = b
        · subst hc
          simp only [Memory.read, if_true]
          rw [if_neg (by omega)]
        · unfold Memory.read
          rw [if_neg hc, if_neg hc]
          exact ih hm.2

theorem Memory.read_write {m : Memory} (a b : Nat) (v : Byte) (hm : m.wf = true) :
    (m.write a v).read b = if b = a then v else m.read b := Memory.read_writeFrom a b v hm

/-! Cells are the bytes they were made of. -/

theorem Memory.writeCells_cellsAt (m : Memory) (a : Nat) (bs : List Byte) : m.writeCells (cellsAt a bs) = m.writeBytes a bs := by
  induction bs generalizing m a with
  | nil => rfl
  | cons b r ih => exact ih (m.write a b) (a + 1)

/-! The machine's memories. -/

theorem Assoc.all_put {α : Type} {p : Nat × α → Bool} {k : Nat} {v : α} {l : Assoc α} (hl : l.all p = true) (hv : p (k, v) = true) :
    (Assoc.put k v l).all p = true := by
  induction l with
  | nil => simpa [Assoc.put] using hv
  | cons e r ih =>
    simp only [List.all_cons, Bool.and_eq_true] at hl
    unfold Assoc.put
    split
    · simp [hv, hl]
    · split
      · simp [hv, hl]
      · simp [hl.1, ih hl.2]

theorem State.memoryOk_mem {s : State} (h : s.memoryOk = true) : s.mem.wf = true := by
  simp only [State.memoryOk, Bool.and_eq_true] at h; exact h.1

theorem State.memoryOk_cores {s : State} (h : s.memoryOk = true) : s.cores.all (fun e => e.2.scratch.wf) = true := by
  simp only [State.memoryOk, Bool.and_eq_true] at h; exact h.2

/-- Each core's scratchpad is in canonical form, listed or not. -/
theorem State.memoryOk_scratch {s : State} (h : s.memoryOk = true) (c : Nat) : (s.core c).scratch.wf = true := by
  have hc := State.memoryOk_cores h
  unfold State.core
  generalize s.cores = l at hc
  induction l with
  | nil => rfl
  | cons e r ih =>
    simp only [List.all_cons, Bool.and_eq_true] at hc
    unfold Assoc.find
    split
    · exact hc.1
    · exact ih hc.2

/-- An operation that touches neither memory nor a core keeps the form. -/
theorem State.memoryOk_same {s t : State} (hm : t.mem = s.mem) (hc : t.cores = s.cores) (h : s.memoryOk = true) : t.memoryOk = true := by
  unfold State.memoryOk at h ⊢
  rwa [hm, hc]

theorem State.setCore_memoryOk {s : State} {c : Nat} {x : Core} (h : s.memoryOk = true) (hx : x.scratch.wf = true) :
    (s.setCore c x).memoryOk = true := by
  simp only [State.memoryOk, State.setCore_mem, State.setCore_cores, Bool.and_eq_true]
  exact ⟨State.memoryOk_mem h, Assoc.all_put (State.memoryOk_cores h) hx⟩

theorem State.upCore_memoryOk {s : State} {c : Nat} {f : Core → Core} (h : s.memoryOk = true)
    (hf : ∀ k : Core, k.scratch.wf = true → (f k).scratch.wf = true) : (s.upCore c f).memoryOk = true :=
  State.setCore_memoryOk h (hf _ (State.memoryOk_scratch h c))

/-! A thread's change of its scratchpad (R408): what holds of any foldl of core updates, then of State.upScratch. -/

/-- A property of states that every update of a core keeps is kept by a change of a thread's scratchpad. -/
theorem State.upScratch_keeps {P : State → Prop} {s : State} (t : Tid) (f : (Nat → Nat) → Core → Core)
    (step : ∀ (u : State) (c : Nat) (g : Nat → Nat), P u → P (u.upCore c (f g))) (h : P s) : P (s.upScratch t f) := by
  refine step _ _ _ ?_
  suffices ∀ (l : List Tid) (u : State), P u → P (l.foldl (fun u p => u.upCore p.coreKey (f (u.copyAddr t p))) u) from this _ _ h
  intro l
  induction l with
  | nil => exact fun _ hu => hu
  | cons p l ih => exact fun u hu => ih _ (step _ _ _ hu)

/-- Nothing but cores changes. -/
theorem State.upScratch_others (s : State) (t : Tid) (f : (Nat → Nat) → Core → Core) :
    (s.upScratch t f).threads = s.threads ∧ (s.upScratch t f).clusters = s.clusters ∧ (s.upScratch t f).dies = s.dies ∧
    (s.upScratch t f).pkg = s.pkg ∧ (s.upScratch t f).mem = s.mem ∧ (s.upScratch t f).poison = s.poison ∧
    (s.upScratch t f).cur = s.cur ∧ (s.upScratch t f).urgent = s.urgent ∧ (s.upScratch t f).agenda = s.agenda ∧
    (s.upScratch t f).fresh = s.fresh :=
  State.upScratch_keeps (P := fun u => u.threads = s.threads ∧ u.clusters = s.clusters ∧ u.dies = s.dies ∧ u.pkg = s.pkg ∧
    u.mem = s.mem ∧ u.poison = s.poison ∧ u.cur = s.cur ∧ u.urgent = s.urgent ∧ u.agenda = s.agenda ∧ u.fresh = s.fresh)
    t f (fun _ _ _ hu => hu) ⟨rfl, rfl, rfl, rfl, rfl, rfl, rfl, rfl, rfl, rfl⟩

/-- The thread's own core takes the change at its own addresses. -/
theorem State.upScratch_own (s : State) (t : Tid) (f : (Nat → Nat) → Core → Core) :
    (s.upScratch t f).core t.coreKey = f id (s.core t.coreKey) := by
  unfold State.upScratch
  rw [State.core_upCore]
  congr 1
  have hl : ∀ p ∈ s.copiesOf t, p.coreKey ≠ t.coreKey := by
    intro p hp
    unfold State.copiesOf at hp
    split at hp
    · simpa using (List.mem_filter.mp hp).2
    · cases hp
  suffices ∀ (l : List Tid) (u : State), (∀ p ∈ l, p.coreKey ≠ t.coreKey) →
      (l.foldl (fun u p => u.upCore p.coreKey (f (u.copyAddr t p))) u).core t.coreKey = u.core t.coreKey from this _ _ hl
  intro l
  induction l with
  | nil => exact fun _ _ => rfl
  | cons p l ih =>
    intro u hu
    rw [List.foldl_cons, ih _ (fun q hq => hu q (List.mem_cons_of_mem _ hq))]
    exact State.core_setCore_other _ _ (Ne.symm (hu p (List.mem_cons_self ..)))

/-- A thread that is not paired changes its own core alone. -/
theorem State.upScratch_unpaired {s : State} {t : Tid} (h : (s.thread t).bind.paired = false) (f : (Nat → Nat) → Core → Core) :
    s.upScratch t f = s.upCore t.coreKey (f id) := by
  simp [State.upScratch, State.copiesOf, h]

theorem State.upScratch_memoryOk {s : State} {t : Tid} {f : (Nat → Nat) → Core → Core} (h : s.memoryOk = true)
    (hf : ∀ (g : Nat → Nat) (k : Core), k.scratch.wf = true → (f g k).scratch.wf = true) : (s.upScratch t f).memoryOk = true :=
  State.upScratch_keeps (P := fun u => u.memoryOk = true) t f (fun _ _ g hu => State.upCore_memoryOk hu (hf g)) h

theorem State.setThread_memoryOk {s : State} {t : Tid} {x : Thread} (h : s.memoryOk = true) : (s.setThread t x).memoryOk = true :=
  State.memoryOk_same rfl rfl h
theorem State.upThread_memoryOk {s : State} {t : Tid} {f : Thread → Thread} (h : s.memoryOk = true) : (s.upThread t f).memoryOk = true :=
  State.memoryOk_same rfl rfl h
theorem State.upMe_memoryOk {s : State} {f : Thread → Thread} (h : s.memoryOk = true) : (s.upMe f).memoryOk = true :=
  State.memoryOk_same rfl rfl h
theorem State.upPkg_memoryOk {s : State} {f : Package → Package} (h : s.memoryOk = true) : (s.upPkg f).memoryOk = true :=
  State.memoryOk_same rfl rfl h
theorem State.upDie_memoryOk {s : State} {d : Nat} {f : Die → Die} (h : s.memoryOk = true) : (s.upDie d f).memoryOk = true :=
  State.memoryOk_same rfl rfl h
theorem State.upCluster_memoryOk {s : State} {k : Nat} {f : Cluster → Cluster} (h : s.memoryOk = true) : (s.upCluster k f).memoryOk = true :=
  State.memoryOk_same rfl rfl h
theorem State.setLaunch_memoryOk {s : State} {n : Nat} {l : Launch} (h : s.memoryOk = true) : (s.setLaunch n l).memoryOk = true :=
  State.memoryOk_same rfl rfl h
theorem State.post_memoryOk {s : State} {l : List Instr} (h : s.memoryOk = true) : (s.post l).memoryOk = true :=
  State.memoryOk_same rfl rfl h
theorem State.retire_memoryOk {s : State} {t : Tid} {pc : Word} (h : s.memoryOk = true) : (s.retire t pc).memoryOk = true :=
  State.memoryOk_same (by simp) (by simp) h
theorem State.freeze_memoryOk {s : State} {t : Tid} {f : Freeze} (h : s.memoryOk = true) : (s.freeze t f).memoryOk = true :=
  State.memoryOk_same rfl rfl h
theorem State.waitOn_memoryOk {s : State} {t : Tid} {w : Wait} (h : s.memoryOk = true) : (s.waitOn t w).memoryOk = true :=
  State.memoryOk_same (by simp) (by simp) h

/-- A fold of steps that keep the form keeps it. -/
theorem State.foldl_memoryOk {α : Type} {f : State → α → State} (hf : ∀ s a, s.memoryOk = true → (f s a).memoryOk = true) (l : List α)
    {s : State} (h : s.memoryOk = true) : (l.foldl f s).memoryOk = true := by
  induction l generalizing s with
  | nil => exact h
  | cons a r ih => exact ih (hf s a h)

theorem State.urge_memoryOk {s : State} {l : List Instr} (h : s.memoryOk = true) : (s.urge l).memoryOk = true :=
  State.memoryOk_same rfl rfl h
theorem State.memWrite_memoryOk {s : State} {cells : List Host.Cell} (h : s.memoryOk = true) : (s.memWrite cells).memoryOk = true := by
  simp only [State.memoryOk, State.memWrite, Bool.and_eq_true]
  exact ⟨Memory.writeCells_wf _ (State.memoryOk_mem h), State.memoryOk_cores h⟩

/-- Marking poison changes no byte, no core and no die. -/
theorem State.poisonMark_same (s : State) (a n : Nat) :
    (s.poisonMark a n).mem = s.mem ∧ (s.poisonMark a n).cores = s.cores ∧ (s.poisonMark a n).dies = s.dies := by
  exact ⟨rfl, rfl, rfl⟩
theorem State.poisonMark_memoryOk {s : State} {a n : Nat} (h : s.memoryOk = true) : (s.poisonMark a n).memoryOk = true :=
  State.memoryOk_same (State.poisonMark_same s a n).1 (State.poisonMark_same s a n).2.1 h

/-- A fold of steps that each leave memory alone leaves it alone. -/
theorem State.foldl_mem {α : Type} {g : State → α → State} (hg : ∀ s a, (g s a).mem = s.mem) (l : List α) (s : State) :
    (l.foldl g s).mem = s.mem := by
  induction l generalizing s with
  | nil => rfl
  | cons a r ih => rw [List.foldl_cons, ih, hg]

theorem State.homeWriteWith_memoryOk {s : State} {c : Vector (BitVec 48) 9} {req d : Nat} {cells : List Host.Cell} {bad : List Nat}
    (h : s.memoryOk = true) : (s.homeWriteWith c req d cells bad).memoryOk = true := by
  unfold State.homeWriteWith
  have h0 := State.foldl_memoryOk (f := fun s a => s.poisonMark a 1) (fun _ _ h => State.poisonMark_memoryOk h) bad
    (State.memWrite_memoryOk (cells := cells) h)
  refine State.post_memoryOk ?_
  split
  · exact State.foldl_memoryOk (fun _ _ h => State.upDie_memoryOk h) _ (State.upDie_memoryOk h0)
  · exact State.upDie_memoryOk (State.foldl_memoryOk (fun _ _ h => State.upDie_memoryOk h) _ (State.upDie_memoryOk h0))

theorem State.homeWrite_memoryOk {s : State} {req d : Nat} {cells : List Host.Cell} (h : s.memoryOk = true) :
    (s.homeWrite req d cells).memoryOk = true := State.homeWriteWith_memoryOk h

/-- The bytes of a write at a home change, and no other byte of memory. -/
theorem State.homeWriteWith_mem (s : State) (c : Vector (BitVec 48) 9) (req d : Nat) (cells : List Host.Cell) (bad : List Nat) :
    (s.homeWriteWith c req d cells bad).mem = s.mem.writeCells cells := by
  have hb : (bad.foldl (fun s a => s.poisonMark a 1) (s.memWrite cells)).mem = s.mem.writeCells cells :=
    (State.foldl_mem (fun s a => (State.poisonMark_same s a 1).1) bad _).trans rfl
  unfold State.homeWriteWith
  simp only [State.post_mem]
  split
  · exact (State.foldl_mem (fun _ _ => State.upDie_mem _ _ _) _ _).trans hb
  · exact (State.upDie_mem _ _ _).trans ((State.foldl_mem (fun _ _ => State.upDie_mem _ _ _) _ _).trans hb)

theorem State.homeWrite_mem (s : State) (req d : Nat) (cells : List Host.Cell) : (s.homeWrite req d cells).mem = s.mem.writeCells cells :=
  State.homeWriteWith_mem _ _ _ _ _ _

end Sys2Proof.Machine
end

