-- ==== Sys2Proof/Laws/PerInstr.lean ====
section
/-! SUPPORT. Encoding, instruction by instruction: a well-formed instruction that has words is what the decoder reads from them. -/

set_option Elab.async false

namespace Sys2Proof.Laws.Encoding

/-- The words of a well-formed instruction decode to it. -/
def Statement (i : Instr) : Prop := i.wf = true → ∀ e, encode i = some e → decodeEnc e = .ok i

theorem mxfree a : Statement (.mxfree a) := fun _ _ h => nomatch h
theorem bankRelease cl b : Statement (.bankRelease cl b) := fun _ _ h => nomatch h
theorem capack a : Statement (.capack a) := fun _ _ h => nomatch h
theorem rngclr a : Statement (.rngclr a) := fun _ _ h => nomatch h
theorem pginv a : Statement (.pginv a) := fun _ _ h => nomatch h
theorem feop a : Statement (.feop a) := fun _ _ h => nomatch h
theorem accdrop a : Statement (.accdrop a) := fun _ _ h => nomatch h
theorem accspillWrite a : Statement (.accspillWrite a) := fun _ _ h => nomatch h
theorem ffrgnWrite a : Statement (.ffrgnWrite a) := fun _ _ h => nomatch h
theorem txstgWrite a : Statement (.txstgWrite a) := fun _ _ h => nomatch h
theorem crectWrite n a : Statement (.crectWrite n a) := fun _ _ h => nomatch h
theorem frptrWrite a : Statement (.frptrWrite a) := fun _ _ h => nomatch h
theorem frptrRead d : Statement (.frptrRead d) := fun _ _ h => nomatch h
theorem cbRegisterWrite fill n a : Statement (.cbRegisterWrite fill n a) := fun _ _ h => nomatch h
theorem tarcmdRegister a : Statement (.tarcmdRegister a) := fun _ _ h => nomatch h
theorem tarcmdDeregister a : Statement (.tarcmdDeregister a) := fun _ _ h => nomatch h
theorem sliceBind lid die threads : Statement (.sliceBind lid die threads) := fun _ _ h => nomatch h
theorem sliceComplete t : Statement (.sliceComplete t) := fun _ _ h => nomatch h
theorem restartRerun lid idx t : Statement (.restartRerun lid idx t) := fun _ _ h => nomatch h
theorem ageingStep : Statement (.ageingStep) := fun _ _ h => nomatch h
theorem priorityPreemption lid : Statement (.priorityPreemption lid) := fun _ _ h => nomatch h
theorem workSteal lid thief : Statement (.workSteal lid thief) := fun _ _ h => nomatch h
theorem statusExpiry lid : Statement (.statusExpiry lid) := fun _ _ h => nomatch h
theorem barrierRelease lid grp : Statement (.barrierRelease lid grp) := fun _ _ h => nomatch h
theorem barrierLeave core : Statement (.barrierLeave core) := fun _ _ h => nomatch h
theorem d2QuantumExpiry t : Statement (.d2QuantumExpiry t) := fun _ _ h => nomatch h
theorem d2RoundCommit lid grp : Statement (.d2RoundCommit lid grp) := fun _ _ h => nomatch h
theorem vrClaimGrant core : Statement (.vrClaimGrant core) := fun _ _ h => nomatch h
theorem vrResumerPreempt core : Statement (.vrResumerPreempt core) := fun _ _ h => nomatch h
theorem vrtaketTimeout t : Statement (.vrtaketTimeout t) := fun _ _ h => nomatch h
theorem sleepTimeout t : Statement (.sleepTimeout t) := fun _ _ h => nomatch h
theorem yieldHoldExpiry t : Statement (.yieldHoldExpiry t) := fun _ _ h => nomatch h
theorem ldfeWaitEnd t : Statement (.ldfeWaitEnd t) := fun _ _ h => nomatch h
theorem cbwaitEnd t : Statement (.cbwaitEnd t) := fun _ _ h => nomatch h
theorem jobWaitEnd t : Statement (.jobWaitEnd t) := fun _ _ h => nomatch h
theorem lrwaitEnd t : Statement (.lrwaitEnd t) := fun _ _ h => nomatch h
theorem quantWaitEnd t : Statement (.quantWaitEnd t) := fun _ _ h => nomatch h
theorem engineQueueEntryFree t : Statement (.engineQueueEntryFree t) := fun _ _ h => nomatch h
theorem mxeStep cl : Statement (.mxeStep cl) := fun _ _ h => nomatch h
theorem rsuPass cl : Statement (.rsuPass cl) := fun _ _ h => nomatch h
theorem btuJobStart core id : Statement (.btuJobStart core id) := fun _ _ h => nomatch h
theorem btuJobComplete core id : Statement (.btuJobComplete core id) := fun _ _ h => nomatch h
theorem collectiveExecute lid c : Statement (.collectiveExecute lid c) := fun _ _ h => nomatch h
theorem lineGrantRequest core asid va kind user : Statement (.lineGrantRequest core asid va kind user) := fun _ _ h => nomatch h
theorem tableWalkComplete asid va kind user : Statement (.tableWalkComplete asid va kind user) := fun _ _ h => nomatch h
theorem sectorFill core asid va : Statement (.sectorFill core asid va) := fun _ _ h => nomatch h
theorem writeBack core asid va : Statement (.writeBack core asid va) := fun _ _ h => nomatch h
theorem homeAtomic asid va fn dw op cmp : Statement (.homeAtomic asid va fn dw op cmp) := fun _ _ h => nomatch h
theorem updateApply die src : Statement (.updateApply die src) := fun _ _ h => nomatch h
theorem replicaFillInstall die asid va : Statement (.replicaFillInstall die asid va) := fun _ _ h => nomatch h
theorem replicaDrop die asid va : Statement (.replicaDrop die asid va) := fun _ _ h => nomatch h
theorem clockRequest t die : Statement (.clockRequest t die) := fun _ _ h => nomatch h
theorem packageAcquireEnd t : Statement (.packageAcquireEnd t) := fun _ _ h => nomatch h
theorem accSpill slice back : Statement (.accSpill slice back) := fun _ _ h => nomatch h
theorem faultFrameWrite t : Statement (.faultFrameWrite t) := fun _ _ h => nomatch h
theorem pageFaultRecord t : Statement (.pageFaultRecord t) := fun _ _ h => nomatch h
theorem pageFaultResolved asid vpage : Statement (.pageFaultResolved asid vpage) := fun _ _ h => nomatch h
theorem pageFaultKill asid vpage : Statement (.pageFaultKill asid vpage) := fun _ _ h => nomatch h
theorem faultFrameRestore lid idx t : Statement (.faultFrameRestore lid idx t) := fun _ _ h => nomatch h
theorem remoteFaultRecord pkg asid vpage : Statement (.remoteFaultRecord pkg asid vpage) := fun _ _ h => nomatch h
theorem faultPacketWrite die : Statement (.faultPacketWrite die) := fun _ _ h => nomatch h
theorem debugWindowAccess t off data : Statement (.debugWindowAccess t off data) := fun _ _ h => nomatch h
theorem dctlResume t clr : Statement (.dctlResume t clr) := fun _ _ h => nomatch h
theorem dctlTerminateSlice t : Statement (.dctlTerminateSlice t) := fun _ _ h => nomatch h
theorem dctlTerminateLaunch t : Statement (.dctlTerminateLaunch t) := fun _ _ h => nomatch h
theorem dctlPreempt t : Statement (.dctlPreempt t) := fun _ _ h => nomatch h
theorem contextFrameWrite t : Statement (.contextFrameWrite t) := fun _ _ h => nomatch h
theorem contextResume lid idx t : Statement (.contextResume lid idx t) := fun _ _ h => nomatch h
theorem fatalError cause : Statement (.fatalError cause) := fun _ _ h => nomatch h
theorem seqSetCompute die : Statement (.seqSetCompute die) := fun _ _ h => nomatch h
theorem reconPassBind die t : Statement (.reconPassBind die t) := fun _ _ h => nomatch h
theorem seqReserve die t : Statement (.seqReserve die t) := fun _ _ h => nomatch h
theorem seqSendRequests die : Statement (.seqSendRequests die) := fun _ _ h => nomatch h
theorem assignReceive die pod rn : Statement (.assignReceive die pod rn) := fun _ _ h => nomatch h
theorem lkmRequest slice die : Statement (.lkmRequest slice die) := fun _ _ h => nomatch h
theorem lkmHorizon slice die : Statement (.lkmHorizon slice die) := fun _ _ h => nomatch h
theorem lkmPush lid idx slot granule : Statement (.lkmPush lid idx slot granule) := fun _ _ h => nomatch h
theorem transactionBind lid idx : Statement (.transactionBind lid idx) := fun _ _ h => nomatch h
theorem lkmCommit lid idx slot : Statement (.lkmCommit lid idx slot) := fun _ _ h => nomatch h
theorem lkmRelease lid idx slot : Statement (.lkmRelease lid idx slot) := fun _ _ h => nomatch h
theorem transactionReland lid idx t : Statement (.transactionReland lid idx t) := fun _ _ h => nomatch h
theorem registerScrub core word : Statement (.registerScrub core word) := fun _ _ h => nomatch h
theorem patrolRead die ch pa : Statement (.patrolRead die ch pa) := fun _ _ h => nomatch h
theorem scoreDecay : Statement (.scoreDecay) := fun _ _ h => nomatch h
theorem leaseIssue u : Statement (.leaseIssue u) := fun _ _ h => nomatch h
theorem leaseDrainComplete u : Statement (.leaseDrainComplete u) := fun _ _ h => nomatch h
theorem leaseDrainTimeout u : Statement (.leaseDrainTimeout u) := fun _ _ h => nomatch h
theorem assayResult u res : Statement (.assayResult u res) := fun _ _ h => nomatch h
theorem channelTestWindow die ch : Statement (.channelTestWindow die ch) := fun _ _ h => nomatch h
theorem ueConsumption u : Statement (.ueConsumption u) := fun _ _ h => nomatch h
theorem pairedCompare t agree : Statement (.pairedCompare t agree) := fun _ _ h => nomatch h
theorem pairTimeout t : Statement (.pairTimeout t) := fun _ _ h => nomatch h
theorem flitReplay u : Statement (.flitReplay u) := fun _ _ h => nomatch h
theorem boundaryFailure die ix : Statement (.boundaryFailure die ix) := fun _ _ h => nomatch h
theorem dywinLinkFailure die ix : Statement (.dywinLinkFailure die ix) := fun _ _ h => nomatch h
theorem packageSilence pkg : Statement (.packageSilence pkg) := fun _ _ h => nomatch h
theorem gangAck lid : Statement (.gangAck lid) := fun _ _ h => nomatch h
theorem gangAcksComplete lid : Statement (.gangAcksComplete lid) := fun _ _ h => nomatch h
theorem gangStart lid : Statement (.gangStart lid) := fun _ _ h => nomatch h
theorem gangAbort lid : Statement (.gangAbort lid) := fun _ _ h => nomatch h
theorem doorbellRing port page qid : Statement (.doorbellRing port page qid) := fun _ _ h => nomatch h
theorem doorbellReset port page qid : Statement (.doorbellReset port page qid) := fun _ _ h => nomatch h
theorem doorbellDisable port page qid : Statement (.doorbellDisable port page qid) := fun _ _ h => nomatch h
theorem fePendingService q : Statement (.fePendingService q) := fun _ _ h => nomatch h
theorem queueMap port slot : Statement (.queueMap port slot) := fun _ _ h => nomatch h
theorem queueSlotRelease slot : Statement (.queueSlotRelease slot) := fun _ _ h => nomatch h
theorem packetFetch slot : Statement (.packetFetch slot) := fun _ _ h => nomatch h
theorem packetNop slot : Statement (.packetNop slot) := fun _ _ h => nomatch h
theorem packetLaunch slot : Statement (.packetLaunch slot) := fun _ _ h => nomatch h
theorem packetBundle slot : Statement (.packetBundle slot) := fun _ _ h => nomatch h
theorem launchSignalWrite lid : Statement (.launchSignalWrite lid) := fun _ _ h => nomatch h
theorem packetWait slot : Statement (.packetWait slot) := fun _ _ h => nomatch h
theorem packetWaitMet slot : Statement (.packetWaitMet slot) := fun _ _ h => nomatch h
theorem packetSignalStore slot : Statement (.packetSignalStore slot) := fun _ _ h => nomatch h
theorem packetSignalAdd slot : Statement (.packetSignalAdd slot) := fun _ _ h => nomatch h
theorem packetIb slot : Statement (.packetIb slot) := fun _ _ h => nomatch h
theorem packetPred slot : Statement (.packetPred slot) := fun _ _ h => nomatch h
theorem packetLoop slot : Statement (.packetLoop slot) := fun _ _ h => nomatch h
theorem packetFetchfence slot : Statement (.packetFetchfence slot) := fun _ _ h => nomatch h
theorem packetCopy slot : Statement (.packetCopy slot) := fun _ _ h => nomatch h
theorem hostMemoryAccess port off data : Statement (.hostMemoryAccess port off data) := fun _ _ h => nomatch h
theorem hostRegisterWrite port off val : Statement (.hostRegisterWrite port off val) := fun _ _ h => nomatch h
theorem attestationGo port : Statement (.attestationGo port) := fun _ _ h => nomatch h
theorem attestationReportDone port : Statement (.attestationReportDone port) := fun _ _ h => nomatch h
theorem packageReset : Statement (.packageReset) := fun _ _ h => nomatch h
theorem thermalThrottle die : Statement (.thermalThrottle die) := fun _ _ h => nomatch h
theorem thermalTrip : Statement (.thermalTrip) := fun _ _ h => nomatch h
theorem islandGate island : Statement (.islandGate island) := fun _ _ h => nomatch h
theorem islandPowerUp island : Statement (.islandPowerUp island) := fun _ _ h => nomatch h
theorem contactRegained pkg : Statement (.contactRegained pkg) := fun _ _ h => nomatch h
theorem dvfsChange island mhz : Statement (.dvfsChange island mhz) := fun _ _ h => nomatch h
theorem dumpComplete : Statement (.dumpComplete) := fun _ _ h => nomatch h
theorem add g d a b : Statement (.add g d a b) := by
  intro hw e he
  obtain rfl := Option.some.inj he
  simp [decodeEnc, decode32, RF.major_pack, RF.unpack_pack, decAlu, accept, bit_ofBit, hw]
theorem sub g d a b : Statement (.sub g d a b) := by
  intro hw e he
  obtain rfl := Option.some.inj he
  simp [decodeEnc, decode32, RF.major_pack, RF.unpack_pack, decAlu, accept, bit_ofBit, hw]
theorem and g d a b : Statement (.and g d a b) := by
  intro hw e he
  obtain rfl := Option.some.inj he
  simp [decodeEnc, decode32, RF.major_pack, RF.unpack_pack, decAlu, accept, bit_ofBit, hw]
theorem or g d a b : Statement (.or g d a b) := by
  intro hw e he
  obtain rfl := Option.some.inj he
  simp [decodeEnc, decode32, RF.major_pack, RF.unpack_pack, decAlu, accept, bit_ofBit, hw]
theorem xor g d a b : Statement (.xor g d a b) := by
  intro hw e he
  obtain rfl := Option.some.inj he
  simp [decodeEnc, decode32, RF.major_pack, RF.unpack_pack, decAlu, accept, bit_ofBit, hw]
theorem andn g d a b : Statement (.andn g d a b) := by
  intro hw e he
  obtain rfl := Option.some.inj he
  simp [decodeEnc, decode32, RF.major_pack, RF.unpack_pack, decAlu, accept, bit_ofBit, hw]
theorem sll g d a b : Statement (.sll g d a b) := by
  intro hw e he
  obtain rfl := Option.some.inj he
  simp [decodeEnc, decode32, RF.major_pack, RF.unpack_pack, decAlu, accept, bit_ofBit, hw]
theorem srl g d a b : Statement (.srl g d a b) := by
  intro hw e he
  obtain rfl := Option.some.inj he
  simp [decodeEnc, decode32, RF.major_pack, RF.unpack_pack, decAlu, accept, bit_ofBit, hw]
theorem sra g d a b : Statement (.sra g d a b) := by
  intro hw e he
  obtain rfl := Option.some.inj he
  simp [decodeEnc, decode32, RF.major_pack, RF.unpack_pack, decAlu, accept, bit_ofBit, hw]
theorem min g d a b : Statement (.min g d a b) := by
  intro hw e he
  obtain rfl := Option.some.inj he
  simp [decodeEnc, decode32, RF.major_pack, RF.unpack_pack, decAlu, accept, bit_ofBit, hw]
theorem max g d a b : Statement (.max g d a b) := by
  intro hw e he
  obtain rfl := Option.some.inj he
  simp [decodeEnc, decode32, RF.major_pack, RF.unpack_pack, decAlu, accept, bit_ofBit, hw]
theorem minu g d a b : Statement (.minu g d a b) := by
  intro hw e he
  obtain rfl := Option.some.inj he
  simp [decodeEnc, decode32, RF.major_pack, RF.unpack_pack, decAlu, accept, bit_ofBit, hw]
theorem maxu g d a b : Statement (.maxu g d a b) := by
  intro hw e he
  obtain rfl := Option.some.inj he
  simp [decodeEnc, decode32, RF.major_pack, RF.unpack_pack, decAlu, accept, bit_ofBit, hw]
theorem mul g d a b : Statement (.mul g d a b) := by
  intro hw e he
  obtain rfl := Option.some.inj he
  simp [decodeEnc, decode32, RF.major_pack, RF.unpack_pack, decMul, accept, bit_ofBit, hw]
theorem mulh g d a b : Statement (.mulh g d a b) := by
  intro hw e he
  obtain rfl := Option.some.inj he
  simp [decodeEnc, decode32, RF.major_pack, RF.unpack_pack, decMul, accept, bit_ofBit, hw]
theorem mulhu g d a b : Statement (.mulhu g d a b) := by
  intro hw e he
  obtain rfl := Option.some.inj he
  simp [decodeEnc, decode32, RF.major_pack, RF.unpack_pack, decMul, accept, bit_ofBit, hw]
theorem div g d a b : Statement (.div g d a b) := by
  intro hw e he
  obtain rfl := Option.some.inj he
  simp [decodeEnc, decode32, RF.major_pack, RF.unpack_pack, decMul, accept, bit_ofBit, hw]
theorem divu g d a b : Statement (.divu g d a b) := by
  intro hw e he
  obtain rfl := Option.some.inj he
  simp [decodeEnc, decode32, RF.major_pack, RF.unpack_pack, decMul, accept, bit_ofBit, hw]
theorem rem g d a b : Statement (.rem g d a b) := by
  intro hw e he
  obtain rfl := Option.some.inj he
  simp [decodeEnc, decode32, RF.major_pack, RF.unpack_pack, decMul, accept, bit_ofBit, hw]
theorem remu g d a b : Statement (.remu g d a b) := by
  intro hw e he
  obtain rfl := Option.some.inj he
  simp [decodeEnc, decode32, RF.major_pack, RF.unpack_pack, decMul, accept, bit_ofBit, hw]
theorem clz g d a : Statement (.clz g d a) := by
  intro hw e he
  obtain rfl := Option.some.inj he
  simp [decodeEnc, decode32, RF.major_pack, RF.unpack_pack, decBit, acceptIf, accept, bit_ofBit, hw]
theorem ctz g d a : Statement (.ctz g d a) := by
  intro hw e he
  obtain rfl := Option.some.inj he
  simp [decodeEnc, decode32, RF.major_pack, RF.unpack_pack, decBit, acceptIf, accept, bit_ofBit, hw]
theorem popc g d a : Statement (.popc g d a) := by
  intro hw e he
  obtain rfl := Option.some.inj he
  simp [decodeEnc, decode32, RF.major_pack, RF.unpack_pack, decBit, acceptIf, accept, bit_ofBit, hw]
theorem brev g d a : Statement (.brev g d a) := by
  intro hw e he
  obtain rfl := Option.some.inj he
  simp [decodeEnc, decode32, RF.major_pack, RF.unpack_pack, decBit, acceptIf, accept, bit_ofBit, hw]
theorem bswap g d a : Statement (.bswap g d a) := by
  intro hw e he
  obtain rfl := Option.some.inj he
  simp [decodeEnc, decode32, RF.major_pack, RF.unpack_pack, decBit, acceptIf, accept, bit_ofBit, hw]
theorem bext g d a b : Statement (.bext g d a b) := by
  intro hw e he
  obtain rfl := Option.some.inj he
  simp [decodeEnc, decode32, RF.major_pack, RF.unpack_pack, decBit, accept, bit_ofBit, hw]
theorem bins g d a b : Statement (.bins g d a b) := by
  intro hw e he
  obtain rfl := Option.some.inj he
  simp [decodeEnc, decode32, RF.major_pack, RF.unpack_pack, decBit, accept, bit_ofBit, hw]
theorem sext8 g d a : Statement (.sext8 g d a) := by
  intro hw e he
  obtain rfl := Option.some.inj he
  simp [decodeEnc, decode32, RF.major_pack, RF.unpack_pack, decBit, acceptIf, accept, bit_ofBit, hw]
theorem sext16 g d a : Statement (.sext16 g d a) := by
  intro hw e he
  obtain rfl := Option.some.inj he
  simp [decodeEnc, decode32, RF.major_pack, RF.unpack_pack, decBit, acceptIf, accept, bit_ofBit, hw]
theorem sext32 g d a : Statement (.sext32 g d a) := by
  intro hw e he
  obtain rfl := Option.some.inj he
  simp [decodeEnc, decode32, RF.major_pack, RF.unpack_pack, decBit, acceptIf, accept, bit_ofBit, hw]
theorem cmpeq g d a b : Statement (.cmpeq g d a b) := by
  intro hw e he
  obtain rfl := Option.some.inj he
  simp [decodeEnc, decode32, RF.major_pack, RF.unpack_pack, decCmp, acceptIf, accept, bit_ofBit, lo3_up5, hi2_up5, hw]
theorem cmpne g d a b : Statement (.cmpne g d a b) := by
  intro hw e he
  obtain rfl := Option.some.inj he
  simp [decodeEnc, decode32, RF.major_pack, RF.unpack_pack, decCmp, acceptIf, accept, bit_ofBit, lo3_up5, hi2_up5, hw]
theorem cmplt g d a b : Statement (.cmplt g d a b) := by
  intro hw e he
  obtain rfl := Option.some.inj he
  simp [decodeEnc, decode32, RF.major_pack, RF.unpack_pack, decCmp, acceptIf, accept, bit_ofBit, lo3_up5, hi2_up5, hw]
theorem cmpge g d a b : Statement (.cmpge g d a b) := by
  intro hw e he
  obtain rfl := Option.some.inj he
  simp [decodeEnc, decode32, RF.major_pack, RF.unpack_pack, decCmp, acceptIf, accept, bit_ofBit, lo3_up5, hi2_up5, hw]
theorem cmpltu g d a b : Statement (.cmpltu g d a b) := by
  intro hw e he
  obtain rfl := Option.some.inj he
  simp [decodeEnc, decode32, RF.major_pack, RF.unpack_pack, decCmp, acceptIf, accept, bit_ofBit, lo3_up5, hi2_up5, hw]
theorem cmpgeu g d a b : Statement (.cmpgeu g d a b) := by
  intro hw e he
  obtain rfl := Option.some.inj he
  simp [decodeEnc, decode32, RF.major_pack, RF.unpack_pack, decCmp, acceptIf, accept, bit_ofBit, lo3_up5, hi2_up5, hw]
theorem pand g d a b : Statement (.pand g d a b) := by
  intro hw e he
  obtain rfl := Option.some.inj he
  simp [decodeEnc, decode32, RF.major_pack, RF.unpack_pack, decPred, acceptIf, accept, bit_ofBit, lo3_up5, hi2_up5, hw]
theorem por g d a b : Statement (.por g d a b) := by
  intro hw e he
  obtain rfl := Option.some.inj he
  simp [decodeEnc, decode32, RF.major_pack, RF.unpack_pack, decPred, acceptIf, accept, bit_ofBit, lo3_up5, hi2_up5, hw]
theorem pxor g d a b : Statement (.pxor g d a b) := by
  intro hw e he
  obtain rfl := Option.some.inj he
  simp [decodeEnc, decode32, RF.major_pack, RF.unpack_pack, decPred, acceptIf, accept, bit_ofBit, lo3_up5, hi2_up5, hw]
theorem pandn g d a b : Statement (.pandn g d a b) := by
  intro hw e he
  obtain rfl := Option.some.inj he
  simp [decodeEnc, decode32, RF.major_pack, RF.unpack_pack, decPred, acceptIf, accept, bit_ofBit, lo3_up5, hi2_up5, hw]
theorem pnot g d a : Statement (.pnot g d a) := by
  intro hw e he
  obtain rfl := Option.some.inj he
  simp [decodeEnc, decode32, RF.major_pack, RF.unpack_pack, decPred, acceptIf, accept, bit_ofBit, lo3_up5, hi2_up5, hw]
theorem addi d a imm : Statement (.addi d a imm) := by
  intro hw e he
  obtain rfl := Option.some.inj he
  simp [decodeEnc, decode32, IF.major_pack, IF.unpack_pack, accept, hw]
theorem andi d a imm : Statement (.andi d a imm) := by
  intro hw e he
  obtain rfl := Option.some.inj he
  simp [decodeEnc, decode32, IF.major_pack, IF.unpack_pack, accept, hw]
theorem ori d a imm : Statement (.ori d a imm) := by
  intro hw e he
  obtain rfl := Option.some.inj he
  simp [decodeEnc, decode32, IF.major_pack, IF.unpack_pack, accept, hw]
theorem xori d a imm : Statement (.xori d a imm) := by
  intro hw e he
  obtain rfl := Option.some.inj he
  simp [decodeEnc, decode32, IF.major_pack, IF.unpack_pack, accept, hw]
theorem slli d a sh : Statement (.slli d a sh) := by
  intro hw e he
  obtain rfl := Option.some.inj he
  simp only [decodeEnc, decode32, IF.major_pack, IF.unpack_pack, decShift, acceptIf, accept, cut_2_7_6_at_13_2, cut_2_7_6_at_6_7, cut_2_7_6_at_0_6]
  simp [hw]
theorem srli d a sh : Statement (.srli d a sh) := by
  intro hw e he
  obtain rfl := Option.some.inj he
  simp only [decodeEnc, decode32, IF.major_pack, IF.unpack_pack, decShift, acceptIf, accept, cut_2_7_6_at_13_2, cut_2_7_6_at_6_7, cut_2_7_6_at_0_6]
  simp [hw]
theorem srai d a sh : Statement (.srai d a sh) := by
  intro hw e he
  obtain rfl := Option.some.inj he
  simp only [decodeEnc, decode32, IF.major_pack, IF.unpack_pack, decShift, acceptIf, accept, cut_2_7_6_at_13_2, cut_2_7_6_at_6_7, cut_2_7_6_at_0_6]
  simp [hw]
theorem rori d a sh : Statement (.rori d a sh) := by
  intro hw e he
  obtain rfl := Option.some.inj he
  simp only [decodeEnc, decode32, IF.major_pack, IF.unpack_pack, decShift, acceptIf, accept, cut_2_7_6_at_13_2, cut_2_7_6_at_6_7, cut_2_7_6_at_0_6]
  simp [hw]
theorem ldhi d a imm : Statement (.ldhi d a imm) := by
  intro hw e he
  obtain rfl := Option.some.inj he
  simp [decodeEnc, decode32, IF.major_pack, IF.unpack_pack, accept, hw]
theorem cmpiEq d a imm : Statement (.cmpiEq d a imm) := by
  intro hw e he
  obtain rfl := Option.some.inj he
  simp only [decodeEnc, decode32, IF.major_pack, IF.unpack_pack, decCmpi, acceptIf, accept, lo3_up5, hi2_up5, cut_3_12_at_12_3, cut_3_12_at_0_12]
  simp [hw]
theorem cmpiNe d a imm : Statement (.cmpiNe d a imm) := by
  intro hw e he
  obtain rfl := Option.some.inj he
  simp only [decodeEnc, decode32, IF.major_pack, IF.unpack_pack, decCmpi, acceptIf, accept, lo3_up5, hi2_up5, cut_3_12_at_12_3, cut_3_12_at_0_12]
  simp [hw]
theorem cmpiLt d a imm : Statement (.cmpiLt d a imm) := by
  intro hw e he
  obtain rfl := Option.some.inj he
  simp only [decodeEnc, decode32, IF.major_pack, IF.unpack_pack, decCmpi, acceptIf, accept, lo3_up5, hi2_up5, cut_3_12_at_12_3, cut_3_12_at_0_12]
  simp [hw]
theorem cmpiGe d a imm : Statement (.cmpiGe d a imm) := by
  intro hw e he
  obtain rfl := Option.some.inj he
  simp only [decodeEnc, decode32, IF.major_pack, IF.unpack_pack, decCmpi, acceptIf, accept, lo3_up5, hi2_up5, cut_3_12_at_12_3, cut_3_12_at_0_12]
  simp [hw]
theorem cmpiLtu d a imm : Statement (.cmpiLtu d a imm) := by
  intro hw e he
  obtain rfl := Option.some.inj he
  simp only [decodeEnc, decode32, IF.major_pack, IF.unpack_pack, decCmpi, acceptIf, accept, lo3_up5, hi2_up5, cut_3_12_at_12_3, cut_3_12_at_0_12]
  simp [hw]
theorem cmpiGeu d a imm : Statement (.cmpiGeu d a imm) := by
  intro hw e he
  obtain rfl := Option.some.inj he
  simp only [decodeEnc, decode32, IF.major_pack, IF.unpack_pack, decCmpi, acceptIf, accept, lo3_up5, hi2_up5, cut_3_12_at_12_3, cut_3_12_at_0_12]
  simp [hw]
theorem kld d k : Statement (.kld d k) := by
  intro hw e he
  obtain rfl := Option.some.inj he
  simp [decodeEnc, decode32, KF.major_pack, KF.unpack_pack, decK, acceptIf, accept, hw]
theorem klds d k : Statement (.klds d k) := by
  intro hw e he
  obtain rfl := Option.some.inj he
  simp [decodeEnc, decode32, KF.major_pack, KF.unpack_pack, decK, acceptIf, accept, hw]
theorem kadd d a k : Statement (.kadd d a k) := by
  intro hw e he
  obtain rfl := Option.some.inj he
  simp [decodeEnc, decode32, KF.major_pack, KF.unpack_pack, decK, accept, hw]
theorem ksub d a k : Statement (.ksub d a k) := by
  intro hw e he
  obtain rfl := Option.some.inj he
  simp [decodeEnc, decode32, KF.major_pack, KF.unpack_pack, decK, accept, hw]
theorem kmul d a k : Statement (.kmul d a k) := by
  intro hw e he
  obtain rfl := Option.some.inj he
  simp [decodeEnc, decode32, KF.major_pack, KF.unpack_pack, decK, accept, hw]
theorem kand d a k : Statement (.kand d a k) := by
  intro hw e he
  obtain rfl := Option.some.inj he
  simp [decodeEnc, decode32, KF.major_pack, KF.unpack_pack, decK, accept, hw]
theorem kor d a k : Statement (.kor d a k) := by
  intro hw e he
  obtain rfl := Option.some.inj he
  simp [decodeEnc, decode32, KF.major_pack, KF.unpack_pack, decK, accept, hw]
theorem kldd d k : Statement (.kldd d k) := by
  intro hw e he
  obtain rfl := Option.some.inj he
  simp [decodeEnc, decode32, KF.major_pack, KF.unpack_pack, decK, acceptIf, accept, hw]
theorem ld data base sp size acq off : Statement (.ld data base sp size acq off) := by
  intro hw e he
  obtain rfl := Option.some.inj he
  simp only [decodeEnc, decode32, MF.major_pack, MF.unpack_pack, decMem, acceptIf, accept, bit_ofBit, cut_1_1_at_0_1, cut_1_1_at_1_1]
  simp [hw]
theorem st data base sp size rel off : Statement (.st data base sp size rel off) := by
  intro hw e he
  obtain rfl := Option.some.inj he
  simp only [decodeEnc, decode32, MF.major_pack, MF.unpack_pack, decMem, acceptIf, accept, bit_ofBit, cut_1_1_at_0_1, cut_1_1_at_1_1]
  simp [hw]
theorem ldfe data base size clr mark off : Statement (.ldfe data base size clr mark off) := by
  intro hw e he
  obtain rfl := Option.some.inj he
  simp only [decodeEnc, decode32, MF.major_pack, MF.unpack_pack, decMem, acceptIf, accept, bit_ofBit, cut_1_1_at_0_1, cut_1_1_at_1_1]
  simp [hw]
theorem stfe data base size off : Statement (.stfe data base size off) := by
  intro hw e he
  obtain rfl := Option.some.inj he
  simp [decodeEnc, decode32, MF.major_pack, MF.unpack_pack, decMem, acceptIf, accept, hw]
theorem aadd data base b dw ord : Statement (.aadd data base b dw ord) := by
  intro hw e he
  obtain rfl := Option.some.inj he
  simp only [decodeEnc, decode32, MF.major_pack, MF.unpack_pack, decAtom, accept, bit_ofBit, cut_5_5_at_0_5, cut_5_5_at_5_5, cut_1_1_at_0_1, cut_1_1_at_1_1]
  simp [hw]
theorem aand data base b dw ord : Statement (.aand data base b dw ord) := by
  intro hw e he
  obtain rfl := Option.some.inj he
  simp only [decodeEnc, decode32, MF.major_pack, MF.unpack_pack, decAtom, accept, bit_ofBit, cut_5_5_at_0_5, cut_5_5_at_5_5, cut_1_1_at_0_1, cut_1_1_at_1_1]
  simp [hw]
theorem aor data base b dw ord : Statement (.aor data base b dw ord) := by
  intro hw e he
  obtain rfl := Option.some.inj he
  simp only [decodeEnc, decode32, MF.major_pack, MF.unpack_pack, decAtom, accept, bit_ofBit, cut_5_5_at_0_5, cut_5_5_at_5_5, cut_1_1_at_0_1, cut_1_1_at_1_1]
  simp [hw]
theorem axor data base b dw ord : Statement (.axor data base b dw ord) := by
  intro hw e he
  obtain rfl := Option.some.inj he
  simp only [decodeEnc, decode32, MF.major_pack, MF.unpack_pack, decAtom, accept, bit_ofBit, cut_5_5_at_0_5, cut_5_5_at_5_5, cut_1_1_at_0_1, cut_1_1_at_1_1]
  simp [hw]
theorem amin data base b dw ord : Statement (.amin data base b dw ord) := by
  intro hw e he
  obtain rfl := Option.some.inj he
  simp only [decodeEnc, decode32, MF.major_pack, MF.unpack_pack, decAtom, accept, bit_ofBit, cut_5_5_at_0_5, cut_5_5_at_5_5, cut_1_1_at_0_1, cut_1_1_at_1_1]
  simp [hw]
theorem amax data base b dw ord : Statement (.amax data base b dw ord) := by
  intro hw e he
  obtain rfl := Option.some.inj he
  simp only [decodeEnc, decode32, MF.major_pack, MF.unpack_pack, decAtom, accept, bit_ofBit, cut_5_5_at_0_5, cut_5_5_at_5_5, cut_1_1_at_0_1, cut_1_1_at_1_1]
  simp [hw]
theorem aminu data base b dw ord : Statement (.aminu data base b dw ord) := by
  intro hw e he
  obtain rfl := Option.some.inj he
  simp only [decodeEnc, decode32, MF.major_pack, MF.unpack_pack, decAtom, accept, bit_ofBit, cut_5_5_at_0_5, cut_5_5_at_5_5, cut_1_1_at_0_1, cut_1_1_at_1_1]
  simp [hw]
theorem amaxu data base b dw ord : Statement (.amaxu data base b dw ord) := by
  intro hw e he
  obtain rfl := Option.some.inj he
  simp only [decodeEnc, decode32, MF.major_pack, MF.unpack_pack, decAtom, accept, bit_ofBit, cut_5_5_at_0_5, cut_5_5_at_5_5, cut_1_1_at_0_1, cut_1_1_at_1_1]
  simp [hw]
theorem aswap data base b dw ord : Statement (.aswap data base b dw ord) := by
  intro hw e he
  obtain rfl := Option.some.inj he
  simp only [decodeEnc, decode32, MF.major_pack, MF.unpack_pack, decAtom, accept, bit_ofBit, cut_5_5_at_0_5, cut_5_5_at_5_5, cut_1_1_at_0_1, cut_1_1_at_1_1]
  simp [hw]
theorem acas data base b dw ord : Statement (.acas data base b dw ord) := by
  intro hw e he
  obtain rfl := Option.some.inj he
  simp only [decodeEnc, decode32, MF.major_pack, MF.unpack_pack, decAtom, accept, bit_ofBit, cut_5_5_at_0_5, cut_5_5_at_5_5, cut_1_1_at_0_1, cut_1_1_at_1_1]
  simp [hw]
theorem afadd data base b ord : Statement (.afadd data base b ord) := by
  intro hw e he
  obtain rfl := Option.some.inj he
  simp only [decodeEnc, decode32, MF.major_pack, MF.unpack_pack, decAtom, accept, cut_5_5_at_0_5, cut_5_5_at_5_5]
  simp [hw, bit]
theorem afaddD base b ord : Statement (.afaddD base b ord) := by
  intro hw e he
  obtain rfl := Option.some.inj he
  simp only [decodeEnc, decode32, MF.major_pack, MF.unpack_pack, decAtom, acceptIf, accept, cut_5_5_at_0_5, cut_5_5_at_5_5]
  simp [hw, bit]
theorem accinit data base ord : Statement (.accinit data base ord) := by
  intro hw e he
  obtain rfl := Option.some.inj he
  simp only [decodeEnc, decode32, MF.major_pack, MF.unpack_pack, decAtom, acceptIf, accept, cut_5_5_at_0_5, cut_5_5_at_5_5]
  simp [hw, bit]
theorem accrd data base dw ord : Statement (.accrd data base dw ord) := by
  intro hw e he
  obtain rfl := Option.some.inj he
  simp only [decodeEnc, decode32, MF.major_pack, MF.unpack_pack, decAtom, acceptIf, accept, bit_ofBit, cut_5_5_at_0_5, cut_5_5_at_5_5, cut_1_1_at_0_1, cut_1_1_at_1_1]
  simp [hw]
theorem br neg pred off : Statement (.br neg pred off) := by
  intro hw e he
  obtain rfl := Option.some.inj he
  simp [decodeEnc, decode32, BF.major_pack, BF.unpack_pack, accept, bit_ofBit, hw]
theorem call neg pred off : Statement (.call neg pred off) := by
  intro hw e he
  obtain rfl := Option.some.inj he
  simp [decodeEnc, decode32, BF.major_pack, BF.unpack_pack, accept, bit_ofBit, hw]
theorem loop a len : Statement (.loop a len) := by
  intro hw e he
  obtain rfl := Option.some.inj he
  simp [decodeEnc, decode32, IF.major_pack, IF.unpack_pack, acceptIf, accept, hw]
theorem jr g a : Statement (.jr g a) := by
  intro hw e he
  obtain rfl := Option.some.inj he
  simp [decodeEnc, decode32, RF.major_pack, RF.unpack_pack, decCtl, acceptIf, accept, bit_ofBit, hw]
theorem ret g : Statement (.ret g) := by
  intro hw e he
  obtain rfl := Option.some.inj he
  simp [decodeEnc, decode32, RF.major_pack, RF.unpack_pack, decCtl, acceptIf, accept, bit_ofBit, hw]
theorem halt : Statement (.halt) := by
  intro hw e he
  obtain rfl := Option.some.inj he
  simp [decodeEnc, decode32, RF.major_pack, RF.unpack_pack, decCtl, acceptIf, accept, hw]
theorem yield g : Statement (.yield g) := by
  intro hw e he
  obtain rfl := Option.some.inj he
  simp [decodeEnc, decode32, RF.major_pack, RF.unpack_pack, decCtl, acceptIf, accept, bit_ofBit, hw]
theorem nop g : Statement (.nop g) := by
  intro hw e he
  obtain rfl := Option.some.inj he
  simp [decodeEnc, decode32, RF.major_pack, RF.unpack_pack, decCtl, acceptIf, accept, bit_ofBit, hw]
theorem cleave idx : Statement (.cleave idx) := by
  intro hw e he
  obtain rfl := Option.some.inj he
  simp only [decodeEnc, decode32, RF.major_pack, RF.unpack_pack, decCtl, acceptIf, accept, cut_3_2_at_2_3, cut_3_2_at_0_2, cleave_join]
  simp [hw]
theorem vadd esz mk vd va vb : Statement (.vadd esz mk vd va vb) := by
  intro hw e he
  obtain rfl := Option.some.inj he
  simp [decodeEnc, decode32, VF.major_pack, VF.unpack_pack, decVInt, accept, hw]
theorem vsub esz mk vd va vb : Statement (.vsub esz mk vd va vb) := by
  intro hw e he
  obtain rfl := Option.some.inj he
  simp [decodeEnc, decode32, VF.major_pack, VF.unpack_pack, decVInt, accept, hw]
theorem vmullo esz mk vd va vb : Statement (.vmullo esz mk vd va vb) := by
  intro hw e he
  obtain rfl := Option.some.inj he
  simp [decodeEnc, decode32, VF.major_pack, VF.unpack_pack, decVInt, accept, hw]
theorem vmulhi esz mk vd va vb : Statement (.vmulhi esz mk vd va vb) := by
  intro hw e he
  obtain rfl := Option.some.inj he
  simp [decodeEnc, decode32, VF.major_pack, VF.unpack_pack, decVInt, accept, hw]
theorem vmulhiu esz mk vd va vb : Statement (.vmulhiu esz mk vd va vb) := by
  intro hw e he
  obtain rfl := Option.some.inj he
  simp [decodeEnc, decode32, VF.major_pack, VF.unpack_pack, decVInt, accept, hw]
theorem vand esz mk vd va vb : Statement (.vand esz mk vd va vb) := by
  intro hw e he
  obtain rfl := Option.some.inj he
  simp [decodeEnc, decode32, VF.major_pack, VF.unpack_pack, decVInt, accept, hw]
theorem vor esz mk vd va vb : Statement (.vor esz mk vd va vb) := by
  intro hw e he
  obtain rfl := Option.some.inj he
  simp [decodeEnc, decode32, VF.major_pack, VF.unpack_pack, decVInt, accept, hw]
theorem vxor esz mk vd va vb : Statement (.vxor esz mk vd va vb) := by
  intro hw e he
  obtain rfl := Option.some.inj he
  simp [decodeEnc, decode32, VF.major_pack, VF.unpack_pack, decVInt, accept, hw]
theorem vandn esz mk vd va vb : Statement (.vandn esz mk vd va vb) := by
  intro hw e he
  obtain rfl := Option.some.inj he
  simp [decodeEnc, decode32, VF.major_pack, VF.unpack_pack, decVInt, accept, hw]
theorem vmax esz mk vd va vb : Statement (.vmax esz mk vd va vb) := by
  intro hw e he
  obtain rfl := Option.some.inj he
  simp [decodeEnc, decode32, VF.major_pack, VF.unpack_pack, decVInt, accept, hw]
theorem vmin esz mk vd va vb : Statement (.vmin esz mk vd va vb) := by
  intro hw e he
  obtain rfl := Option.some.inj he
  simp [decodeEnc, decode32, VF.major_pack, VF.unpack_pack, decVInt, accept, hw]
theorem vmaxu esz mk vd va vb : Statement (.vmaxu esz mk vd va vb) := by
  intro hw e he
  obtain rfl := Option.some.inj he
  simp [decodeEnc, decode32, VF.major_pack, VF.unpack_pack, decVInt, accept, hw]
theorem vminu esz mk vd va vb : Statement (.vminu esz mk vd va vb) := by
  intro hw e he
  obtain rfl := Option.some.inj he
  simp [decodeEnc, decode32, VF.major_pack, VF.unpack_pack, decVInt, accept, hw]
theorem vshl esz mk vd va vb : Statement (.vshl esz mk vd va vb) := by
  intro hw e he
  obtain rfl := Option.some.inj he
  simp [decodeEnc, decode32, VF.major_pack, VF.unpack_pack, decVInt, accept, hw]
theorem vshr esz mk vd va vb : Statement (.vshr esz mk vd va vb) := by
  intro hw e he
  obtain rfl := Option.some.inj he
  simp [decodeEnc, decode32, VF.major_pack, VF.unpack_pack, decVInt, accept, hw]
theorem vsra esz mk vd va vb : Statement (.vsra esz mk vd va vb) := by
  intro hw e he
  obtain rfl := Option.some.inj he
  simp [decodeEnc, decode32, VF.major_pack, VF.unpack_pack, decVInt, accept, hw]
theorem vadds esz mk vd va vb : Statement (.vadds esz mk vd va vb) := by
  intro hw e he
  obtain rfl := Option.some.inj he
  simp [decodeEnc, decode32, VF.major_pack, VF.unpack_pack, decVInt, accept, hw]
theorem vaddsu esz mk vd va vb : Statement (.vaddsu esz mk vd va vb) := by
  intro hw e he
  obtain rfl := Option.some.inj he
  simp [decodeEnc, decode32, VF.major_pack, VF.unpack_pack, decVInt, accept, hw]
theorem vsubs esz mk vd va vb : Statement (.vsubs esz mk vd va vb) := by
  intro hw e he
  obtain rfl := Option.some.inj he
  simp [decodeEnc, decode32, VF.major_pack, VF.unpack_pack, decVInt, accept, hw]
theorem vsubsu esz mk vd va vb : Statement (.vsubsu esz mk vd va vb) := by
  intro hw e he
  obtain rfl := Option.some.inj he
  simp [decodeEnc, decode32, VF.major_pack, VF.unpack_pack, decVInt, accept, hw]
theorem vabs esz mk vd va : Statement (.vabs esz mk vd va) := by
  intro hw e he
  obtain rfl := Option.some.inj he
  simp [decodeEnc, decode32, VF.major_pack, VF.unpack_pack, decVInt, acceptIf, accept, hw]
theorem vneg esz mk vd va : Statement (.vneg esz mk vd va) := by
  intro hw e he
  obtain rfl := Option.some.inj he
  simp [decodeEnc, decode32, VF.major_pack, VF.unpack_pack, decVInt, acceptIf, accept, hw]
theorem vmov esz mk vd va : Statement (.vmov esz mk vd va) := by
  intro hw e he
  obtain rfl := Option.some.inj he
  simp [decodeEnc, decode32, VF.major_pack, VF.unpack_pack, decVInt, acceptIf, accept, hw]
theorem vbcast esz mk vd a : Statement (.vbcast esz mk vd a) := by
  intro hw e he
  obtain rfl := Option.some.inj he
  simp [decodeEnc, decode32, VF.major_pack, VF.unpack_pack, decVInt, acceptIf, accept, hw]
theorem vadd16 w vd vs : Statement (.vadd16 w vd vs) := by
  intro hw e he
  obtain rfl := Option.some.inj he
  simp [decodeEnc, decode16, lane_op, lane_vd, lane_vs, lane_w, bit_ofBit, hw]
theorem vsub16 w vd vs : Statement (.vsub16 w vd vs) := by
  intro hw e he
  obtain rfl := Option.some.inj he
  simp [decodeEnc, decode16, lane_op, lane_vd, lane_vs, lane_w, bit_ofBit, hw]
theorem vmullo16 w vd vs : Statement (.vmullo16 w vd vs) := by
  intro hw e he
  obtain rfl := Option.some.inj he
  simp [decodeEnc, decode16, lane_op, lane_vd, lane_vs, lane_w, bit_ofBit, hw]
theorem vand16 w vd vs : Statement (.vand16 w vd vs) := by
  intro hw e he
  obtain rfl := Option.some.inj he
  simp [decodeEnc, decode16, lane_op, lane_vd, lane_vs, lane_w, bit_ofBit, hw]
theorem vor16 w vd vs : Statement (.vor16 w vd vs) := by
  intro hw e he
  obtain rfl := Option.some.inj he
  simp [decodeEnc, decode16, lane_op, lane_vd, lane_vs, lane_w, bit_ofBit, hw]
theorem vxor16 w vd vs : Statement (.vxor16 w vd vs) := by
  intro hw e he
  obtain rfl := Option.some.inj he
  simp [decodeEnc, decode16, lane_op, lane_vd, lane_vs, lane_w, bit_ofBit, hw]
theorem vmax16 w vd vs : Statement (.vmax16 w vd vs) := by
  intro hw e he
  obtain rfl := Option.some.inj he
  simp [decodeEnc, decode16, lane_op, lane_vd, lane_vs, lane_w, bit_ofBit, hw]
theorem vmin16 w vd vs : Statement (.vmin16 w vd vs) := by
  intro hw e he
  obtain rfl := Option.some.inj he
  simp [decodeEnc, decode16, lane_op, lane_vd, lane_vs, lane_w, bit_ofBit, hw]
theorem vshl16 w vd vs : Statement (.vshl16 w vd vs) := by
  intro hw e he
  obtain rfl := Option.some.inj he
  simp [decodeEnc, decode16, lane_op, lane_vd, lane_vs, lane_w, bit_ofBit, hw]
theorem vshr16 w vd vs : Statement (.vshr16 w vd vs) := by
  intro hw e he
  obtain rfl := Option.some.inj he
  simp [decodeEnc, decode16, lane_op, lane_vd, lane_vs, lane_w, bit_ofBit, hw]
theorem vfadd16 w vd vs : Statement (.vfadd16 w vd vs) := by
  intro hw e he
  obtain rfl := Option.some.inj he
  simp [decodeEnc, decode16, lane_op, lane_vd, lane_vs, lane_w, bit_ofBit, hw]
theorem vfsub16 w vd vs : Statement (.vfsub16 w vd vs) := by
  intro hw e he
  obtain rfl := Option.some.inj he
  simp [decodeEnc, decode16, lane_op, lane_vd, lane_vs, lane_w, bit_ofBit, hw]
theorem vfmul16 w vd vs : Statement (.vfmul16 w vd vs) := by
  intro hw e he
  obtain rfl := Option.some.inj he
  simp [decodeEnc, decode16, lane_op, lane_vd, lane_vs, lane_w, bit_ofBit, hw]
theorem vfmax16 w vd vs : Statement (.vfmax16 w vd vs) := by
  intro hw e he
  obtain rfl := Option.some.inj he
  simp [decodeEnc, decode16, lane_op, lane_vd, lane_vs, lane_w, bit_ofBit, hw]
theorem vfmin16 w vd vs : Statement (.vfmin16 w vd vs) := by
  intro hw e he
  obtain rfl := Option.some.inj he
  simp [decodeEnc, decode16, lane_op, lane_vd, lane_vs, lane_w, bit_ofBit, hw]
theorem vmov16 w vd vs : Statement (.vmov16 w vd vs) := by
  intro hw e he
  obtain rfl := Option.some.inj he
  simp [decodeEnc, decode16, lane_op, lane_vd, lane_vs, lane_w, bit_ofBit, hw]
theorem vfadd esz mk vd va vb : Statement (.vfadd esz mk vd va vb) := by
  intro hw e he
  obtain rfl := Option.some.inj he
  simp [decodeEnc, decode32, VF.major_pack, VF.unpack_pack, decVFloat, accept, hw]
theorem vfsub esz mk vd va vb : Statement (.vfsub esz mk vd va vb) := by
  intro hw e he
  obtain rfl := Option.some.inj he
  simp [decodeEnc, decode32, VF.major_pack, VF.unpack_pack, decVFloat, accept, hw]
theorem vfmul esz mk vd va vb : Statement (.vfmul esz mk vd va vb) := by
  intro hw e he
  obtain rfl := Option.some.inj he
  simp [decodeEnc, decode32, VF.major_pack, VF.unpack_pack, decVFloat, accept, hw]
theorem vfdiv esz mk vd va vb : Statement (.vfdiv esz mk vd va vb) := by
  intro hw e he
  obtain rfl := Option.some.inj he
  simp [decodeEnc, decode32, VF.major_pack, VF.unpack_pack, decVFloat, accept, hw]
theorem vfmax esz mk vd va vb : Statement (.vfmax esz mk vd va vb) := by
  intro hw e he
  obtain rfl := Option.some.inj he
  simp [decodeEnc, decode32, VF.major_pack, VF.unpack_pack, decVFloat, accept, hw]
theorem vfmin esz mk vd va vb : Statement (.vfmin esz mk vd va vb) := by
  intro hw e he
  obtain rfl := Option.some.inj he
  simp [decodeEnc, decode32, VF.major_pack, VF.unpack_pack, decVFloat, accept, hw]
theorem vfabs esz mk vd va : Statement (.vfabs esz mk vd va) := by
  intro hw e he
  obtain rfl := Option.some.inj he
  simp [decodeEnc, decode32, VF.major_pack, VF.unpack_pack, decVFloat, acceptIf, accept, hw]
theorem vfneg esz mk vd va : Statement (.vfneg esz mk vd va) := by
  intro hw e he
  obtain rfl := Option.some.inj he
  simp [decodeEnc, decode32, VF.major_pack, VF.unpack_pack, decVFloat, acceptIf, accept, hw]
theorem vfsqrt esz mk vd va : Statement (.vfsqrt esz mk vd va) := by
  intro hw e he
  obtain rfl := Option.some.inj he
  simp [decodeEnc, decode32, VF.major_pack, VF.unpack_pack, decVFloat, acceptIf, accept, hw]
theorem vcmpeq esz mk md va vb : Statement (.vcmpeq esz mk md va vb) := by
  intro hw e he
  obtain rfl := Option.some.inj he
  simp [decodeEnc, decode32, VF.major_pack, VF.unpack_pack, decVCmp, acceptIf, accept, lo3_up5, hi2_up5, hw]
theorem vcmpne esz mk md va vb : Statement (.vcmpne esz mk md va vb) := by
  intro hw e he
  obtain rfl := Option.some.inj he
  simp [decodeEnc, decode32, VF.major_pack, VF.unpack_pack, decVCmp, acceptIf, accept, lo3_up5, hi2_up5, hw]
theorem vcmplt esz mk md va vb : Statement (.vcmplt esz mk md va vb) := by
  intro hw e he
  obtain rfl := Option.some.inj he
  simp [decodeEnc, decode32, VF.major_pack, VF.unpack_pack, decVCmp, acceptIf, accept, lo3_up5, hi2_up5, hw]
theorem vcmple esz mk md va vb : Statement (.vcmple esz mk md va vb) := by
  intro hw e he
  obtain rfl := Option.some.inj he
  simp [decodeEnc, decode32, VF.major_pack, VF.unpack_pack, decVCmp, acceptIf, accept, lo3_up5, hi2_up5, hw]
theorem vcmpltu esz mk md va vb : Statement (.vcmpltu esz mk md va vb) := by
  intro hw e he
  obtain rfl := Option.some.inj he
  simp [decodeEnc, decode32, VF.major_pack, VF.unpack_pack, decVCmp, acceptIf, accept, lo3_up5, hi2_up5, hw]
theorem vcmpleu esz mk md va vb : Statement (.vcmpleu esz mk md va vb) := by
  intro hw e he
  obtain rfl := Option.some.inj he
  simp [decodeEnc, decode32, VF.major_pack, VF.unpack_pack, decVCmp, acceptIf, accept, lo3_up5, hi2_up5, hw]
theorem vfcmpeq esz mk md va vb : Statement (.vfcmpeq esz mk md va vb) := by
  intro hw e he
  obtain rfl := Option.some.inj he
  simp [decodeEnc, decode32, VF.major_pack, VF.unpack_pack, decVCmp, acceptIf, accept, lo3_up5, hi2_up5, hw]
theorem vfcmplt esz mk md va vb : Statement (.vfcmplt esz mk md va vb) := by
  intro hw e he
  obtain rfl := Option.some.inj he
  simp [decodeEnc, decode32, VF.major_pack, VF.unpack_pack, decVCmp, acceptIf, accept, lo3_up5, hi2_up5, hw]
theorem vfcmple esz mk md va vb : Statement (.vfcmple esz mk md va vb) := by
  intro hw e he
  obtain rfl := Option.some.inj he
  simp [decodeEnc, decode32, VF.major_pack, VF.unpack_pack, decVCmp, acceptIf, accept, lo3_up5, hi2_up5, hw]
theorem vfcmpun esz mk md va vb : Statement (.vfcmpun esz mk md va vb) := by
  intro hw e he
  obtain rfl := Option.some.inj he
  simp [decodeEnc, decode32, VF.major_pack, VF.unpack_pack, decVCmp, acceptIf, accept, lo3_up5, hi2_up5, hw]
theorem vmand md ma mb : Statement (.vmand md ma mb) := by
  intro hw e he
  obtain rfl := Option.some.inj he
  simp [decodeEnc, decode32, VF.major_pack, VF.unpack_pack, decVCmp, acceptIf, accept, lo3_up5, hi2_up5, hw]
theorem vmor md ma mb : Statement (.vmor md ma mb) := by
  intro hw e he
  obtain rfl := Option.some.inj he
  simp [decodeEnc, decode32, VF.major_pack, VF.unpack_pack, decVCmp, acceptIf, accept, lo3_up5, hi2_up5, hw]
theorem vmxor md ma mb : Statement (.vmxor md ma mb) := by
  intro hw e he
  obtain rfl := Option.some.inj he
  simp [decodeEnc, decode32, VF.major_pack, VF.unpack_pack, decVCmp, acceptIf, accept, lo3_up5, hi2_up5, hw]
theorem vmnot md ma : Statement (.vmnot md ma) := by
  intro hw e he
  obtain rfl := Option.some.inj he
  simp [decodeEnc, decode32, VF.major_pack, VF.unpack_pack, decVCmp, acceptIf, accept, lo3_up5, hi2_up5, hw]
theorem vcvt src dst cv mk vd va : Statement (.vcvt src dst cv mk vd va) := by
  intro hw e he
  obtain rfl := Option.some.inj he
  simp [decodeEnc, decode32, VF.major_pack, VF.unpack_pack, accept, hw]
theorem vrsum esz mk vd va : Statement (.vrsum esz mk vd va) := by
  intro hw e he
  obtain rfl := Option.some.inj he
  simp [decodeEnc, decode32, VF.major_pack, VF.unpack_pack, decVRed, acceptIf, accept, hw]
theorem vrmax esz mk vd va : Statement (.vrmax esz mk vd va) := by
  intro hw e he
  obtain rfl := Option.some.inj he
  simp [decodeEnc, decode32, VF.major_pack, VF.unpack_pack, decVRed, acceptIf, accept, hw]
theorem vrmin esz mk vd va : Statement (.vrmin esz mk vd va) := by
  intro hw e he
  obtain rfl := Option.some.inj he
  simp [decodeEnc, decode32, VF.major_pack, VF.unpack_pack, decVRed, acceptIf, accept, hw]
theorem vrmaxu esz mk vd va : Statement (.vrmaxu esz mk vd va) := by
  intro hw e he
  obtain rfl := Option.some.inj he
  simp [decodeEnc, decode32, VF.major_pack, VF.unpack_pack, decVRed, acceptIf, accept, hw]
theorem vrminu esz mk vd va : Statement (.vrminu esz mk vd va) := by
  intro hw e he
  obtain rfl := Option.some.inj he
  simp [decodeEnc, decode32, VF.major_pack, VF.unpack_pack, decVRed, acceptIf, accept, hw]
theorem vrand esz mk vd va : Statement (.vrand esz mk vd va) := by
  intro hw e he
  obtain rfl := Option.some.inj he
  simp [decodeEnc, decode32, VF.major_pack, VF.unpack_pack, decVRed, acceptIf, accept, hw]
theorem vror esz mk vd va : Statement (.vror esz mk vd va) := by
  intro hw e he
  obtain rfl := Option.some.inj he
  simp [decodeEnc, decode32, VF.major_pack, VF.unpack_pack, decVRed, acceptIf, accept, hw]
theorem vrxor esz mk vd va : Statement (.vrxor esz mk vd va) := by
  intro hw e he
  obtain rfl := Option.some.inj he
  simp [decodeEnc, decode32, VF.major_pack, VF.unpack_pack, decVRed, acceptIf, accept, hw]
theorem vfrsum esz mk vd va : Statement (.vfrsum esz mk vd va) := by
  intro hw e he
  obtain rfl := Option.some.inj he
  simp [decodeEnc, decode32, VF.major_pack, VF.unpack_pack, decVRed, acceptIf, accept, hw]
theorem vfrmax esz mk vd va : Statement (.vfrmax esz mk vd va) := by
  intro hw e he
  obtain rfl := Option.some.inj he
  simp [decodeEnc, decode32, VF.major_pack, VF.unpack_pack, decVRed, acceptIf, accept, hw]
theorem vfrmin esz mk vd va : Statement (.vfrmin esz mk vd va) := by
  intro hw e he
  obtain rfl := Option.some.inj he
  simp [decodeEnc, decode32, VF.major_pack, VF.unpack_pack, decVRed, acceptIf, accept, hw]
theorem vfrprod esz mk vd va : Statement (.vfrprod esz mk vd va) := by
  intro hw e he
  obtain rfl := Option.some.inj he
  simp [decodeEnc, decode32, VF.major_pack, VF.unpack_pack, decVRed, acceptIf, accept, hw]
theorem vscan esz mk vd va : Statement (.vscan esz mk vd va) := by
  intro hw e he
  obtain rfl := Option.some.inj he
  simp [decodeEnc, decode32, VF.major_pack, VF.unpack_pack, decVRed, acceptIf, accept, hw]
theorem vfscan esz mk vd va : Statement (.vfscan esz mk vd va) := by
  intro hw e he
  obtain rfl := Option.some.inj he
  simp [decodeEnc, decode32, VF.major_pack, VF.unpack_pack, decVRed, acceptIf, accept, hw]
theorem vperm esz mk vd va vb : Statement (.vperm esz mk vd va vb) := by
  intro hw e he
  obtain rfl := Option.some.inj he
  simp [decodeEnc, decode32, VF.major_pack, VF.unpack_pack, decVPerm, accept, hw]
theorem vrotl esz mk vd va b : Statement (.vrotl esz mk vd va b) := by
  intro hw e he
  obtain rfl := Option.some.inj he
  simp [decodeEnc, decode32, VF.major_pack, VF.unpack_pack, decVPerm, accept, hw]
theorem vslideup esz mk vd va b : Statement (.vslideup esz mk vd va b) := by
  intro hw e he
  obtain rfl := Option.some.inj he
  simp [decodeEnc, decode32, VF.major_pack, VF.unpack_pack, decVPerm, accept, hw]
theorem vslidedn esz mk vd va b : Statement (.vslidedn esz mk vd va b) := by
  intro hw e he
  obtain rfl := Option.some.inj he
  simp [decodeEnc, decode32, VF.major_pack, VF.unpack_pack, decVPerm, accept, hw]
theorem vziplo esz mk vd va vb : Statement (.vziplo esz mk vd va vb) := by
  intro hw e he
  obtain rfl := Option.some.inj he
  simp [decodeEnc, decode32, VF.major_pack, VF.unpack_pack, decVPerm, accept, hw]
theorem vziphi esz mk vd va vb : Statement (.vziphi esz mk vd va vb) := by
  intro hw e he
  obtain rfl := Option.some.inj he
  simp [decodeEnc, decode32, VF.major_pack, VF.unpack_pack, decVPerm, accept, hw]
theorem vunzipe esz mk vd va vb : Statement (.vunzipe esz mk vd va vb) := by
  intro hw e he
  obtain rfl := Option.some.inj he
  simp [decodeEnc, decode32, VF.major_pack, VF.unpack_pack, decVPerm, accept, hw]
theorem vunzipo esz mk vd va vb : Statement (.vunzipo esz mk vd va vb) := by
  intro hw e he
  obtain rfl := Option.some.inj he
  simp [decodeEnc, decode32, VF.major_pack, VF.unpack_pack, decVPerm, accept, hw]
theorem vcompress esz mk vd va : Statement (.vcompress esz mk vd va) := by
  intro hw e he
  obtain rfl := Option.some.inj he
  simp [decodeEnc, decode32, VF.major_pack, VF.unpack_pack, decVPerm, acceptIf, accept, hw]
theorem vexpand esz mk vd va : Statement (.vexpand esz mk vd va) := by
  intro hw e he
  obtain rfl := Option.some.inj he
  simp [decodeEnc, decode32, VF.major_pack, VF.unpack_pack, decVPerm, acceptIf, accept, hw]
theorem vld esz mk vd a b : Statement (.vld esz mk vd a b) := by
  intro hw e he
  obtain rfl := Option.some.inj he
  simp [decodeEnc, decode32, VF.major_pack, VF.unpack_pack, decVLoad, accept, hw]
theorem vlds esz mk vd a b : Statement (.vlds esz mk vd a b) := by
  intro hw e he
  obtain rfl := Option.some.inj he
  simp [decodeEnc, decode32, VF.major_pack, VF.unpack_pack, decVLoad, accept, hw]
theorem vldsp esz mk vd a b : Statement (.vldsp esz mk vd a b) := by
  intro hw e he
  obtain rfl := Option.some.inj he
  simp [decodeEnc, decode32, VF.major_pack, VF.unpack_pack, decVLoad, accept, hw]
theorem vldsps esz mk vd a b : Statement (.vldsps esz mk vd a b) := by
  intro hw e he
  obtain rfl := Option.some.inj he
  simp [decodeEnc, decode32, VF.major_pack, VF.unpack_pack, decVLoad, accept, hw]
theorem vst esz mk vd a b : Statement (.vst esz mk vd a b) := by
  intro hw e he
  obtain rfl := Option.some.inj he
  simp [decodeEnc, decode32, VF.major_pack, VF.unpack_pack, decVStore, accept, hw]
theorem vsts esz mk vd a b : Statement (.vsts esz mk vd a b) := by
  intro hw e he
  obtain rfl := Option.some.inj he
  simp [decodeEnc, decode32, VF.major_pack, VF.unpack_pack, decVStore, accept, hw]
theorem vstsp esz mk vd a b : Statement (.vstsp esz mk vd a b) := by
  intro hw e he
  obtain rfl := Option.some.inj he
  simp [decodeEnc, decode32, VF.major_pack, VF.unpack_pack, decVStore, accept, hw]
theorem vstsps esz mk vd a b : Statement (.vstsps esz mk vd a b) := by
  intro hw e he
  obtain rfl := Option.some.inj he
  simp [decodeEnc, decode32, VF.major_pack, VF.unpack_pack, decVStore, accept, hw]
theorem vgath esz mk vd a vb : Statement (.vgath esz mk vd a vb) := by
  intro hw e he
  obtain rfl := Option.some.inj he
  simp [decodeEnc, decode32, VF.major_pack, VF.unpack_pack, decVGath, accept, hw]
theorem vscat esz mk vd a vb : Statement (.vscat esz mk vd a vb) := by
  intro hw e he
  obtain rfl := Option.some.inj he
  simp [decodeEnc, decode32, VF.major_pack, VF.unpack_pack, decVGath, accept, hw]
theorem vgathsp esz mk vd a vb : Statement (.vgathsp esz mk vd a vb) := by
  intro hw e he
  obtain rfl := Option.some.inj he
  simp [decodeEnc, decode32, VF.major_pack, VF.unpack_pack, decVGath, accept, hw]
theorem vscatsp esz mk vd a vb : Statement (.vscatsp esz mk vd a vb) := by
  intro hw e he
  obtain rfl := Option.some.inj he
  simp [decodeEnc, decode32, VF.major_pack, VF.unpack_pack, decVGath, accept, hw]
theorem vldc esz mk vd c b : Statement (.vldc esz mk vd c b) := by
  intro hw e he
  obtain rfl := Option.some.inj he
  simp [decodeEnc, decode32, VF.major_pack, VF.unpack_pack, decVCb, acceptIf, accept, lo3_up5, hi2_up5, hw]
theorem vstc esz mk vd c b : Statement (.vstc esz mk vd c b) := by
  intro hw e he
  obtain rfl := Option.some.inj he
  simp [decodeEnc, decode32, VF.major_pack, VF.unpack_pack, decVCb, acceptIf, accept, lo3_up5, hi2_up5, hw]
theorem vfma esz mk vd va vb : Statement (.vfma esz mk vd va vb) := by
  intro hw e he
  obtain rfl := Option.some.inj he
  simp [decodeEnc, decode32, VF.major_pack, VF.unpack_pack, decVFma, accept, hw]
theorem vfms esz mk vd va vb : Statement (.vfms esz mk vd va vb) := by
  intro hw e he
  obtain rfl := Option.some.inj he
  simp [decodeEnc, decode32, VF.major_pack, VF.unpack_pack, decVFma, accept, hw]
theorem vfnma esz mk vd va vb : Statement (.vfnma esz mk vd va vb) := by
  intro hw e he
  obtain rfl := Option.some.inj he
  simp [decodeEnc, decode32, VF.major_pack, VF.unpack_pack, decVFma, accept, hw]
theorem vfnms esz mk vd va vb : Statement (.vfnms esz mk vd va vb) := by
  intro hw e he
  obtain rfl := Option.some.inj he
  simp [decodeEnc, decode32, VF.major_pack, VF.unpack_pack, decVFma, accept, hw]
theorem vmac esz mk vd va vb : Statement (.vmac esz mk vd va vb) := by
  intro hw e he
  obtain rfl := Option.some.inj he
  simp [decodeEnc, decode32, VF.major_pack, VF.unpack_pack, decVFma, accept, hw]
theorem vexp2 esz mk vd va : Statement (.vexp2 esz mk vd va) := by
  intro hw e he
  obtain rfl := Option.some.inj he
  simp [decodeEnc, decode32, VF.major_pack, VF.unpack_pack, decVSpec, acceptIf, accept, hw]
theorem vlog2 esz mk vd va : Statement (.vlog2 esz mk vd va) := by
  intro hw e he
  obtain rfl := Option.some.inj he
  simp [decodeEnc, decode32, VF.major_pack, VF.unpack_pack, decVSpec, acceptIf, accept, hw]
theorem vrcp esz mk vd va : Statement (.vrcp esz mk vd va) := by
  intro hw e he
  obtain rfl := Option.some.inj he
  simp [decodeEnc, decode32, VF.major_pack, VF.unpack_pack, decVSpec, acceptIf, accept, hw]
theorem vrsqrt esz mk vd va : Statement (.vrsqrt esz mk vd va) := by
  intro hw e he
  obtain rfl := Option.some.inj he
  simp [decodeEnc, decode32, VF.major_pack, VF.unpack_pack, decVSpec, acceptIf, accept, hw]
theorem vsin esz mk vd va : Statement (.vsin esz mk vd va) := by
  intro hw e he
  obtain rfl := Option.some.inj he
  simp [decodeEnc, decode32, VF.major_pack, VF.unpack_pack, decVSpec, acceptIf, accept, hw]
theorem vtanh esz mk vd va : Statement (.vtanh esz mk vd va) := by
  intro hw e he
  obtain rfl := Option.some.inj he
  simp [decodeEnc, decode32, VF.major_pack, VF.unpack_pack, decVSpec, acceptIf, accept, hw]
theorem vsigm esz mk vd va : Statement (.vsigm esz mk vd va) := by
  intro hw e he
  obtain rfl := Option.some.inj he
  simp [decodeEnc, decode32, VF.major_pack, VF.unpack_pack, decVSpec, acceptIf, accept, hw]
theorem vext esz mk d va b : Statement (.vext esz mk d va b) := by
  intro hw e he
  obtain rfl := Option.some.inj he
  simp [decodeEnc, decode32, VF.major_pack, VF.unpack_pack, decVLane, accept, hw]
theorem vins esz mk vd a b : Statement (.vins esz mk vd a b) := by
  intro hw e he
  obtain rfl := Option.some.inj he
  simp [decodeEnc, decode32, VF.major_pack, VF.unpack_pack, decVLane, accept, hw]
theorem vsplat esz mk vd va b : Statement (.vsplat esz mk vd va b) := by
  intro hw e he
  obtain rfl := Option.some.inj he
  simp [decodeEnc, decode32, VF.major_pack, VF.unpack_pack, decVLane, accept, hw]
theorem vmtos d ma : Statement (.vmtos d ma) := by
  intro hw e he
  obtain rfl := Option.some.inj he
  simp [decodeEnc, decode32, VF.major_pack, VF.unpack_pack, decVLane, acceptIf, accept, lo3_up5, hi2_up5, hw]
theorem vmtosh d ma : Statement (.vmtosh d ma) := by
  intro hw e he
  obtain rfl := Option.some.inj he
  simp [decodeEnc, decode32, VF.major_pack, VF.unpack_pack, decVLane, acceptIf, accept, lo3_up5, hi2_up5, hw]
theorem vstom md a b : Statement (.vstom md a b) := by
  intro hw e he
  obtain rfl := Option.some.inj he
  simp [decodeEnc, decode32, VF.major_pack, VF.unpack_pack, decVLane, acceptIf, accept, lo3_up5, hi2_up5, hw]
theorem mpop d ma : Statement (.mpop d ma) := by
  intro hw e he
  obtain rfl := Option.some.inj he
  simp [decodeEnc, decode32, VF.major_pack, VF.unpack_pack, decVLane, acceptIf, accept, lo3_up5, hi2_up5, hw]
theorem hmov hd ha : Statement (.hmov hd ha) := by
  intro hw e he
  obtain rfl := Option.some.inj he
  simp [decodeEnc, decode32, EF.major_pack, EF.unpack_pack, decHandle, acceptIf, accept, hw]
theorem hld hd x : Statement (.hld hd x) := by
  intro hw e he
  obtain rfl := Option.some.inj he
  simp [decodeEnc, decode32, EF.major_pack, EF.unpack_pack, decHandle, acceptIf, accept, hw]
theorem hst hd x : Statement (.hst hd x) := by
  intro hw e he
  obtain rfl := Option.some.inj he
  simp [decodeEnc, decode32, EF.major_pack, EF.unpack_pack, decHandle, acceptIf, accept, hw]
theorem hsetb hd x : Statement (.hsetb hd x) := by
  intro hw e he
  obtain rfl := Option.some.inj he
  simp [decodeEnc, decode32, EF.major_pack, EF.unpack_pack, decHandle, acceptIf, accept, hw]
theorem hsetd hd x : Statement (.hsetd hd x) := by
  intro hw e he
  obtain rfl := Option.some.inj he
  simp [decodeEnc, decode32, EF.major_pack, EF.unpack_pack, decHandle, acceptIf, accept, hw]
theorem hsets hd x : Statement (.hsets hd x) := by
  intro hw e he
  obtain rfl := Option.some.inj he
  simp [decodeEnc, decode32, EF.major_pack, EF.unpack_pack, decHandle, acceptIf, accept, hw]
theorem hsetf hd x : Statement (.hsetf hd x) := by
  intro hw e he
  obtain rfl := Option.some.inj he
  simp [decodeEnc, decode32, EF.major_pack, EF.unpack_pack, decHandle, acceptIf, accept, hw]
theorem hcur hd x : Statement (.hcur hd x) := by
  intro hw e he
  obtain rfl := Option.some.inj he
  simp [decodeEnc, decode32, EF.major_pack, EF.unpack_pack, decHandle, acceptIf, accept, hw]
theorem hnext hd : Statement (.hnext hd) := by
  intro hw e he
  obtain rfl := Option.some.inj he
  simp [decodeEnc, decode32, EF.major_pack, EF.unpack_pack, decHandle, acceptIf, accept, hw]
theorem hget ha f x : Statement (.hget ha f x) := by
  intro hw e he
  obtain rfl := Option.some.inj he
  simp [decodeEnc, decode32, EF.major_pack, EF.unpack_pack, decHandle, acceptIf, accept, hw]
theorem htaddr ha x : Statement (.htaddr ha x) := by
  intro hw e he
  obtain rfl := Option.some.inj he
  simp [decodeEnc, decode32, EF.major_pack, EF.unpack_pack, decHandle, acceptIf, accept, hw]
theorem mxmul hd ha hb acc x : Statement (.mxmul hd ha hb acc x) := by
  intro hw e he
  obtain rfl := Option.some.inj he
  simp [decodeEnc, decode32, EF.major_pack, EF.unpack_pack, decMxe, accept, hw]
theorem mxgmul hd ha hb acc x : Statement (.mxgmul hd ha hb acc x) := by
  intro hw e he
  obtain rfl := Option.some.inj he
  simp [decodeEnc, decode32, EF.major_pack, EF.unpack_pack, decMxe, accept, hw]
theorem mxrank hd ha hb acc x : Statement (.mxrank hd ha hb acc x) := by
  intro hw e he
  obtain rfl := Option.some.inj he
  simp [decodeEnc, decode32, EF.major_pack, EF.unpack_pack, decMxe, accept, hw]
theorem mxload hd acc x : Statement (.mxload hd acc x) := by
  intro hw e he
  obtain rfl := Option.some.inj he
  simp [decodeEnc, decode32, EF.major_pack, EF.unpack_pack, decMxe, acceptIf, accept, hw]
theorem mxstore hd acc x : Statement (.mxstore hd acc x) := by
  intro hw e he
  obtain rfl := Option.some.inj he
  simp [decodeEnc, decode32, EF.major_pack, EF.unpack_pack, decMxe, acceptIf, accept, hw]
theorem mxzero acc x : Statement (.mxzero acc x) := by
  intro hw e he
  obtain rfl := Option.some.inj he
  simp [decodeEnc, decode32, EF.major_pack, EF.unpack_pack, decMxe, acceptIf, accept, hw]
theorem mxwait x : Statement (.mxwait x) := by
  intro hw e he
  obtain rfl := Option.some.inj he
  simp [decodeEnc, decode32, EF.major_pack, EF.unpack_pack, decMxe, acceptIf, accept, hw]
theorem mxpoll pd x : Statement (.mxpoll pd x) := by
  intro hw e he
  obtain rfl := Option.some.inj he
  simp [decodeEnc, decode32, EF.major_pack, EF.unpack_pack, decMxe, acceptIf, accept, lo3b_up4, hi1_up4, hw]
theorem mxwgt x : Statement (.mxwgt x) := by
  intro hw e he
  obtain rfl := Option.some.inj he
  simp [decodeEnc, decode32, EF.major_pack, EF.unpack_pack, decMxe, acceptIf, accept, hw]
theorem cpy hd ha x : Statement (.cpy hd ha x) := by
  intro hw e he
  obtain rfl := Option.some.inj he
  simp [decodeEnc, decode32, EF.major_pack, EF.unpack_pack, decBtu, acceptIf, accept, hw]
theorem cpyg hd ha hb x : Statement (.cpyg hd ha hb x) := by
  intro hw e he
  obtain rfl := Option.some.inj he
  simp [decodeEnc, decode32, EF.major_pack, EF.unpack_pack, decBtu, acceptIf, accept, hw]
theorem cpyf hd x : Statement (.cpyf hd x) := by
  intro hw e he
  obtain rfl := Option.some.inj he
  simp [decodeEnc, decode32, EF.major_pack, EF.unpack_pack, decBtu, acceptIf, accept, hw]
theorem cpywFill c ha x : Statement (.cpywFill c ha x) := by
  intro hw e he
  obtain rfl := Option.some.inj he
  simp [decodeEnc, decode32, EF.major_pack, EF.unpack_pack, decBtu, acceptIf, accept, lo3b_up4, hi1_up4, hw]
theorem cpywDrain hd c x : Statement (.cpywDrain hd c x) := by
  intro hw e he
  obtain rfl := Option.some.inj he
  simp [decodeEnc, decode32, EF.major_pack, EF.unpack_pack, decBtu, acceptIf, accept, lo3b_up4, hi1_up4, hw]
theorem cpyp pd x : Statement (.cpyp pd x) := by
  intro hw e he
  obtain rfl := Option.some.inj he
  simp [decodeEnc, decode32, EF.major_pack, EF.unpack_pack, decBtu, acceptIf, accept, lo3b_up4, hi1_up4, hw]
theorem rksort hd ha x : Statement (.rksort hd ha x) := by
  intro hw e he
  obtain rfl := Option.some.inj he
  simp [decodeEnc, decode32, EF.major_pack, EF.unpack_pack, decRsu, acceptIf, accept, hw]
theorem rktopk hd ha x : Statement (.rktopk hd ha x) := by
  intro hw e he
  obtain rfl := Option.some.inj he
  simp [decodeEnc, decode32, EF.major_pack, EF.unpack_pack, decRsu, acceptIf, accept, hw]
theorem rktab ha x : Statement (.rktab ha x) := by
  intro hw e he
  obtain rfl := Option.some.inj he
  simp [decodeEnc, decode32, EF.major_pack, EF.unpack_pack, decRsu, acceptIf, accept, hw]
theorem rkval hd ha x : Statement (.rkval hd ha x) := by
  intro hw e he
  obtain rfl := Option.some.inj he
  simp [decodeEnc, decode32, EF.major_pack, EF.unpack_pack, decRsu, acceptIf, accept, hw]
theorem rkwait x : Statement (.rkwait x) := by
  intro hw e he
  obtain rfl := Option.some.inj he
  simp [decodeEnc, decode32, EF.major_pack, EF.unpack_pack, decRsu, acceptIf, accept, hw]
theorem colred hd ha acc x : Statement (.colred hd ha acc x) := by
  intro hw e he
  obtain rfl := Option.some.inj he
  simp [decodeEnc, decode32, EF.major_pack, EF.unpack_pack, decCle, acceptIf, accept, hw]
theorem colbc hd ha x : Statement (.colbc hd ha x) := by
  intro hw e he
  obtain rfl := Option.some.inj he
  simp [decodeEnc, decode32, EF.major_pack, EF.unpack_pack, decCle, acceptIf, accept, hw]
theorem colwait x : Statement (.colwait x) := by
  intro hw e he
  obtain rfl := Option.some.inj he
  simp [decodeEnc, decode32, EF.major_pack, EF.unpack_pack, decCle, acceptIf, accept, hw]
theorem fence kind scope : Statement (.fence kind scope) := by
  intro hw e he
  obtain rfl := Option.some.inj he
  simp only [decodeEnc, decode32, SF.major_pack, SF.unpack_pack, decFence, acceptIf, accept, cut_2_2_8_at_10_2, cut_2_2_8_at_8_2, cut_2_2_8_at_0_8]
  simp [hw]
theorem xfence scope paths : Statement (.xfence scope paths) := by
  intro hw e he
  obtain rfl := Option.some.inj he
  simp only [decodeEnc, decode32, SF.major_pack, SF.unpack_pack, decFence, acceptIf, accept, cut_2_2_8_at_10_2, cut_2_2_8_at_8_2, cut_2_2_8_at_0_8]
  simp [hw]
theorem ifence : Statement (.ifence) := by
  intro hw e he
  obtain rfl := Option.some.inj he
  simp [decodeEnc, decode32, SF.major_pack, SF.unpack_pack, decFence, acceptIf, accept, hw]
theorem quant : Statement (.quant) := by
  intro hw e he
  obtain rfl := Option.some.inj he
  simp [decodeEnc, decode32, SF.major_pack, SF.unpack_pack, decFence, acceptIf, accept, hw]
theorem bar : Statement (.bar) := by
  intro hw e he
  obtain rfl := Option.some.inj he
  simp [decodeEnc, decode32, RF.major_pack, RF.unpack_pack, decPar, acceptIf, accept, hw]
theorem bararv d : Statement (.bararv d) := by
  intro hw e he
  obtain rfl := Option.some.inj he
  simp [decodeEnc, decode32, RF.major_pack, RF.unpack_pack, decPar, acceptIf, accept, hw]
theorem barwt a : Statement (.barwt a) := by
  intro hw e he
  obtain rfl := Option.some.inj he
  simp [decodeEnc, decode32, RF.major_pack, RF.unpack_pack, decPar, acceptIf, accept, hw]
theorem stag a : Statement (.stag a) := by
  intro hw e he
  obtain rfl := Option.some.inj he
  simp [decodeEnc, decode32, RF.major_pack, RF.unpack_pack, decPar, acceptIf, accept, hw]
theorem domq d a : Statement (.domq d a) := by
  intro hw e he
  obtain rfl := Option.some.inj he
  simp [decodeEnc, decode32, RF.major_pack, RF.unpack_pack, decPar, acceptIf, accept, hw]
theorem sleep a : Statement (.sleep a) := by
  intro hw e he
  obtain rfl := Option.some.inj he
  simp [decodeEnc, decode32, RF.major_pack, RF.unpack_pack, decPar, acceptIf, accept, hw]
theorem wake a : Statement (.wake a) := by
  intro hw e he
  obtain rfl := Option.some.inj he
  simp [decodeEnc, decode32, RF.major_pack, RF.unpack_pack, decPar, acceptIf, accept, hw]
theorem cbwaitf c n : Statement (.cbwaitf c n) := by
  intro hw e he
  obtain rfl := Option.some.inj he
  simp only [decodeEnc, decode32, IF.major_pack, IF.unpack_pack, decCbw, accept, lo3_up5, hi2_up5, cut_3_4_8_at_12_3, cut_3_4_8_at_8_4, cut_3_4_8_at_0_8]
  simp [hw]
theorem cbwaite c n : Statement (.cbwaite c n) := by
  intro hw e he
  obtain rfl := Option.some.inj he
  simp only [decodeEnc, decode32, IF.major_pack, IF.unpack_pack, decCbw, accept, lo3_up5, hi2_up5, cut_3_4_8_at_12_3, cut_3_4_8_at_8_4, cut_3_4_8_at_0_8]
  simp [hw]
theorem cbpop c n : Statement (.cbpop c n) := by
  intro hw e he
  obtain rfl := Option.some.inj he
  simp only [decodeEnc, decode32, IF.major_pack, IF.unpack_pack, decCbw, accept, lo3_up5, hi2_up5, cut_3_4_8_at_12_3, cut_3_4_8_at_8_4, cut_3_4_8_at_0_8]
  simp [hw]
theorem cbpush c n : Statement (.cbpush c n) := by
  intro hw e he
  obtain rfl := Option.some.inj he
  simp only [decodeEnc, decode32, IF.major_pack, IF.unpack_pack, decCbw, accept, lo3_up5, hi2_up5, cut_3_4_8_at_12_3, cut_3_4_8_at_8_4, cut_3_4_8_at_0_8]
  simp [hw]
theorem vrtake slots : Statement (.vrtake slots) := by
  intro hw e he
  obtain rfl := Option.some.inj he
  simp only [decodeEnc, decode32, SF.major_pack, SF.unpack_pack, decPool, acceptIf, accept, cut_5_7_at_7_5, cut_5_7_at_0_7]
  simp [hw]
theorem vrtaket pd a slots : Statement (.vrtaket pd a slots) := by
  intro hw e he
  obtain rfl := Option.some.inj he
  simp only [decodeEnc, decode32, SF.major_pack, SF.unpack_pack, decPool, acceptIf, accept, lo3_up5, hi2_up5, cut_5_7_at_7_5, cut_5_7_at_0_7]
  simp [hw]
theorem vrgive slots : Statement (.vrgive slots) := by
  intro hw e he
  obtain rfl := Option.some.inj he
  simp only [decodeEnc, decode32, SF.major_pack, SF.unpack_pack, decPool, acceptIf, accept, cut_5_7_at_7_5, cut_5_7_at_0_7]
  simp [hw]
theorem vrquery d : Statement (.vrquery d) := by
  intro hw e he
  obtain rfl := Option.some.inj he
  simp [decodeEnc, decode32, SF.major_pack, SF.unpack_pack, decPool, acceptIf, accept, hw]
theorem txh hd slot : Statement (.txh hd slot) := by
  intro hw e he
  obtain rfl := Option.some.inj he
  simp only [decodeEnc, decode32, SF.major_pack, SF.unpack_pack, decTx, acceptIf, accept, cut_8_4_at_4_8, cut_8_4_at_0_4, cut_1_4_at_4_1, cut_1_4_at_0_4]
  simp [hw]
theorem txend : Statement (.txend) := by
  intro hw e he
  obtain rfl := Option.some.inj he
  simp [decodeEnc, decode32, SF.major_pack, SF.unpack_pack, decTx, acceptIf, accept, hw]
theorem txinfo d item : Statement (.txinfo d item) := by
  intro hw e he
  obtain rfl := Option.some.inj he
  simp only [decodeEnc, decode32, SF.major_pack, SF.unpack_pack, decTx, acceptIf, accept, cut_8_4_at_4_8, cut_8_4_at_0_4]
  simp [hw]
theorem txtouch a slot w : Statement (.txtouch a slot w) := by
  intro hw e he
  obtain rfl := Option.some.inj he
  simp only [decodeEnc, decode32, SF.major_pack, SF.unpack_pack, decTx, acceptIf, accept, bit_ofBit, cut_7_1_4_at_5_7, cut_7_1_4_at_4_1, cut_7_1_4_at_0_4]
  simp [hw]
theorem txcheck pd a slot w : Statement (.txcheck pd a slot w) := by
  intro hw e he
  obtain rfl := Option.some.inj he
  simp only [decodeEnc, decode32, SF.major_pack, SF.unpack_pack, decTx, acceptIf, accept, bit_ofBit, lo3_up5, hi2_up5, cut_7_1_4_at_5_7, cut_7_1_4_at_4_1, cut_7_1_4_at_0_4]
  simp [hw]
theorem srr d idx : Statement (.srr d idx) := by
  intro hw e he
  obtain rfl := Option.some.inj he
  simp [decodeEnc, decode32, SF.major_pack, SF.unpack_pack, decSys, acceptIf, accept, hw]
theorem srw idx a : Statement (.srw idx a) := by
  intro hw e he
  obtain rfl := Option.some.inj he
  simp [decodeEnc, decode32, SF.major_pack, SF.unpack_pack, decSys, acceptIf, accept, hw]
theorem rng d : Statement (.rng d) := by
  intro hw e he
  obtain rfl := Option.some.inj he
  simp [decodeEnc, decode32, SF.major_pack, SF.unpack_pack, decSys, acceptIf, accept, hw]
theorem rngres d a : Statement (.rngres d a) := by
  intro hw e he
  obtain rfl := Option.some.inj he
  simp [decodeEnc, decode32, SF.major_pack, SF.unpack_pack, decSys, acceptIf, accept, hw]
theorem cyc d : Statement (.cyc d) := by
  intro hw e he
  obtain rfl := Option.some.inj he
  simp [decodeEnc, decode32, SF.major_pack, SF.unpack_pack, decSys, acceptIf, accept, hw]
theorem ecall svc : Statement (.ecall svc) := by
  intro hw e he
  obtain rfl := Option.some.inj he
  simp [decodeEnc, decode32, SF.major_pack, SF.unpack_pack, decSys, acceptIf, accept, hw]
theorem bkpt tag : Statement (.bkpt tag) := by
  intro hw e he
  obtain rfl := Option.some.inj he
  simp [decodeEnc, decode32, SF.major_pack, SF.unpack_pack, decSys, acceptIf, accept, hw]
theorem lrpatch d a word : Statement (.lrpatch d a word) := by
  intro hw e he
  obtain rfl := Option.some.inj he
  simp [decodeEnc, decode32, SF.major_pack, SF.unpack_pack, decLaunch, accept, hw]
theorem lrarm d a : Statement (.lrarm d a) := by
  intro hw e he
  obtain rfl := Option.some.inj he
  simp [decodeEnc, decode32, SF.major_pack, SF.unpack_pack, decLaunch, acceptIf, accept, hw]
theorem lrwait d a : Statement (.lrwait d a) := by
  intro hw e he
  obtain rfl := Option.some.inj he
  simp [decodeEnc, decode32, SF.major_pack, SF.unpack_pack, decLaunch, acceptIf, accept, hw]
theorem lrstat d a : Statement (.lrstat d a) := by
  intro hw e he
  obtain rfl := Option.some.inj he
  simp [decodeEnc, decode32, SF.major_pack, SF.unpack_pack, decLaunch, acceptIf, accept, hw]

end Sys2Proof.Laws.Encoding
end

