-- ==== Sys2Proof/Laws/Scalar.lean ====
section
/-! SUPPORT. What the shared scalar operations do when they retire, and the scalar results in the terms of R107 and R108. -/

namespace Sys2Proof.Machine

/-! The shared operations. -/

theorem aluOp_run {g : Guard} {s : State} (d : SReg) (f : Thread → Word) (h : s.me.mayRetire) (hg : s.me.guard g = true) :
    aluOp g d f s = .next ((s.upMe (fun t => t.ws d (f t))).retire s.cur (s.me.pc + 4)) := guarded_true h hg

theorem aluOp_off {g : Guard} {s : State} (d : SReg) (f : Thread → Word) (h : s.me.mayRetire) (hg : s.me.guard g = false) :
    aluOp g d f s = .next (s.retire s.cur (s.me.pc + 4)) := guarded_false _ h hg

theorem predOp_run {g : Guard} {s : State} (d : PReg) (f : Thread → Bool) (h : s.me.mayRetire) (hg : s.me.guard g = true) :
    predOp g d f s = .next ((s.upMe (fun t => t.wp d (f t))).retire s.cur (s.me.pc + 4)) := guarded_true h hg

theorem predOp_off {g : Guard} {s : State} (d : PReg) (f : Thread → Bool) (h : s.me.mayRetire) (hg : s.me.guard g = false) :
    predOp g d f s = .next (s.retire s.cur (s.me.pc + 4)) := guarded_false _ h hg

theorem immOp_run {s : State} (d : SReg) (f : Thread → Word) (h : s.me.mayRetire) :
    immOp d f s = .next ((s.upMe (fun t => t.ws d (f t))).retire s.cur (s.me.pc + 4)) := seq32_ok h

theorem constOp_run {s : State} (d : SReg) (k n : Nat) (f : Thread → Word) (h : s.me.mayRetire)
    (hp : s.myCore.poisonedAt (4 * k) (4 * n) = false) :
    constOp d k n f s = .next ((s.upMe (fun t => t.ws d (f t))).retire s.cur (s.me.pc + 4)) := by
  unfold constOp unpoisoned
  rw [hp]
  exact seq32_ok h

theorem cmpiOp_run {s : State} (d : PReg) (f : Thread → Bool) (h : s.me.mayRetire) :
    cmpiOp d f s = .next ((s.upMe (fun t => t.wp d (f t))).retire s.cur (s.me.pc + 4)) := seq32_ok h

/-! Results. -/

theorem mulHighU_eq (a b : Word) : mulHighU a b = BitVec.ofNat 64 (a.toNat * b.toNat / 2 ^ 64) := by
  apply BitVec.eq_of_toNat_eq
  have hp : a.toNat * b.toNat < 2 ^ 128 := Nat.lt_of_lt_of_le (Nat.mul_lt_mul'' a.isLt b.isLt) (by decide)
  have hm : ((a.setWidth 128) * (b.setWidth 128)).toNat = a.toNat * b.toNat := by
    rw [BitVec.toNat_mul, BitVec.toNat_setWidth_of_le (by decide), BitVec.toNat_setWidth_of_le (by decide), Nat.mod_eq_of_lt hp]
  rw [mulHighU, BitVec.extractLsb'_toNat, hm, BitVec.toNat_ofNat, Nat.shiftRight_eq_div_pow]

theorem mulHigh_eq (a b : Word) : mulHigh a b = BitVec.ofInt 64 (a.toInt * b.toInt / 2 ^ 64) := by
  have hm : a.signExtend 128 * b.signExtend 128 = BitVec.ofInt 128 (a.toInt * b.toInt) := by
    rw [BitVec.ofInt_mul]; rfl
  unfold mulHigh
  rw [hm]
  generalize a.toInt * b.toInt = n
  apply BitVec.eq_of_toNat_eq
  simp only [BitVec.extractLsb'_toNat, BitVec.toNat_ofInt, Nat.shiftRight_eq_div_pow]
  omega

theorem remSigned_eq (a b : Word) :
    remSigned a b = if b = 0 then a else BitVec.ofInt 64 (a.toInt - b.toInt * a.toInt.tdiv b.toInt) := by
  simp [remSigned, Int.tmod_def]

theorem remUnsigned_eq (a b : Word) :
    remUnsigned a b = if b = 0 then a else BitVec.ofNat 64 (a.toNat - b.toNat * (a.toNat / b.toNat)) := by
  simp [remUnsigned, Nat.mod_def]

end Sys2Proof.Machine
end

