-- ==== Sys2Proof/Laws/Vector.lean ====
section
/-! SUPPORT. What the shared operations of the vector instructions do: reading names, writing one, lanes under a mask, and the body
of a vector instruction; and that a scratchpad write keeps the canonical form. -/

namespace Sys2Proof.Machine

/-! Reading and writing names. -/

theorem Thread.vRead_slot {t : Thread} {w : Nat} {n : VName} (h : n.val < 28) : t.vRead w n = (t, (t.vSlot n).getD 0) := by
  simp [Thread.vRead, h]

theorem Thread.vRead_ldq (t : Thread) (w : Nat) : t.vRead w 28 = ({ t with ldq := t.ldq.drop 1 }, t.ldq.headD 0) := rfl
theorem Thread.vRead_sdq (t : Thread) (w : Nat) : t.vRead w 29 = ({ t with sdq := t.sdq.drop 1 }, t.sdq.headD 0) := rfl
theorem Thread.vRead_zero (t : Thread) (w : Nat) : t.vRead w 30 = (t, 0) := rfl
theorem Thread.vRead_iota (t : Thread) (w : Nat) : t.vRead w 31 = (t, iota w) := rfl

/-- Reading a name can take an entry from a queue; nothing else of the thread moves. -/
theorem Thread.vRead_queues (t : Thread) (w : Nat) (n : VName) :
    ∃ q r, (t.vRead w n).1 = { t with ldq := q, sdq := r } := by
  unfold Thread.vRead
  split
  · exact ⟨_, _, rfl⟩
  split
  · exact ⟨_, t.sdq, rfl⟩
  split
  · exact ⟨t.ldq, _, rfl⟩
  split <;> exact ⟨_, _, rfl⟩

theorem Thread.vReads_queues (w : Nat) (l : List VName) (t : Thread) :
    ∃ q r, (t.vReads w l).1 = { t with ldq := q, sdq := r } := by
  induction l generalizing t with
  | nil => exact ⟨_, _, rfl⟩
  | cons n l ih =>
    obtain ⟨q, r, h⟩ := t.vRead_queues w n
    obtain ⟨q', r', h'⟩ := ih (t.vRead w n).1
    refine ⟨q', r', ?_⟩
    simp only [Thread.vReads]
    rw [h', h]

/-- Writing a name changes the slots, the LDQ or the SDQ, and nothing else of the thread. -/
theorem Thread.vWrite_vector (t : Thread) (n : VName) (v : VReg) :
    ∃ sl q r, t.vWrite n v = { t with slots := sl, ldq := q, sdq := r } := by
  unfold Thread.vWrite
  split
  · split
    · exact ⟨_, t.ldq, t.sdq, rfl⟩
    · exact ⟨_, _, _, rfl⟩
  split
  · exact ⟨t.slots, _, t.sdq, rfl⟩
  split
  · exact ⟨t.slots, t.ldq, _, rfl⟩
  · exact ⟨_, _, _, rfl⟩

theorem Thread.vWrite_discard {t : Thread} {n : VName} (v : VReg) (h : n = 30 ∨ n = 31) : t.vWrite n v = t := by
  rcases h with rfl | rfl <;> rfl

/-! Lanes under a mask. -/

/-- With no active lane every lane keeps its old value and no flag is raised. -/
theorem maskedLanes_none (w : Nat) (old : VReg) (f : Nat → Nat × BitVec 5) :
    maskedLanes w 0 old f = (packLanes w (unpackLanes w old), 0) := by
  have h : ∀ l : List Nat, (l.map (fun i => (lane w i old, (0 : BitVec 5)))).foldl (fun a r => a ||| r.2) (0 : BitVec 5) = 0 := by
    intro l; induction l with
    | nil => rfl
    | cons a l ih => simpa using ih
  have hb : ∀ i, (0 : Mask).getLsbD i = false := fun i => BitVec.getLsbD_zero
  simp only [maskedLanes, tabulate, unpackLanes, List.map_map, Function.comp_def, hb, Bool.false_eq_true, if_false, h]

/-! The body of a vector instruction. -/

theorem vBody_ok {s : State} {w : Nat} {reads : List VName} {vd : VName} (f : VFun) (h : vCheck s.me reads [vd] = .ok ()) :
    vBody s w reads vd f = .ok (s.setMe
      (((s.me.vReads w reads).1.vWrite vd
          (f (s.me.vReads w reads).1 (s.me.vReads w reads).2 ((s.me.vReads w reads).1.vOld vd)).1).orFlags
        (f (s.me.vReads w reads).1 (s.me.vReads w reads).2 ((s.me.vReads w reads).1.vOld vd)).2)) := by
  simp only [vBody, h]; rfl

theorem vBody_error {s : State} {w : Nat} {reads : List VName} {vd : VName} {e : Stop} (f : VFun)
    (h : vCheck s.me reads [vd] = .error e) : vBody s w reads vd f = .error e := by
  simp only [vBody, h]; rfl

/-- A vector instruction whose checks pass writes its destination, collects its flags and retires. -/
theorem vOp_ok {s : State} {esz : BitVec 2} {reads : List VName} {vd : VName} (f : VFun) (hr : s.me.mayRetire)
    (h : vCheck s.me reads [vd] = .ok ()) :
    vOp esz reads vd f s = .next ((s.setMe
      (((s.me.vReads (eszW esz) reads).1.vWrite vd
          (f (s.me.vReads (eszW esz) reads).1 (s.me.vReads (eszW esz) reads).2 ((s.me.vReads (eszW esz) reads).1.vOld vd)).1).orFlags
        (f (s.me.vReads (eszW esz) reads).1 (s.me.vReads (eszW esz) reads).2
          ((s.me.vReads (eszW esz) reads).1.vOld vd)).2)).retire s.cur (s.me.pc + 4)) := by
  rw [vOp, vBody_ok f h, seq32_ok hr]

/-! Scratchpads. -/

theorem Core.scratchWrite_wf {c : Core} (a : Nat) (bs : List Byte) (h : c.scratch.wf = true) : (c.scratchWrite a bs).scratch.wf = true :=
  Memory.writeBytes_wf a bs h

theorem Core.engineWrite_wf {c : Core} (a : Nat) (bs : List Byte) (h : c.scratch.wf = true) : (c.engineWrite a bs).scratch.wf = true := by
  have : ∀ (l : List Nat) (c : Core), (l.foldl (fun c g => c.setFull g) c).scratch = c.scratch := by
    intro l; induction l with
    | nil => intro c; rfl
    | cons a l ih => intro c; rw [List.foldl_cons, ih]; rfl
  rw [Core.engineWrite, this]
  exact Core.scratchWrite_wf a bs h

end Sys2Proof.Machine
end

