-- ==== Sys2Proof/Tests/Slice0.lean ====
section
/-! SUPPORT. The model's own tests: words of the spec's worked encodings, ill-formed terms, a state and operands that meet the
hypotheses of each statement, and single steps on a small state. -/

set_option Elab.async false

namespace Sys2Proof.Tests
open Sys2Proof Sys2Proof.Machine

/-! Decoding: the words the spec writes out, with its byte order, and their instructions. -/

/-- Each word decodes to its instruction. -/
noncomputable def decodes (l : List (Nat × Instr)) : Bool := l.all (fun x => decodeTableWord 32 x.1 == some x.2)

/-- R13, R112, R123 and the loop of the scalar example. -/
theorem test_decode_scalar : decodes [(0x000C5203, .add ⟨false, 0⟩ 4 5 6), (0x48D00291, .addi 5 0 0x2468), (0xFFFA6291, .addi 5 6 0x7FFD),
    (0xACF0529B, .ldhi 5 5 0x5678), (0x0000309D, .cmpiEq 1 3 0), (0x10262089, .cmpltu ⟨false, 0⟩ 1 2 19), (0x40388419, .srli 8 8 28),
    (0x000050B9, .br false 1 10), (0x000C303D, .loop 3 6), (0x001A303D, .loop 3 13), (0x0800003F, .halt), (0x140001BF, .cleave 3),
    (0x1400003F, .cleave 0)] = true := by decide +kernel

/-- R118 and R113: words laid out by hand from R67, R69 and R70. -/
theorem test_decode_call_and_constants : decodes [(0x0000103B, .call false 0 2), (0x0000F03F, .jr ⟨false, 0⟩ 15), (0x040A0221, .kadd 4 0 5),
    (0x00020221, .kld 4 1)] = true := by decide +kernel

/-- R114, R239 and R254. -/
theorem test_decode_memory : decodes [(0x000C22A9, .ld 5 2 false 3 false 0), (0xFF9893A9, .ld 7 9 false 2 true 0x3FE), (0x004C7429, .ld 8 7 false 3 false 1),
    (0x00BE922D, .ldfe 4 9 3 true true 2), (0x000A92AF, .stfe 5 9 2 0), (0x497C2231, .acas 4 2 5 true 3), (0x58C82031, .afaddD 2 3 0),
    (0x31CC8331, .aminu 6 8 7 true 0), (0x12CCC031, .aor 0 12 11 true 0), (0x074D9031, .aadd 0 25 29 true 0), (0x600862B1, .accinit 5 6 0),
    (0x14000071, .fence 2 2), (0x02000071, .fence 0 1), (0x22060071, .xfence 1 3), (0x200C0071, .xfence 0 6), (0x40000071, .ifence),
    (0x60000071, .quant)] = true := by decide +kernel

/-- R135, R143, R161 and the vector words of the programs. -/
theorem test_decode_vector : decodes [(0x048C5255, .vfma 2 2 4 5 6), (0x50123147, .vcvt 10 9 0 0 2 3), (0x184C0247, .vcvt 3 6 0 1 4 0),
    (0x044221D1, .vgath 2 1 3 2 1), (0x364063C9, .vror 3 1 7 6), (0x440000C9, .vfrsum 2 0 1 0), (0x280040D9, .vstom 1 4 0),
    (0x00060175, .cbwaitf 2 3), (0x40020175, .cbpop 2 1), (0x51C01861, .htaddr 3 7), (0x08C001E1, .hld 3 3)] = true := by decide +kernel

/-- R198 and R297. -/
theorem test_decode_parallel : decodes [(0x00000073, .bar), (0x04000273, .bararv 4), (0x08004073, .barwt 4), (0x0C009073, .stag 9),
    (0x100062F3, .domq 5 6), (0x14007073, .sleep 7), (0x18008073, .wake 8), (0x000C0077, .vrtake 6), (0x200C5177, .vrtaket 2 5 6),
    (0x40020077, .vrgive 1), (0x600001F7, .vrquery 3), (0x0002537D, .lrpatch 6 5 1), (0x2000527D, .lrarm 4 5), (0x400043FD, .lrwait 7 4),
    (0x600043FD, .lrstat 7 4), (0x00020179, .txh 2 1), (0x20000079, .txend), (0x400402F9, .txinfo 5 2), (0x60266079, .txtouch 6 3 true),
    (0x800060F9, .txcheck 1 6 0 false)] = true := by decide +kernel

/-- R131 and R407: SRR, SRW and RNG. -/
theorem test_decode_system : decodes [(0x0002027B, .srr 4 1), (0x08C4027B, .srr 4 0x462), (0x08E0027B, .srr 4 0x470), (0x2064507B, .srw 0x032 5),
    (0x2058507B, .srw 0x02C 5), (0x4000027B, .rng 4)] = true := by decide +kernel

/-- R318, R331 and the words of the programs. -/
theorem test_decode_engines : decodes [(0x024A1969, .mxmul 2 3 4 1 9), (0x0B121869, .mxgmul 0 3 4 2 12), (0x12DC3B69, .mxrank 6 7 8 3 11),
    (0x1A8802E9, .mxload 5 1 10), (0x228802E9, .mxstore 5 1 10), (0x2A480069, .mxzero 1 9), (0x32400069, .mxwait 9), (0x3A400169, .mxpoll 2 9),
    (0x41000069, .mxwgt 4), (0x0240196D, .rksort 2 3 9), (0x0A402A6D, .rktopk 4 5 9), (0x1280306D, .rktab 6 10), (0x1AC043ED, .rkval 7 8 11),
    (0x2240006D, .rkwait 9), (0x0280096B, .cpy 2 1 10), (0x2280016B, .cpyp 2 10)] = true := by decide +kernel

/-- R135, R85: halfwords. -/
theorem test_decode_halfwords : decodeTableWord 16 0x70EC = some (.vmax16 false 7 28) ∧ decodeTableWord 16 0 = none := by decide +kernel

/-- R74, R86, R103: words that are no instruction: an unassigned major, an all-ones word, a nonzero unused bit, CLEAVE with bits below
its index. -/
theorem test_decode_illegal : ([0x00000001, 0xFFFFFFFF, 0x00010073, 0x140001FF, 0x144001BF,
    0x20000071].all (fun w => decodeTableWord 32 w == none)) = true := by decide +kernel

/-! Well-formedness: an ill-formed term for each check. -/

/-- Each check refuses a term: R73, R113, R121, R12, R133, R140, R138, R95, R344, R247, R249, R154, R180, R23, and events that name an
agent that does not exist. -/
theorem test_wf_refuses : ([.add ⟨true, 0⟩ 1 2 3, .br true 0 5, .call true 0 5, .jr ⟨true, 0⟩ 1, .kldd 1 3, .loop 1 0, .loop 1 0x4000,
    .vadd 2 0 28 1 2, .vadd 2 0 1 29 2, .vadd 2 0 1 2 29, .vfadd 0 0 1 2 3, .vexp2 3 0 1 2, .vmac 3 0 1 2 3, .vfma 2 0 29 1 2,
    .vcvt 0x0E 9 0 0 1 2, .vcvt 10 0x0E 0 0 1 2, .vcvt 10 9 1 0 1 2, .vcvt 0 9 2 0 1 2, .colred 1 2 6 3, .fence 3 0, .xfence 1 4,
    .cbwaitf 1 0, .cbwaite 1 0, .cbpop 1 0, .cbpush 1 0, .vrtake 0, .vrtaket 1 2 0, .vrgive 0, .srr 1 0x029, .srr 1 0x3FF, .srw 0 1,
    .srw 0x003 1, .mxeStep 288, .barrierLeave 2304, .sliceComplete ⟨9, 0, 0⟩, .sliceComplete ⟨0, 256, 0⟩, .sliceComplete ⟨0, 0, 8⟩,
    .leaseIssue ⟨1, 0, 32⟩] : List Instr).all (fun i => !i.wf) = true := by decide +kernel

/-- The same terms within their bounds are well-formed. -/
theorem test_wf_accepts : ([.add ⟨true, 1⟩ 1 2 3, .br false 0 5, .kldd 1 2, .loop 1 0x3FFF, .vadd 2 0 29 28 27, .vfadd 1 0 1 2 3,
    .vexp2 2 0 1 2, .vmac 2 0 1 2 3, .vcvt 10 9 0 0 1 2, .colred 1 2 5 3, .fence 2 3, .xfence 1 3, .cbpop 1 1, .vrtake 0x40, .srr 1 1, .srw 1 1,
    .mxeStep 287, .sliceComplete ⟨8, 255, 7⟩, .leaseIssue ⟨1, 0, 31⟩] : List Instr).all Instr.wf = true := by decide +kernel

/-! Small states. -/

/-- A ready kernel thread on slot 0 of core 0 of die 0, at PC 0, with nothing else in the machine. -/
def base : State := State.reset.withFetchWord 32 0x0800003F
/-- The same with its thread changed. -/
def on (f : Thread → Thread) : State := base.upMe f
/-- The same with registers s1 to s3. -/
def regs (x y z : Word) : State := on (fun t => ((t.ws 1 x).ws 2 y).ws 3 z)
/-- A supervisor thread with registers s1 to s3. -/
def sup (x y z : Word) : State := (regs x y z).upMe (fun t => { t with bind := { t.bind with sup := true } })
/-- A transaction binding with nothing in its set. -/
def txn0 : TxnBinding where
  rn := 0
  idx := 0
  recon := false
  restarts := 0
  slots := Vector.replicate 16 none
  stgBase := 0
  stgNeed := 0
  retired := 0
  reconLaunch := false
/-- A transaction thread. -/
def inTx (b : TxnBinding) : State := on (fun t => { t with txn := some b, bind := { t.bind with txn := true } })
/-- A mapped user page: line 0 of address 0 stands in the L2's records at physical line 5. -/
def mapped (s : State) : State := s.upPkg (fun p => { p with l2 := [⟨none, 0, 5, true, true, true, true, false⟩] })
/-- The grant of that line. -/
def grant5 : Grant := ⟨5, true, false⟩

/-- Whether a thread may retire, as a computation. -/
def mayRun (t : Thread) : Bool :=
  if t.bind.txn then (match t.txn with | some b => decide (b.retired < t.bind.txmax) | none => true)
  else decide (t.clvcnt < t.bind.clvmax)

theorem mayRetire_iff (t : Thread) : t.mayRetire ↔ mayRun t = true := by
  unfold Thread.mayRetire mayRun
  split
  · cases h : t.txn <;> simp
  · simp

/-- A result that is no error. -/
def isOk {ε α : Type} : Except ε α → Bool
  | .ok _ => true
  | .error _ => false

/-! A state and operands that meet the hypotheses of each statement, clause by clause. -/

theorem witness_ScalarOperations : base.me.mayRetire ∧ base.me.guard ⟨false, 0⟩ = true := by
  rw [mayRetire_iff]; decide +kernel

theorem witness_BitOperations : (regs 1 0 0).me.mayRetire ∧ (regs 1 0 0).me.guard ⟨true, 7⟩ = true := by
  rw [mayRetire_iff]; decide +kernel

theorem witness_ImmediateAndConstantForms :
    (regs 1 2 3).me.mayRetire ∧ (regs 1 2 3).myCore.poisonedAt (4 * (255 : BitVec 8).toNat) 8 = false := by
  rw [mayRetire_iff]; decide +kernel

theorem witness_GuardsAndLimits :
    base.me.mayRetire ∧ base.me.guard ⟨false, 1⟩ = false ∧ base.me.guard ⟨false, 0⟩ = true ∧
    (let s := on (fun t => { t with clvcnt := 65536 })
     s.me.guard ⟨false, 1⟩ = false ∧ s.me.bind.txn = false ∧ s.me.clvcnt = s.me.bind.clvmax) ∧
    (let b := { txn0 with retired := 1048576 }
     let s := inTx b
     s.me.guard ⟨false, 1⟩ = false ∧ s.me.bind.txn = true ∧ s.me.txn = some b ∧ b.retired = s.me.bind.txmax) := by
  rw [mayRetire_iff]; decide +kernel

theorem witness_ControlTransfers :
    (regs 0x100 1 2).me.mayRetire ∧
    (let s := regs 0x100 1 2
     s.me.pc.getLsbD 0 = false ∧ s.me.guard ⟨false, 0⟩ = true ∧ (s.me.rs 1).getLsbD 0 = false ∧ (s.me.rs 30).getLsbD 0 = false ∧
     (s.me.rs 2).getLsbD 0 = true ∧ s.me.rs 0 = 0 ∧ s.me.rs 2 = 1 ∧ s.me.rs 3 ≠ 0 ∧ s.me.rs 3 ≠ 1) ∧
    (let s := on (fun t => { t.ws 30 1 with pc := 1 })
     s.me.pc.getLsbD 0 = true ∧ (s.me.rp 0 != false) = true ∧ s.me.guard ⟨false, 0⟩ = true ∧ (s.me.rs 30).getLsbD 0 = true) := by
  rw [mayRetire_iff]; decide +kernel

/-- A code object with two cleavage entries for the launch of `base`. -/
def cleaving (f : Thread → Thread) : State :=
  (on f).upPkg (fun p => { p with images := p.images.map (fun i => { i with cleave := [(1, 0), (0, 0xFFFFFFFF)] }) })

theorem witness_HaltAndCleave :
    (let s := cleaving (fun t => { t with bind := { t.bind with txn := true } })
     s.cleaveEntry s.me 0 = some (1, 0) ∧ s.me.bind.txn = true ∧ mayRun s.me = true) ∧
    (let s := cleaving id
     s.cleaveEntry s.me 0 = some (1, 0) ∧ s.me.bind.txn = false ∧ s.me.rebuild = none ∧ s.me.d2 = false ∧ s.me.preempt = false ∧
     s.capPending s.me = false ∧ s.cleaveEntry s.me 1 = none ∧ s.cleaveEntry s.me 2 = none) ∧
    (let s := cleaving (fun t => { t with evm := 1, bind := { t.bind with capev := true } })
     s.cleaveEntry s.me 0 = some (1, 0) ∧ s.me.bind.txn = false ∧ s.me.rebuild = none ∧ s.me.d2 = false ∧ s.me.preempt = false ∧
     s.capPending s.me = true) ∧
    (let s := cleaving (fun t => { t with rebuild := some ⟨1, 0⟩ })
     s.cleaveEntry s.me 0 = some (1, 0) ∧ s.me.bind.txn = false ∧ s.me.rebuild = some ⟨1, 0⟩) := by decide +kernel

theorem witness_Retirement : (base.thread base.cur).d2 = false ∧ (⟨0, 0, 1⟩ : Tid).key ≠ base.cur.key := by decide +kernel

theorem witness_FaultEntryAndReturn :
    base.me.mayRetire ∧ (⟨0, 0, 1⟩ : Tid).key ≠ base.cur.key ∧ 1 ≠ base.cur.die ∧
    (let s := base.freeze base.cur ⟨.BREAK, 0, 7, 0⟩
     (s.thread s.cur).status = .frozen ⟨.BREAK, 0, 7, 0⟩ ∧ (s.thread s.cur).d2 = false) ∧
    (let s := base.freeze base.cur ⟨.TX_UNSTABLE, 0, 0, 0⟩
     (s.thread s.cur).status = .frozen ⟨.TX_UNSTABLE, 0, 0, 0⟩) ∧
    (base.thread base.cur).status = .ready := by
  rw [mayRetire_iff]; decide +kernel

theorem witness_SpecialRegisters :
    (sup 5 6 7).me.mayRetire ∧ (sup 5 6 7).me.bind.sup = true ∧ (sup 5 6 7).cbFilling (sup 5 6 7).cur 7 = false ∧
    (sup 5 6 7).cbDraining (sup 5 6 7).cur 7 = false ∧
    (let s := sup 5 6 7
     s.cur.tnum < 8 ∧ s.me.bind.level < 8 ∧ s.me.bind.det < 4 ∧ s.me.bind.gsize < 2 ^ 32 ∧ s.launch? s.me.bind.lid = some Launch.blank ∧
     s.coresInService < 2 ^ 12) := by
  rw [mayRetire_iff]; decide +kernel

theorem witness_Privilege :
    base.me.bind.sup = false ∧ ∀ i ∈ [(0x400 : BitVec 12), 0x7FF], 0x400 ≤ i.toNat ∧ i.toNat < 0x800 := by decide +kernel

theorem witness_Commands :
    (sup 0x10000 0 0).me.mayRetire ∧ (sup 0x10000 0 0).me.bind.sup = true ∧
    (sup 0x10000 0 0).launch? (sup 0x10000 0 0).me.bind.lid = some Launch.blank ∧
    (let s := (regs 1 0 0).upBank 0 0 (fun b => { b with owner := some base.cur, inuse := true })
     (s.ownedBanks s.cur).length = 1 ∧ s.bankBusy s.cur 0 0 = false ∧ (s.me.rs 1).getLsbD 0 = true ∧
     ∃ e ∈ s.ownedBanks s.cur, e.1 = 0 ∧ e.2.1 = 0) := by
  rw [mayRetire_iff]; decide +kernel

/-- A registered array of one tile. -/
def array0 : TileArray := ⟨0, 0, 0x0A, 0, 0, 1, 1, false, true, [], 0⟩

/-- Page tables that map page 0 of address space 0 at physical address 0x40000, readable, writable and for users, under a leaf. -/
def pagedAs (leaf : Nat) (s : State) : State :=
  { s with mem := (((Memory.writeBytes [] 0 (leBytes 8 0x10001)).writeBytes 0x10000 (leBytes 8 0x20001)).writeBytes 0x20000
      (leBytes 8 0x30001)).writeBytes 0x30000 (leBytes 8 leaf) }

/-- A supervisor thread whose s1 names the descriptor, in its L1, of an array of one tile of 8 × 8 numbers at 0x100 on a pinned page. -/
def registering : State :=
  (pagedAs 0x403AF (sup 0 0 0)).upMyCore (fun c => { c with l1 := [⟨some 0, 0, true, true, 0x400, 3, 0,
    BitVec.ofNat 2048 (0x100 + 0x0A * 2 ^ 80 + 0x33 * 2 ^ 88 + 8 * 2 ^ 96 + 8 * 2 ^ 112 + 2 * 2 ^ 128), 0, []⟩] })

theorem witness_SupervisorCommands :
    (sup 0 1 0x10000).me.mayRetire ∧
    (let s := (sup 0 1 0x40000).upPkg (fun p => { p with arrays := [(0, array0)] })
     s.me.bind.sup = true ∧ s.spilledOn 0 = 0 ∧ s.myDie.frames = [] ∧ s.stagingLive 0 = false ∧ (s.me.rs 1).getLsbD 18 = false ∧
     (s.me.rs 2).toNat % 32 ≠ 0 ∧ (s.me.rs 1).toNat % 2 ^ 55 < 1024 ∧
     Assoc.find ((s.me.rs 1).toNat % 2 ^ 55) s.pkg.arrays = some array0 ∧ s.arrayBusy ((s.me.rs 1).toNat % 2 ^ 55) = false ∧
     array0.pod = false ∧ (s.me.rs 3).getLsbD 18 = true ∧
     s.pinnedBy ((s.me.rs 3).getLsbD 16) ((s.me.rs 3).setWidth 16) (pginvPages (s.me.rs 3)) = true) ∧
    (let v : Word := 0x60000
     let s := sup v 0 0
     s.me.rs 1 = v ∧ v.getLsbD 16 = false ∧ v.getLsbD 17 = true ∧ v.getLsbD 18 = true ∧
     s.pinnedBy (v.getLsbD 16) (v.setWidth 16) (pginvPages v) = false) ∧
    (let s := registering
     mayRun s.me = true ∧ s.me.bind.sup = true ∧ (match readDescriptor s ((s.me.rs 1).toNat % 2 ^ 55) with
      | .ok (z, some x) => !x.pod && z.pkg.arrays.all (fun e => !e.2.overlaps x) && (match z.pinAll x x.pages with
        | some (_, y) => (z.freeArray y.pod).isSome
        | none => false)
      | _ => false) = true) := by
  rw [mayRetire_iff]; decide +kernel

theorem witness_RandomAndCycles :
    (regs (BitVec.allOnes 64) 1 2).me.mayRetire ∧
    (let s := regs (BitVec.allOnes 64) 1 2
     (s.me.rs 0).toNat = 0 ∧ (s.me.rs 2).toNat ≠ 0 ∧ (s.me.rs 1).toNat + (s.me.rs 2).toNat ≤ 2 ^ 64 ∧
     2 ^ 64 < (s.me.rs 1).toNat + (s.me.rs 3).toNat ∧
     (∀ e ∈ s.pkg.rng, e.asid = s.me.bind.asid → e.seed = s.me.bind.seed → e.base + e.count ≤ 0 ∨ 1 ≤ e.base) ∧
     s.pkg.rng.length < 1024) ∧
    (let s := (regs 0 1 2).upPkg (fun p => { p with rng := List.replicate 1024 ⟨1, 0, 0, 1⟩ })
     s.pkg.rng.length = 1024 ∧ ∀ e ∈ s.pkg.rng, e.asid ≠ s.me.bind.asid) ∧
    (let s := (regs 4 1 2).upPkg (fun p => { p with rng := [⟨0, 0, 0, 5⟩] })
     (s.me.rs 2).toNat ≠ 0 ∧ (s.me.rs 1).toNat + (s.me.rs 2).toNat ≤ 2 ^ 64 ∧
     (∃ e ∈ s.pkg.rng, e.asid = s.me.bind.asid ∧ e.seed = s.me.bind.seed ∧ (s.me.rs 1).toNat < e.base + e.count ∧
       e.base < (s.me.rs 1).toNat + (s.me.rs 2).toNat) ∧
     s.launch? s.me.bind.lid = some Launch.blank ∧ Launch.blank.state.final = false ∧ Launch.blank.killed = none) := by
  rw [mayRetire_iff]; decide +kernel

/-- What `Claims.plainThread` asks, as a computation. -/
def plain (s : State) : Bool := mayRun s.me && !s.me.bind.txn && s.me.txn.isNone && s.me.bind.det != 2 && s.memoryOk

theorem plain_iff {s : State} (h : plain s = true) : Claims.plainThread s := by
  simp only [plain, Bool.and_eq_true, Bool.not_eq_true', bne_iff_ne, Option.isNone_iff_eq_none] at h
  obtain ⟨⟨⟨⟨h1, h2⟩, h3⟩, h4⟩, h5⟩ := h
  exact ⟨(mayRetire_iff _).2 h1, h2, h3, h4, h5⟩

theorem witness_ScratchAccesses :
    (Claims.plainThread (regs 0x400 0x3FF 0) ∧ Claims.plainThread (sup 8 0 0)) ∧
    (let s := regs 0x400 (BitVec.ofNat 64 (State.reset.core 0).scratchSize) 0
     Claims.dataAddress s 1 3 0 % 8 = 0 ∧ Claims.dataAddress s 1 3 0 + 8 ≤ s.myCore.scratchSize ∧ 0x400 ≤ Claims.dataAddress s 1 3 0 ∧
     Claims.dataAddress s 1 3 0x3FF < 0x400 ∧ Claims.dataAddress s 1 3 0x3FF % 8 = 0 ∧ s.me.bind.sup = false ∧ s.me.bind.txn = false ∧
     Claims.dataAddress s 2 3 0 % 8 = 0 ∧ s.myCore.scratchSize < Claims.dataAddress s 2 3 0 + 8 ∧
     Claims.dataAddress s 2 3 0x3FF + 8 = s.myCore.scratchSize) ∧
    (let s := regs 0x401 0 0
     Claims.dataAddress s 1 3 0 % 8 ≠ 0 ∧ s.me.bind.txn = false) ∧
    (let s := (regs 0x400 0 0).upMyCore (fun c => { c with poison := [(128, 1)] })
     Claims.plainThread s ∧ s.myCore.poisonedAt (Claims.dataAddress s 1 3 0) 8 = true ∧ s.myCore.poisonedAt (Claims.dataAddress s 1 3 1) 8 = false) ∧
    (let s := inTx txn0
     s.me.bind.txn = true ∧ s.me.inPass = false) :=
  ⟨⟨plain_iff (by decide +kernel), plain_iff (by decide +kernel)⟩, by decide +kernel, by decide +kernel, ⟨plain_iff (by decide +kernel), by decide +kernel⟩,
    by decide +kernel⟩

/-- A machine with an L1 quota of 0. -/
def noL1 (s : State) : State := s.upMyCore (fun c => { c with l1q := 0 })

/-- The grant of line 0 in a machine that maps it. -/
theorem granted_mapped (s : State) (k : AccessKind) (h : grantData (mapped s) 0 k = .ok (mapped s, grant5))
    (n : (mapped s).myCore.lineIx (mapped s).me.bind.asid 0 = none) :
    Claims.granted (mapped s) 0 k (mapped s) grant5 := ⟨h, by decide, fun _ hi => nomatch n.symm.trans hi⟩

theorem witness_GlobalLoadsAndStores :
    Claims.plainThread (mapped (noL1 (regs 0 0xF8 0))) ∧
    (∀ k ∈ [AccessKind.read, .write], Claims.granted (mapped (noL1 (regs 0 0xF8 0))) 0 k (mapped (noL1 (regs 0 0xF8 0))) grant5) ∧
    (let s := mapped (noL1 (regs 0 0xF8 0))
     Claims.dataAddress s 1 3 0 = 0 ∧ s.myCore.l1 = [] ∧ s.myCore.l1q = 0 ∧ s.myDie.replicas = [] ∧ Claims.clean s) ∧
    Claims.granted (mapped (regs 0xF8 0 0)) (Claims.dataAddress (mapped (regs 0xF8 0 0)) 1 3 0) .write (mapped (regs 0xF8 0 0)) grant5 ∧
    (let s := (mapped (regs 0xF8 0 0)).upMyCore (fun c => { c with l1 := [⟨none, 0, false, true, 5, 0, 0, 0, 0, []⟩] })
     s.myCore.lineIx s.me.bind.asid 0 = some 0 ∧ (s.myCore.lineAt 0).rd = false ∧ isOk (grantBoth s 0 .read) = true ∧
     isOk (grantData s 0 .read) = true) := by
  refine ⟨plain_iff (by decide +kernel), ?_, by unfold Claims.clean; decide +kernel,
    ⟨by rfl, by decide, fun _ hi => nomatch (show none = _ from (by decide +kernel : _ = none).symm.trans hi)⟩, by decide +kernel⟩
  intro k hk
  simp only [List.mem_cons, List.not_mem_nil, or_false] at hk
  rcases hk with rfl | rfl <;> exact granted_mapped _ _ (by rfl) (by decide +kernel)

/-- A thread with a full granule at 0x400 and an empty one at 0x410. -/
def granules (w : Option Wait) : State :=
  ((regs 0x400 0x410 3).upMyCore (fun c => { c with fe := [0x40] })).upMe (fun t => match w with
    | some w => { t with status := .waiting w }
    | none => t)

theorem witness_FullEmptyAccesses :
    Claims.plainThread (granules none) ∧ Claims.plainThread (granules (some (.ldfe 4 0x400 3 true false))) ∧
    (let s := granules none
     Claims.dataAddress s 1 3 0 % 8 = 0 ∧ Claims.dataAddress s 2 3 0 + 8 ≤ s.myCore.scratchSize ∧ 0x400 ≤ Claims.dataAddress s 1 3 0 ∧
     s.myCore.full (Claims.dataAddress s 1 3 0 / 16) = true ∧ s.myCore.full (Claims.dataAddress s 2 3 0 / 16) = false ∧
     s.myCore.poisonedAt (Claims.dataAddress s 1 3 0) 8 = false) ∧
    (let s := granules (some (.ldfe 4 0x400 3 true false))
     s.me.status = .waiting (.ldfe 4 (Claims.dataAddress s 1 3 0) 3 true false) ∧ s.myCore.full (Claims.dataAddress s 1 3 0 / 16) = true ∧
     s.myCore.poisonedAt (Claims.dataAddress s 1 3 0) 8 = false) :=
  ⟨plain_iff (by decide +kernel), plain_iff (by decide +kernel), by decide +kernel⟩

/-- Page tables whose leaf is marked accessed and dirty. -/
def paged (s : State) : State := pagedAs 0x401AF s

theorem witness_IntegerAtomics :
    Claims.plainThread (mapped (regs 0 8 0)) ∧
    Claims.granted (mapped (regs 0 8 0)) 0 .write (mapped (regs 0 8 0)) grant5 ∧
    (let s := mapped (regs 0 8 0)
     (s.me.rs 1).toNat % 8 = 0 ∧ s.myCore.l1 = [] ∧ s.poison = []) ∧
    ((mapped base).mem.wf = true ∧ (mapped base).engineGrant 0 true (8 : BitVec 64).toNat .write = .ok (mapped base, grant5) ∧
     grant5.pline < 2 ^ 43 ∧ (8 : BitVec 64).toNat % 8 = 0) :=
  ⟨plain_iff (by decide +kernel), granted_mapped _ _ (by rfl) (by decide +kernel), by decide +kernel, by decide +kernel, by rfl, by decide,
    by decide⟩

theorem witness_FloatAtomics :
    Claims.plainThread (mapped (regs 0 0x40000000 0)) ∧
    (∀ k ∈ [AccessKind.read, .write], Claims.granted (mapped (regs 0 0x40000000 0)) 0 k (mapped (regs 0 0x40000000 0)) grant5) ∧
    (let s := mapped (regs 0 0x40000000 0)
     (s.me.rs 1).toNat % 4 = 0 ∧ s.myCore.l1 = [] ∧ s.poison = [] ∧ (s.accsIn (s.accSlice none 0 none)).length < 4096 ∧
     isOk (grantHome s (s.me.rs 1).toNat .read) = true) := by
  refine ⟨plain_iff (by decide +kernel), ?_, by decide +kernel⟩
  intro k hk
  simp only [List.mem_cons, List.not_mem_nil, or_false] at hk
  rcases hk with rfl | rfl <;> exact granted_mapped _ _ (by rfl) (by decide +kernel)

theorem witness_Fences : Claims.plainThread base ∧ (3 : BitVec 8).getLsbD 0 = true ∧ (6 : BitVec 8).getLsbD 0 = false :=
  ⟨plain_iff (by decide +kernel), by decide⟩

/-! Vectors. -/

/-- A thread whose slots 0 and 6 hold blocks and whose load queue has one entry. -/
def vectors (f : Thread → Thread) : State :=
  on (fun t => f { t with slots := (t.slots.set 0 (some (Vector.replicate 4 0x0102#1024))).set 6 (some (Vector.replicate 4 0)), ldq := [7] })

/-- What `Claims.vectorOk` asks, as a computation. -/
def vOk (s : State) (reads writes : List VName) : Bool := mayRun s.me && (match vCheck s.me reads writes with | .ok _ => true | .error _ => false)

theorem vOk_iff {s : State} {r w : List VName} (h : vOk s r w = true) : Claims.vectorOk s r w := by
  simp only [vOk, Bool.and_eq_true] at h
  refine ⟨(mayRetire_iff _).2 h.1, ?_⟩
  revert h
  cases vCheck s.me r w with
  | ok u => intro _; rfl
  | error e => intro h; exact nomatch h.2

/-- R14: a register of an empty slot, two loads' worth into a full queue, and two pops of a queue of one entry. -/
theorem witness_SlotAndQueueFaults :
    Claims.emptySlot (vectors id).me 4 ∧ (∀ n ∈ ([27, 3, 28, 29, 30, 31] : List VName), ¬Claims.emptySlot (vectors id).me n) ∧
    (let t := (vectors (fun t => { t with ldq := List.replicate 8 0, sdq := List.replicate 8 0 })).me
     Claims.overfills t [30] [28] ∧ Claims.overfills t [30, 0] [29] ∧ ¬Claims.overfills t [28, 30] [28] ∧ ¬Claims.overfills t [29] [0]) ∧
    (let t := (vectors id).me
     ¬Claims.overfills t [28, 28] [0] ∧ Claims.overdraws t [28, 28] ∧ Claims.overdraws t [29] ∧ ¬Claims.overdraws t [28]) ∧
    ∀ row ∈ Claims.vectorUses 2 0 0 28 28 1 2 0, row.2.1.count 28 ≤ 2 ∧ row.2.2 ∈ ([[0], []] : List (List VName)) := by
  unfold Claims.emptySlot Claims.overfills Claims.overdraws
  decide +kernel

theorem witness_VectorNames :
    (let s := vectors id
     s.me.slots.toList.getD ((27 : VName).val / 4) none ≠ none ∧ (3 : VName).val < 28 ∧ s.me.slots.toList.getD ((3 : VName).val / 4) none ≠ none ∧
     s.me.slots.toList.getD ((4 : VName).val / 4) none = none) ∧
    (let s := vectors (fun t => { t with ldq := [] })
     s.me.ldq = [] ∧ s.me.sdq.length ≤ 7) ∧
    (let s := vectors id
     ∀ row ∈ Claims.vectorUses 2 0 4 5 6 1 2 0, ∃ n ∈ row.2.1 ++ row.2.2, n.val < 28 ∧ s.me.slots.toList.getD (n.val / 4) none = none) ∧
    (let s := vectors (fun t => { t with ldq := List.replicate 8 0 })
     s.me.ldq.length = 8 ∧ s.me.sdq.length ≤ 8 ∧ s.me.sdq = [] ∧ s.me.slots.toList.getD ((27 : VName).val / 4) none ≠ none ∧ (27 : VName) ≠ 28 ∧
     28 ≤ (30 : VName).val ∧ (30 : VName) ≠ 29) ∧
    (let s := vectors (fun t => { t with sdq := List.replicate 8 0 })
     s.me.sdq.length = 8 ∧ s.me.ldq.length ≤ 8) := by decide +kernel

theorem witness_IntegerLanes :
    Claims.vectorOk (vectors id) [28, 1] [27] ∧ Claims.vectorOk (vectors id) [28] [29] ∧ Claims.vectorOk (vectors id) [] [28] ∧
    Claims.vectorOk (vectors id) [31, 30, 0] [0] ∧ (2 : BitVec 2) ≠ 3 :=
  ⟨vOk_iff (by decide +kernel), vOk_iff (by decide +kernel), vOk_iff (by decide +kernel), vOk_iff (by decide +kernel), by decide⟩

theorem witness_SixteenBitForms : Claims.vectorOk (vectors id) [0, 28] [0] ∧ Claims.vectorOk (vectors id) [28] [3] :=
  ⟨vOk_iff (by decide +kernel), vOk_iff (by decide +kernel)⟩

theorem witness_FloatingLanes :
    Claims.vectorOk (vectors id) [0, 28] [29] ∧ Claims.vectorOk (vectors id) [28] [0] ∧ Claims.vectorOk (vectors id) [0, 28, 1] [1] ∧
    (1 : BitVec 2) ≠ 0 :=
  ⟨vOk_iff (by decide +kernel), vOk_iff (by decide +kernel), vOk_iff (by decide +kernel), by decide⟩

theorem witness_MaskResults : Claims.vectorOk (vectors id) [0, 28] [] ∧ (vectors id).me.mayRetire ∧ (3 : BitVec 2) ≠ 0 :=
  ⟨vOk_iff (by decide +kernel), (mayRetire_iff _).2 (by decide +kernel), by decide⟩

theorem witness_Conversions :
    (elemOf (0x0A : BitVec 5).toNat).isSome = true ∧ (elemOf (0x09 : BitVec 5).toNat).isSome = true ∧ Claims.vectorOk (vectors id) [28] [0] :=
  ⟨by decide +kernel, by decide +kernel, vOk_iff (by decide +kernel)⟩

/-- R45, R49, R50: 2 + 2^-23 and the largest binary32 number to bfloat16, in each mode; −2.5 to an 8-bit integer, numbers beyond its range,
and a NaN. -/
theorem witness_Roundings :
    (elemOf 0x0A = some (.flt binary32) ∧ bfloat16 ∈ Claims.formats ∧ (0x13 : BitVec 6).extractLsb' 2 2 = 0 ∧
     ∀ x ∈ [0x40000001, 0x7F7FFFFF], (Claims.exact (.flt binary32) x).isSome = true) ∧
    (∀ rm ∈ [0, 1, 2, 3], ¬Claims.overflows bfloat16 rm (Claims.value binary32 0x40000001)) ∧
    Claims.overflows bfloat16 0 (Claims.value binary32 0x7F7FFFFF) ∧ Claims.overflows bfloat16 2 (Claims.value binary32 0x7F7FFFFF) ∧
    (elemOf 0 = some (.int true 8) ∧ binary32 ∈ Claims.formats ∧ (∀ x ∈ [0xC0200000, 0xC3010000, 0x43000000], Claims.finite binary32 x = true) ∧
     -128 * Claims.one ≤ Claims.value binary32 0xC0200000 ∧ Claims.value binary32 0xC0200000 ≤ 127 * Claims.one ∧
     Claims.value binary32 0xC3010000 ≤ (-128 - 1) * Claims.one ∧ (127 + 1) * Claims.one ≤ Claims.value binary32 0x43000000 ∧
     Claims.finite binary32 0x7FC00000 = false) := by
  unfold Claims.overflows
  decide +kernel

theorem witness_ReductionsAndScans :
    Claims.vectorOk (vectors id) [28] [0] ∧
    (let s := vectors (fun t => t.wm 1 0)
     Claims.vectorOk s [0] [1] ∧ ∀ i < 32, (s.me.rm 1).getLsbD i = false) :=
  ⟨vOk_iff (by decide +kernel), vOk_iff (by decide +kernel), by decide +kernel⟩

theorem witness_PermutesAndMoves :
    Claims.vectorOk (vectors id) [28, 0] [1] ∧ Claims.vectorOk (vectors id) [28] [1] ∧ Claims.vectorOk (vectors id) [28] [] ∧
    Claims.vectorOk (vectors id) [] [1] ∧ (vectors id).me.mayRetire ∧ Claims.rank 5 3 = 2 :=
  ⟨vOk_iff (by decide +kernel), vOk_iff (by decide +kernel), vOk_iff (by decide +kernel), vOk_iff (by decide +kernel),
    (mayRetire_iff _).2 (by decide +kernel), by decide +kernel⟩

/-- A thread with vectors whose core's L1 holds line 0, and whose s1 points to scratch. -/
def cached (f : Thread → Thread) : State :=
  ((vectors (fun t => f (t.ws 1 0x400))).upMyCore (fun c => { c with l1 := [⟨none, 0, true, true, 5, 3, 0, 0x1234, 0, []⟩] }))

theorem witness_VectorLoadsAndStores :
    (let s := cached id
     Claims.plainThread s ∧ vCheck s.me [] [28] = .ok () ∧ vCheck s.me [28] [0] = .ok () ∧ vCheck s.me [0] [] = .ok () ∧ vCheck s.me [28, 0] [] = .ok () ∧
     (∀ st w, Claims.lanesInScratch s 2 (s.me.rm 0) (Claims.laneAddress s st 2 1 0) w) ∧
     (∀ w, Claims.lanesInScratch s 2 (s.me.rm 0) (Claims.gatherAddress s 2 1 0) w) ∧
     (∀ w, Claims.lanesInL1 s 2 (s.me.rm 0) (Claims.laneAddress s false 2 0 0) w) ∧
     (∀ w, Claims.lanesInL1 s 2 (s.me.rm 0) (Claims.laneAddress s true 2 0 0) w) ∧
     (∀ w, Claims.lanesInL1 s 2 (s.me.rm 0) (Claims.gatherAddress s 2 0 0) w)) := by
  refine ⟨plain_iff (by decide +kernel), by rfl, by rfl, by rfl, by rfl, ?_, ?_, ?_, ?_, ?_⟩
  · unfold Claims.lanesInScratch; decide +kernel
  · unfold Claims.lanesInScratch; decide +kernel
  all_goals
    intro w i hi
    refine ⟨?_, 0, ?_⟩
    · revert i; decide +kernel
    · revert i w; decide +kernel

/-- A handle of a 4 × 4 array of binary32 tiles of 2 × 2, in the core's own scratchpad. -/
def tile4 : TensorHandle := ⟨0x1000, true, 0x0A, 4, 4, 16, 1, 1, 3, 0, 0x3FF⟩
/-- A job of `base`'s thread on cluster 0. -/
def jobOf (id : BitVec 16) (op : JobOp) (bank : Option Bank) (prog : Nat) : Job :=
  ⟨id, ⟨0, 0, 0⟩, 0, false, 0, op, 0, bank, prog, 0, none, [], [], 1, id.toNat⟩

/-- R150: lane 1 is the lowest that is misaligned, beyond the scratchpad, or in the constant window. -/
theorem witness_VectorFaults :
    ((cached id).me.bind.txn = false ∧ (cached id).me.bind.sup = false) ∧
    Claims.lowestLane 2 (BitVec.allOnes 128) (fun i => 0x1000 + i) (fun a => a % 4 ≠ 0) 1 ∧
    ((∀ l ∈ Claims.active 2 (BitVec.allOnes 128), (0x7FFFC + 4 * l) % 4 = 0) ∧
     Claims.lowestLane 2 (BitVec.allOnes 128) (fun i => 0x7FFFC + 4 * i) (fun a => 0x80000 < a + 4) 1) ∧
    ((∀ l ∈ Claims.active 2 (BitVec.allOnes 128), 0x400 - 4 * l + 4 ≤ (State.reset.core 0).scratchSize) ∧
     Claims.lowestLane 2 (BitVec.allOnes 128) (fun i => 0x400 - 4 * i) (fun a => a < 0x400) 1) ∧
    (let s := vectors (fun t => (t.ws 1 0x3FC).ws 2 4)
     Claims.laneAddress s true 2 1 2 0 = 0x3FC ∧ Claims.laneAddress s true 2 1 2 1 = 0x400) := by
  unfold Claims.lowestLane
  decide +kernel

/-- Circular buffer 1 with 4 slots of 256 bytes from 0x1000, 2 of them full. -/
def ring1 : CbHandle := ⟨0x1000, 256, 4, 1, 3, 2⟩

theorem witness_CircularBuffers :
    (let s := vectors (fun t => t.wc 1 ring1)
     Claims.plainThread s ∧ (s.me.rc 0).valid = false ∧ vCheck s.me [] [30] = .ok () ∧ (s.me.rc 1).valid = true ∧ vCheck s.me [] [28] = .ok () ∧
     vCheck s.me [28] [] = .ok () ∧ s.cbDraining s.cur 1 = false ∧ s.cbFilling s.cur 1 = false ∧
     (∀ i ∈ Claims.active 2 (s.me.rm 0), (s.me.rs 0).toNat + i * 4 + 4 ≤ 2 * 256) ∧
     Claims.lanesInScratch s 2 (s.me.rm 0) (fun i => 0x1000 + (1 * 256 + i * 4) % 1024) false ∧
     Claims.lanesInScratch s 2 (s.me.rm 0) (fun i => 0x1000 + (3 * 256 + i * 4) % 1024) true ∧
     (2 : BitVec 8).toNat ≤ ring1.fill.toNat ∧ ring1.fill.toNat < (3 : BitVec 8).toNat ∧
     (2 : BitVec 8).toNat ≤ ring1.count.toNat - ring1.fill.toNat ∧ ring1.count.toNat - ring1.fill.toNat < (3 : BitVec 8).toNat ∧
     (3 : BitVec 8).toNat ≤ ring1.count.toNat) ∧
    (let s := vectors (fun t => { t.wc 1 ring1 with status := .waiting (.cb true 1 2) })
     Claims.plainThread s ∧ s.me.status = .waiting (.cb true 1 2)) ∧
    (let s := (vectors (fun t => (t.wc 1 ring1).ws 2 0x181)).upMyCore (fun c => { c with btq :=
       [jobOf 5 (.cpywFill 1 tile4) none 0, jobOf 6 (.cpywDrain tile4 1) none 0] })
     Claims.plainThread s ∧ s.cbDraining s.cur 1 = true ∧ s.cbFilling s.cur 1 = true ∧ (s.me.rc 1).valid = true ∧
     ¬(∀ i ∈ Claims.active 2 (s.me.rm 0), (s.me.rs 2).toNat + i * 4 + 4 ≤ 2 * 256) ∧ (4 : BitVec 8).toNat ≤ ring1.count.toNat ∧
     ring1.count.toNat < (5 : BitVec 8).toNat) := by
  refine ⟨⟨plain_iff (by decide +kernel), by decide +kernel, by rfl, by decide +kernel, by rfl, by rfl, by decide +kernel, by decide +kernel,
    by decide +kernel, ?_, ?_, by decide +kernel⟩, ⟨plain_iff (by decide +kernel), by decide +kernel⟩, plain_iff (by decide +kernel),
    by decide +kernel⟩ <;>
  · unfold Claims.lanesInScratch; decide +kernel

theorem witness_TensorHandles :
    (regs 0 0 0).me.mayRetire ∧
    (let s := on (fun t => t.wh 1 tile4)
     (s.me.rh 0).rows = 0 ∧ (s.me.rh 1).rows ≠ 0 ∧ (s.me.rh 1).cols ≠ 0 ∧ (s.me.rh 1).cur.toNat < 4 ∧ (s.me.rh 1).fmt.toNat ≤ 0x10) ∧
    (let s := on (fun t => t.wh 1 { tile4 with cur := 4 })
     4 ≤ (s.me.rh 1).cur.toNat) ∧
    (let s := cached (fun t => t.ws 2 0xE0)
     Claims.plainThread s ∧ (s.me.rs 2).toNat % 32 = 0 ∧ s.myCore.lineIx s.me.bind.asid (s.me.rs 2).toNat = some 0 ∧
     (s.myCore.lineAt 0).rd = true ∧ (s.myCore.lineAt 0).valid = 3 ∧ (s.myCore.lineAt 0).poison = 0 ∧ (s.myCore.lineAt 0).wr = true) :=
  ⟨(mayRetire_iff _).2 (by decide +kernel), by decide +kernel, by decide +kernel, plain_iff (by decide +kernel), by decide +kernel⟩

/-! Barriers, waits, the pool, launches. -/

/-- A thread of launch 0, slice 0 of one, at domain level 1. -/
def grouped (f : Thread → Thread) (g : Group) : State :=
  (on (fun t => f { t with bind := { t.bind with level := 1, nslice := 1, dgrp := 1, gsize := 1 } })).setLaunch 0
    { Launch.blank with record := { LaunchRec.blank with nslice := 1 }, share := (0, 1), groups := [(0, g)] }

/-- What `Claims.kernel` asks, as a computation. -/
def kern (t : Thread) : Bool := mayRun t && !t.bind.txn && t.bind.det != 2

theorem kern_iff {t : Thread} (h : kern t = true) : Claims.kernel t := by
  simp only [kern, Bool.and_eq_true, Bool.not_eq_true', bne_iff_ne] at h
  exact ⟨(mayRetire_iff _).2 h.1.1, h.1.2, h.2⟩

theorem witness_Barriers :
    (let s := grouped id ⟨[], [], 0⟩
     Claims.kernel s.me ∧ s.me.barOut = none ∧ s.me.barStand = none ∧ s.releasedM s.me.bind.lid s.me.group (Claims.nextArrival s) = none ∧
     (s.launch? s.me.bind.lid).isSome = true) ∧
    (let s := grouped (fun t => { t with barCount := 1, barStand := some 1 }) ⟨[(1, 0, 3)], [(1, 3)], 0⟩
     Claims.kernel s.me ∧ s.me.barOut = none ∧ s.me.barStand = some 1 ∧ s.releasedM s.me.bind.lid s.me.group 1 = some 3 ∧ s.me.bind.level ≤ 3 ∧
     (s.me.bind.lid, s.me.group) ∉ s.myCore.leaving) ∧
    (let s := grouped (fun t => { t.ws 1 1 with barCount := 1, barOut := some 1 }) ⟨[(1, 0, 3)], [(1, 3)], 0⟩
     Claims.kernel s.me ∧ s.me.barOut = some 1 ∧ s.me.rs 0 ≠ BitVec.ofNat 64 (1 % 2 ^ 32) ∧ s.me.rs 1 = BitVec.ofNat 64 (1 % 2 ^ 32) ∧
     s.releasedM s.me.bind.lid s.me.group 1 = some 3 ∧ (s.me.bind.lid, s.me.group) ∉ s.myCore.leaving) ∧
    (let s := grouped (fun t => { t with barCount := 1, barOut := some 1 }) ⟨[(1, 0, 3)], [], 0⟩
     Claims.kernel s.me ∧ s.me.barOut = some 1 ∧ s.releasedM s.me.bind.lid s.me.group 1 = none) ∧
    (let s := (grouped (fun t => { t with barCount := 1, barStand := some 1, status := .waiting (.bar 1) }) ⟨[(1, 0, 3)], [(1, 3)], 0⟩).upMyCore
       (fun c => { c with leaving := [(0, 0)] })
     Claims.kernel s.me ∧ s.cur.core < 256 ∧ s.cur.tnum < 8 ∧ s.me.status = .waiting (.bar 1) ∧
     s.releasedM s.me.bind.lid s.me.group 1 = some 3 ∧ s.myCore.leaving.head? = some (s.me.bind.lid, s.me.group)) ∧
    (let s := grouped id ⟨[(1, 0, 3)], [], 0⟩
     let l := { Launch.blank with record := { LaunchRec.blank with nslice := 1 }, share := (0, 1), groups := [(0, ⟨[(1, 0, 3)], [], 0⟩)] }
     Claims.kernel s.me ∧ s.launch? 0 = some l ∧ l.spread 0 = false ∧ (l.group 0).arrivals.filter (fun x => x.1 == 1) ≠ [] ∧
     (∀ i ∈ l.liveIn 0, ∃ x ∈ (l.group 0).arrivals.filter (fun x => x.1 == 1), x.2.1 = i) ∧ s.releasedM 0 0 1 = none) := by
  refine ⟨⟨kern_iff ?_, ?_⟩, ⟨kern_iff ?_, ?_⟩, ⟨kern_iff ?_, ?_⟩, ⟨kern_iff ?_, ?_⟩, ⟨kern_iff ?_, ?_⟩, kern_iff ?_, ?_⟩ <;> decide +kernel

theorem witness_SleepWakeAndQueries :
    (sup 15 16 0).me.mayRetire ∧
    (let s := sup 15 16 0
     s.me.bind.sup = true ∧ (s.me.rs 1).toNat ≤ 15 ∧ 15 < (s.me.rs 2).toNat ∧ s.me.rs 0 = 0 ∧ 7 ≤ (s.me.rs 1).toNat ∧ s.me.bind.txn = false ∧
     s.me.bind.det ≠ 2 ∧ s.me.wake = false) ∧
    (let s := grouped (fun t => { (t.ws 1 1).ws 2 5 with wake := true }) ⟨[], [], 0⟩
     s.me.bind.txn = false ∧ 0 < s.me.bind.dgrp ∧ s.me.rs 1 = 1 ∧ s.me.rs 2 = 5 ∧ s.me.wake = true) ∧
    (let s := inTx txn0
     s.me.bind.txn = true) ∧
    (on (fun t => { t with bind := { t.bind with level := 4 } })).me.bind.level = 4 ∧
    (let s := (regs 1 2 0).setThread ⟨0, 0, 1⟩ { Thread.reset with status := .ready }
     let s := s.setThread ⟨0, 0, 2⟩ { Thread.reset with status := .waiting .sleep }
     (⟨0, 0, 1⟩ : Tid) = ⟨s.cur.die, s.cur.core, (s.me.rs 1).toNat % 8⟩ ∧ (s.thread ⟨0, 0, 1⟩).status = .ready ∧
     (⟨0, 0, 2⟩ : Tid) = ⟨s.cur.die, s.cur.core, (s.me.rs 2).toNat % 8⟩ ∧ (s.thread ⟨0, 0, 2⟩).status = .waiting .sleep ∧
     Claims.kernel (s.thread ⟨0, 0, 2⟩) ∧ (⟨0, 0, 1⟩ : Tid).key ≠ s.cur.key ∧ (⟨0, 0, 2⟩ : Tid).key ≠ s.cur.key) := by
  refine ⟨(mayRetire_iff _).2 ?_, ?_, ?_, ?_, ?_, ?_, ?_, ?_, ?_, kern_iff ?_, ?_⟩ <;> decide +kernel

/-- A core with a pool, and a thread that waits in it. -/
def pooled (free : Nat) (fifo : List VrClaim) (w : Option Wait) : State :=
  ((vectors id).upMyCore (fun c => { c with freeBlocks := free, fifo := fifo })).upMe (fun t => match w with
    | some w => { t with status := .waiting w }
    | none => t)

theorem witness_VectorPool :
    (let s := pooled 2 [] none
     s.me.mayRetire ∧ s.me.bind.det ≠ 2 ∧ (∀ i : Fin 7, (6 : BitVec 7).getLsbD i = true → s.me.slots[i] = none) ∧
     popcount (6 : BitVec 7) ≤ 48 - 8 * s.me.bind.reserve ∧ s.myCore.fifo = [] ∧ popcount (6 : BitVec 7) ≤ s.myCore.freeBlocks ∧
     (∃ i : Fin 7, (1 : BitVec 7).getLsbD i = true ∧ s.me.slots[i] ≠ none) ∧
     (∀ i : Fin 7, (0x41 : BitVec 7).getLsbD i = true → s.me.slots[i] ≠ none ∧ s.me.bind.reserve ≤ i.val) ∧
     s.myCore.freeBlocks < 64 ∧ s.myCore.fifo.length < 64 ∧ s.me.bind.reserve < 8) ∧
    (let s := (pooled 0 [] none).upMe (fun t => { t with bind := { t.bind with reserve := 6 } })
     48 - 8 * s.me.bind.reserve < popcount (0x2 : BitVec 7) ∧ (∀ i : Fin 7, (2 : BitVec 7).getLsbD i = true → s.me.slots[i] = none)) ∧
    (let s := (pooled 1 [] none).upMe (fun t => t.ws 1 5)
     s.myCore.freeBlocks < popcount (6 : BitVec 7) ∧ s.me.rs 0 = 0 ∧ s.me.rs 1 ≠ 0) ∧
    (let s := pooled 2 [⟨0, 2, false⟩] (some (.vrtake 6))
     s.me.mayRetire ∧ s.myCore.fifo = [⟨0, 2, false⟩] ∧ s.cur.tnum = 0 ∧ s.cur.core < 256 ∧ s.me.status = .waiting (.vrtake 6) ∧ 2 ≤ s.myCore.freeBlocks) ∧
    (let s := pooled 1 [⟨0, 2, false⟩] (some (.vrtaket 1 6))
     s.me.mayRetire ∧ s.myCore.fifo = [⟨0, 2, false⟩] ∧ s.myCore.freeBlocks < 2 ∧ s.me.status = .waiting (.vrtaket 1 6)) ∧
    (let s := (pooled 1 [⟨1, 2, true⟩, ⟨0, 2, false⟩] (some (.vrtake 6))).setThread ⟨0, 0, 1⟩ { Thread.reset with status := .waiting .resumer }
     (s.core 0).fifo = ⟨1, 2, true⟩ :: ([] ++ [⟨0, 2, false⟩]) ∧ (s.core 0).freeBlocks < 2 ∧
     (∀ n < 8, n ≠ 1 → s.holdsFreely ⟨0, 0, n⟩ = false) ∧ (s.thread ⟨0, 0, 0⟩).status = .waiting (.vrtake 6) ∧
     0 < (s.thread ⟨0, 0, 0⟩).sharedBlocks ∧ (s.thread ⟨0, 0, 0⟩).bind.txn = false) := by
  refine ⟨⟨(mayRetire_iff _).2 ?_, ?_⟩, ?_, ?_, ⟨(mayRetire_iff _).2 ?_, ?_⟩, ⟨(mayRetire_iff _).2 ?_, ?_⟩, ?_⟩ <;> decide +kernel

/-- A thread with a pool of one record at 0x100, whose lines are mapped, and two launches: one running, one ended. -/
def arming : State :=
  let s := (noL1 (on (fun t => { (t.ws 1 0x100).ws 2 1 with bind := { t.bind with poolVa := 0x100, poolN := 1, lid := 3 } })))
  let s := s.setLaunch 1 { Launch.blank with state := .complete }
  s.upPkg (fun p => { p with
    lastLid := 65536
    l2 := (List.range 8).map (fun i => ⟨none, i, i, true, true, true, true, false⟩) })

theorem witness_LaunchRecords :
    Claims.plainThread arming ∧
    (arming.me.inPool (arming.me.rs 0) = false ∧ arming.me.inPool (arming.me.rs 1) = true ∧ patchable (0 : BitVec 12).toNat = false ∧
     patchable (383 : BitVec 12).toNat = true ∧ (arming.me.rs 1).toNat % 4 = 0 ∧ arming.myCore.l1 = [] ∧ arming.myCore.l1q = 0) ∧
    Claims.granted arming (arming.me.rs 1 + BitVec.ofNat 64 (4 * (383 : BitVec 12).toNat)).toNat .write arming ⟨6, true, false⟩ ∧
    (match globalBytes 8 arming (arming.me.rs 1) 1536 with
      | .ok (s', _) => s'.cur == arming.cur && s'.me == arming.me
      | .error _ => false) = true ∧
    (arming.stateCode 0 < 3 ∧ 3 ≤ arming.stateCode (arming.me.rs 2) ∧ 3 ≤ arming.stateCode 0xFFFF) ∧
    (let s := arming.upMe (fun t => { t with status := .waiting (.lrwait 4 1) })
     Claims.plainThread s ∧ s.me.status = .waiting (.lrwait 4 (s.me.rs 2)) ∧ 3 ≤ s.stateCode (s.me.rs 2)) ∧
    ((arming.launch? 1).map (fun l => l.state.final && decide (65536 ≤ arming.pkg.lastLid - l.endedAt)) = some true) :=
  ⟨plain_iff (by decide +kernel), by decide +kernel, ⟨by rfl, by decide, fun _ hi => nomatch (show none = _ from (by decide +kernel : _ = none).symm.trans hi)⟩,
    by decide +kernel, by decide +kernel,
    ⟨plain_iff (by decide +kernel), by decide +kernel⟩, by decide +kernel⟩

/-- A binding whose slot 1 writes tile 0 of array 0. -/
def txn1 : TxnBinding := { txn0 with slots := txn0.slots.set 1 (some ⟨⟨0, 0, 0⟩, true, 0x60000⟩) }
/-- A request on that key, pushed up to a granule. -/
def request (granted : Bool) (pushed : List Nat) : KeyReq :=
  ⟨⟨0, 0, 0⟩, true, granted, true, ⟨List.replicate 4 0, []⟩, pushed, false, none, Vector.replicate 9 0, false, false⟩
/-- A transaction with that set. -/
def tx1 : Txn where
  idx := 0
  rn := 0
  seqDie := 0
  state := .bound
  restarts := 0
  slots := txn1.slots
  reqs := [request true [0]]
  landing := none
  stgBase := 0
  stgNeed := 0
  region := none
  passed := true
/-- A transaction thread whose launch holds its transaction, with array 0 registered at address 0. -/
def transacting (b : TxnBinding) (x : Txn) : State :=
  ((inTx b).upPkg (fun p => { p with arrays := [(0, array0)] })).setLaunch 0 { Launch.blank with txns := [(0, x)] }

theorem inTxn_iff {t : Thread} {b : TxnBinding} (h : (mayRun t && t.bind.txn && t.txn == some b) = true) : Claims.inTxn t b := by
  simp only [Bool.and_eq_true, beq_iff_eq] at h
  exact ⟨(mayRetire_iff _).2 h.1.1, h.1.2, h.2⟩

theorem witness_TransactionQueries :
    base.me.bind.txn = false ∧
    (let s := (transacting txn1 tx1).upMe (fun t => t.ws 1 8)
     Claims.inTxn s.me txn1 ∧ txn1.slot 0 = none ∧ txn1.slot 1 = some ⟨⟨0, 0, 0⟩, true, 0x60000⟩ ∧ s.arrayOf ⟨0, 0, 0⟩ = some array0 ∧
     8 ≤ (8 : BitVec 4).toNat ∧ (7 : BitVec 4).toNat < 8 ∧ s.keyOf s.me.bind.asid (s.me.rs 1).toNat = none ∧
     s.keyOf s.me.bind.asid (s.me.rs 0).toNat = some ⟨0, 0, 0⟩ ∧ array0.wr = true ∧ txn1.reconLaunch = false ∧ txn1.recon = false) := by
  refine ⟨?_, inTxn_iff ?_, ?_⟩ <;> decide +kernel

/-- R289, R290, R296: TXTOUCH of address 0 in a pass that holds no copy, one in another slot, a read slot, another key, or eight other
write keys; and in a real run that it does not match, with and without reconnaissance, and at the last restart. -/
theorem witness_Touches :
    (∀ b ∈ [{ txn0 with recon := true }, { txn1 with recon := true },
        { txn0 with recon := true, slots := txn0.slots.set 0 (some ⟨⟨0, 0, 0⟩, false, 0x60000⟩) },
        { txn0 with recon := true, slots := txn0.slots.set 0 (some ⟨⟨0, 1, 0⟩, false, 0x60000⟩) },
        { txn0 with recon := true
                    slots := (Vector.range 16).map (fun i => if 8 ≤ i then some ⟨⟨0, i, 0⟩, true, 0x60000⟩ else none) },
        { txn0 with reconLaunch := true }, { txn0 with reconLaunch := true, restarts := 3 }, txn0],
      let s := transacting b tx1
      (mayRun s.me && s.me.bind.txn && s.me.txn == some b) = true ∧ s.keyOf s.me.bind.asid (s.me.rs 0).toNat = some ⟨0, 0, 0⟩ ∧
      s.arrayOf ⟨0, 0, 0⟩ = some array0 ∧ array0.wr = true ∧ s.otherScope s.me ⟨0, 0, 0⟩ = false ∧ s.memoryOk = true ∧
      s.txn? s.me.bind.lid b.idx = some tx1 ∧ s.launch? s.me.bind.lid = some { Launch.blank with txns := [(0, tx1)] }) ∧
    (let b := { txn0 with recon := true }
     let s := transacting b tx1
     b.slot 0 = none ∧ b.writeKeys.length < 8 ∧ b.copyOf ⟨0, 0, 0⟩ = none ∧
     (s.stagingRoom s.cur.coreKey (s.tszOf ⟨0, 0, 0⟩) (s.tszOf ⟨0, 0, 0⟩)).isSome = true) ∧
    (let b := { txn1 with recon := true }
     b.slot 0 = none ∧ ⟨0, 0, 0⟩ ∈ b.writeKeys ∧ b.copyOf ⟨0, 0, 0⟩ = some ⟨⟨0, 0, 0⟩, true, 0x60000⟩) ∧
    (let b := { txn0 with recon := true, slots := txn0.slots.set 0 (some ⟨⟨0, 0, 0⟩, false, 0x60000⟩) }
     b.slot 0 = some ⟨⟨0, 0, 0⟩, false, 0x60000⟩ ∧ b.writeKeys.length < 8) ∧
    (let b := { txn0 with recon := true, slots := txn0.slots.set 0 (some ⟨⟨0, 1, 0⟩, false, 0x60000⟩) }
     b.slot 0 = some ⟨⟨0, 1, 0⟩, false, 0x60000⟩ ∧ (⟨0, 1, 0⟩ : TileKey) ≠ ⟨0, 0, 0⟩) ∧
    (let b := { txn0 with recon := true
                          slots := (Vector.range 16).map (fun i => if 8 ≤ i then some ⟨⟨0, i, 0⟩, true, 0x60000⟩ else none) }
     ⟨0, 0, 0⟩ ∉ b.writeKeys ∧ 8 ≤ b.writeKeys.length ∧ b.slot 0 = none) ∧
    txn0.recon = false ∧ txn0.slot 0 = none ∧ txn0.restarts < 3 := by
  refine ⟨?_, ?_, ?_, ?_, ?_, ?_, ?_⟩ <;> decide +kernel

theorem witness_CommitOfATransaction :
    (let s := transacting txn1 tx1
     Claims.inTxn s.me txn1 ∧ s.txn? s.me.bind.lid txn1.idx = some tx1 ∧ s.hasJobs s.cur = false ∧
     s.pushesDone s.me.bind.lid txn1.idx = true ∧ s.myCore.doneOf s.cur = [] ∧ txn1.recon = false ∧ ∃ q ∈ tx1.reqs, q.released = false) ∧
    (let b := { txn1 with recon := true }
     let s := transacting b { tx1 with state := .recon }
     Claims.inTxn s.me b ∧ s.txn? s.me.bind.lid b.idx = some { tx1 with state := .recon } ∧ s.hasJobs s.cur = false ∧ b.recon = true ∧
     s.pushesDone s.me.bind.lid b.idx = true ∧ s.myCore.doneOf s.cur = [] ∧ s.shadowsOf s.cur = []) ∧
    (let q : KeyReq := { request true [0] with copy := some ⟨[1, 2, 3, 4], []⟩ }
     let x := { tx1 with state := .committing, reqs := [q, { q with committed := true }, { q with write := false }] }
     let s := transacting txn1 x
     Claims.inTxn s.me txn1 ∧ s.txn? s.me.bind.lid txn1.idx = some x ∧ s.hasJobs s.cur = false ∧
     s.pushesDone s.me.bind.lid txn1.idx = true ∧ s.myCore.doneOf s.cur = [] ∧
     x.state = .committing ∧ x.reqs[0]? = some q ∧ q.released = false ∧ q.copy = some ⟨[1, 2, 3, 4], []⟩ ∧ q.committed = false ∧
     x.reqs[1]? = some { q with committed := true }) := by
  refine ⟨⟨inTxn_iff ?_, ?_⟩, ⟨inTxn_iff ?_, ?_⟩, inTxn_iff ?_, ?_⟩ <;> decide +kernel

/-! Engines. -/

/-- A 2 × 2 array of one tile in the core's own scratchpad. -/
def small (base : BitVec 55) (fmt : BitVec 5) (stride : BitVec 32) : TensorHandle := ⟨base, true, fmt, 2, 2, stride, 1, 1, 0, 0, 0x3FF⟩
/-- A bead string of one run in the core's own scratchpad. -/
def beads (rows : BitVec 16) : TensorHandle := ⟨0x3000, true, 0x03, rows, 8, 16, 0, 3, 0, 0, 0x3FF⟩

/-- A thread with handles: h0 empty, h1 and h2 int8, h3 and h4 binary32, h5 beads, h6 two runs of beads, h7 indices, and slot 6 for indices. -/
def handles (f : Thread → Thread) : State :=
  vectors (fun t => f ((((((((t.ws 1 6).ws 2 1).wh 1 (small 0x1000 0 2)).wh 2 (small 0x1100 0 2)).wh 3 (small 0x2000 0x0A 8)).wh 4
    (small 0x2100 0x0A 8)).wh 5 (beads 1)).wh 6 (beads 2) |>.wh 7 (small 0x2200 0x03 4) |>.wc 1 ring1))

theorem submitter_iff {s : State} (h : (mayRun s.me && !s.me.bind.txn) = true) : Claims.submitter s := by
  simp only [Bool.and_eq_true, Bool.not_eq_true'] at h
  exact ⟨(mayRetire_iff _).2 h.1, h.2⟩

theorem witness_MatrixSubmissions :
    let s := handles id
    let d := s.me.rh 0
    let a := s.me.rh 1
    let b := s.me.rh 2
    let c := s.me.rh 3
    let own : Place := .scratch s.cur.coreKey
    let tile (h : TensorHandle) (w : Bool) := h.tilePieces (h.ownPlace s.cur.coreKey) h.base.toNat h.at_ w
    Claims.submitter s ∧ Claims.bankOk s 0 ∧ s.myCore.mxq.length < 4 ∧ Claims.outOk d ∧ Claims.outOk c ∧ Claims.tileOk a ∧ Claims.tileOk b ∧
    Claims.tileOk c ∧ b.space = true ∧ a.space = true ∧ fusedFormat d = true ∧ fusedFormat c = true ∧ Claims.ds8Ok s ([a, b] ++ c.fused.toList) ∧
    mulFormats a.fmt b.fmt = true ∧ mulLimits (a.tileRows a.at_) (b.tileCols b.at_) = true ∧ b.tileRows b.at_ = a.tileCols a.at_ ∧
    fusedShape c (a.tileRows a.at_) (b.tileCols b.at_) = true ∧ Claims.bytesOk s (tile a false ++ tile b false ++ fusedPieces c s.cur.coreKey) ∧
    s.me.slots.toList.getD ((s.me.rs 1).toNat % 8) none = some (Vector.replicate 4 0) ∧
    (∀ r ∈ slotIndices (Vector.replicate 4 0) a.th, r < a.rows.toNat) ∧ mulLimits a.th (b.tileCols b.at_) = true ∧
    Claims.bytesOk s ((slotIndices (Vector.replicate 4 0) a.th).flatMap
      (fun r => a.pieces own a.base.toNat r 1 (a.col0 a.at_) (a.tileCols a.at_) false) ++ tile b false ++ fusedPieces d s.cur.coreKey) ∧
    rankFormat c.fmt = true ∧ mulLimits 1 (c.tileCols c.at_) = true ∧ fusedShape d 1 (c.tileCols c.at_) = true ∧
    Claims.bytesOk s (⟨own, a.base.toNat, 8, false⟩ :: c.pieces own c.base.toNat 0 c.rows.toNat (c.col0 c.at_) (c.tileCols c.at_) false) ∧
    loadFormat c.fmt = true ∧ Claims.bytesOk s (tile c true) ∧ storeFormat c.fmt = true ∧ Claims.ds8Ok s [c] ∧
    (let z := (handles id).upMe (fun t => { t with bind := { t.bind with sup := true } })
     z.me.bind.sup = true ∧ 1 ≤ (z.me.rs 2).toNat ∧ (z.me.rs 2).toNat ≤ 15) := by
  refine ⟨submitter_iff (by decide +kernel), ?_⟩
  unfold Claims.bankOk Claims.outOk Claims.tileOk Claims.ds8Ok Claims.bytesOk
  decide +kernel

theorem witness_RankAndSelect :
    (let s := (handles id).upPkg (fun p => { p with units := 0 })
     Claims.submitter s ∧ s.pkg.units.getLsbD 13 = false) ∧
    (let s := handles id
     let a := s.me.rh 3
     let c := s.cur.coreKey
     let ways (h : TensorHandle) (w : Bool) := h.arrayPieces (h.ownPlace c) h.base.toNat w
     let runs (d : TensorHandle) (n : Nat) := (List.range n).map
       (fun j => (⟨d.ownPlace c, d.base.toNat + j * d.stride.toNat, 2 * d.cols.toNat, true⟩ : Piece))
     Claims.submitter s ∧ s.pkg.units.getLsbD 13 = true ∧ s.myCore.rsq.length < 4 ∧ Claims.arrayOk a ∧ keyFormat a.fmt = true ∧
     a.base.toNat % a.eb = 0 ∧ a.stride.toNat % a.eb = 0 ∧ a.base.toNat % 16 = 0 ∧
     (let d := s.me.rh 5
      Claims.arrayOk d ∧ d.fmt = 0x03 ∧ d.base.toNat % 16 = 0 ∧ a.rows.toNat * a.cols.toNat ≤ 65536 ∧ d.rows = 1 ∧
      4 + min (rkCut s.me.rkcfg) (a.rows.toNat * a.cols.toNat) ≤ d.cols.toNat ∧ Claims.bytesOk s (ways a false ++ runs d 1) ∧
      Claims.bytesOk s (⟨d.ownPlace c, d.base.toNat, 8, false⟩ :: ways a true)) ∧
     (let d := s.me.rh 6
      Claims.arrayOk d ∧ d.fmt = 0x03 ∧ d.rows = a.cols ∧ 4 + min (rkCut s.me.rkcfg) a.rows.toNat ≤ d.cols.toNat ∧ d.stride.toNat % 16 = 0 ∧
      2 * d.cols.toNat ≤ d.stride.toNat ∧ Claims.bytesOk s (ways a false ++ runs d a.cols.toNat)) ∧
     a.fmt = 0x0A ∧ Claims.bytesOk s [⟨a.ownPlace c, a.base.toNat, 16, false⟩]) ∧
    (let key (i : Nat) := rankKey 0x0A 0 ([0x3F800000, 0x7FC00000, 0x7FC00000].getD i 0)
     (key 0).isSome = true ∧ key 1 = none ∧ key 2 = none) ∧
    (keyFormat 0x0A = true ∧ ∀ k ∈ [0x3F800000, 0x7FC00000, 0xFFFFFFFF], k < 2 ^ (8 * fmtBytes (0x0A : BitVec 5).toNat)) := by
  refine ⟨⟨submitter_iff (by decide +kernel), by decide +kernel⟩, ⟨submitter_iff (by decide +kernel), ?_⟩, by decide +kernel, by decide +kernel⟩
  unfold Claims.arrayOk Claims.bytesOk
  decide +kernel

theorem witness_TransferSubmissions :
    let s := handles (fun t => { t with bind := { t.bind with level := 4 } })
    let d := s.me.rh 4
    let a := s.me.rh 3
    let ix := s.me.rh 7
    let k := s.me.rc 1
    let whole (h : TensorHandle) (wr : Bool) := h.arrayPieces (h.ownPlace s.cur.coreKey) h.base.toNat wr
    let placed (h : TensorHandle) (n : Nat) := Claims.arrayOk h ∧ h.curOk (h.at_ + n - 1) = true ∧ (h.btuPlace s.cur).isSome = true
    Claims.submitter s ∧ s.myCore.btq.length < 16 ∧ (s.me.rs 2).toNat = 1 ∧ placed d 1 ∧ placed a 1 ∧ placed ix 1 ∧ copyFormats a.fmt d.fmt = true ∧
    (∀ q < 1, d.tileRows (d.at_ + q) = a.tileRows (a.at_ + q) ∧ d.tileCols (d.at_ + q) = a.tileCols (a.at_ + q)) ∧
    overlaps (a.planes s.cur 1 false) (d.planes s.cur 1 true) = false ∧
    Claims.bytesOk s (d.planes s.cur 1 true ++ a.planes s.cur 1 false) ∧ ix.fmt = 0x03 ∧ d.tileRows d.at_ ≤ ix.tileCols ix.at_ ∧
    a.tileCols a.at_ = d.tileCols d.at_ ∧ overlaps (gatherPieces a s.cur) (d.planes s.cur 1 true) = false ∧
    Claims.bytesOk s (d.planes s.cur 1 true ++ gatherPieces a s.cur ++ indexPieces ix s.cur (d.tileRows d.at_)) ∧ d.isScaled = false ∧ d.eb ≠ 8 ∧
    Claims.bytesOk s (d.planes s.cur 1 true) ∧ k.valid = true ∧ ceilDiv a.streamSize k.slotsz.toNat ≤ k.count.toNat ∧
    Claims.bytesOk s (⟨.scratch s.cur.coreKey, k.base.toNat, k.ringSize, true⟩ :: a.streamPieces s.cur false) ∧
    Claims.bytesOk s (⟨.scratch s.cur.coreKey, k.base.toNat, k.ringSize, false⟩ :: d.streamPieces s.cur true) ∧
    s.pkg.units.getLsbD 14 = true ∧ 4 ≤ s.me.bind.level ∧ Claims.arrayOk d ∧ d.aligned = true ∧ colFormat d.fmt = true ∧ a.aligned = true ∧
    d.fmt = a.fmt ∧ Claims.bytesOk s (whole d true ++ whole a false) ∧ a.badFmt = false ∧ (s.me.rh 0).badFmt = false ∧ (s.me.rh 0).empty? = true := by
  refine ⟨submitter_iff (by decide +kernel), ?_⟩
  unfold Claims.arrayOk Claims.bytesOk
  decide +kernel

theorem witness_WaitingForJobs :
    (let s := (regs 5 6 0).upMyCore (fun c => { c with
       mxq := [jobOf 5 .mxzero (some 0) 0]
       rsq := [jobOf 5 (.rktab (small 0x2000 0x0A 8)) none 0]
       btq := [jobOf 5 (.cpyf (small 0x2000 0x0A 8) 0) none 0]
       clq := [jobOf 5 (.colbc (small 0x2000 0x0A 8) (small 0x2000 0x0A 8)) none 0] })
     s.me.mayRetire ∧ s.me.bind.det ≠ 2 ∧ s.pkg.units.getLsbD 13 = true ∧ s.pkg.units.getLsbD 14 = true ∧
     (∀ e ∈ [Engine.mxe, .rsu, .btu, .cle], s.myCore.outstanding e ((s.me.rs 1).setWidth 16) = true) ∧
     (∀ e ∈ [Engine.mxe, .rsu, .btu, .cle], s.myCore.outstanding e ((s.me.rs 2).setWidth 16) = false)) ∧
    (let s := (regs 5 6 0).upMyCore (fun c => { c with done :=
       [⟨.mxe, 5, ⟨0, 0, 0⟩, 1, none, 0, some 0, 5⟩, ⟨.btu, 5, ⟨0, 0, 0⟩, 2, none, 2, none, 5⟩, ⟨.rsu, 6, ⟨0, 0, 0⟩, 0, some 4, 2, none, 6⟩] })
     s.me.mayRetire ∧ s.myCore.outstanding .mxe 5 = false ∧ (∀ j ∈ s.myCore.observedBy s.cur .mxe 5 true, j.fail = none) ∧
     (s.myCore.observedBy s.cur .mxe 5 true).length = 1 ∧ (∀ j ∈ s.myCore.observedBy s.cur .btu 5 false, j.fail = none) ∧
     s.myCore.observedBy s.cur .rsu 6 true = [⟨.rsu, 6, ⟨0, 0, 0⟩, 0, some 4, 2, none, 6⟩]) ∧
    (let s := (regs 5 6 0).upMe (fun t => { t with status := .waiting (.job .cle 5) })
     s.me.mayRetire ∧ s.me.status = .waiting (.job .cle ((s.me.rs 1).setWidth 16)) ∧ s.myCore.outstanding .cle 5 = false ∧
     (∀ j ∈ s.myCore.observedBy s.cur .cle 5 true, j.fail = none)) ∧
    (let s := (regs 5 6 0).upMe (fun t => { t with status := .waiting (.queue .mxe 3 (jobOf 0 .mxzero (some 0) 0)) })
     s.me.mayRetire ∧ s.me.status = .waiting (.queue .mxe 3 (jobOf 0 .mxzero (some 0) 0)) ∧ Engine.mxe.room (s.myCore.queue .mxe).length = true) := by
  refine ⟨⟨(mayRetire_iff _).2 ?_, ?_⟩, ⟨(mayRetire_iff _).2 ?_, ?_⟩, ⟨(mayRetire_iff _).2 ?_, ?_⟩, (mayRetire_iff _).2 ?_, ?_⟩ <;> decide +kernel

theorem witness_IntegerMatrixMultiply :
    let a := small 0x1000 0 2
    let j := jobOf 5 (.mxmul a a none) (some 0) 0
    let s := base.upMyCore (fun c => { c with mxq := [j] })
    s.turn 0 = some (0, 1) ∧ headFor (s.core (posCore 0 0)).mxq 0 = some j ∧ j.op = .mxmul a a none ∧ j.prog = 0 ∧ j.bank = some 0 ∧
    a.fmt.toNat < 2 ∧ mulLimits (a.tileRows a.at_) (a.tileCols a.at_) = true ∧ 1 ≤ a.tileCols a.at_ ∧ a.tileCols a.at_ ≤ 16 ∧
    (s.bank j.cl 0).poison = false ∧ j.fail = none ∧ (s.core j.owner.coreKey).poison = [] := by decide +kernel

/-- The accumulator of a word with one entry. -/
def acc0 (spilled : Option Nat) : AccEntry := ⟨none, 0, none, WideAcc.zero, spilled⟩

/-- A slice with one entry, on a die with room to spill it. -/
def spilling : State := (base.upPkg (fun p => { p with accs := [acc0 none] })).upDie 0 (fun d => { d with accspill := 1 })

theorem spillOne_single {s : State} {slice i : Nat} {e : AccEntry} (h1 : s.accsIn slice = [e])
    (h2 : s.spillPlace (s.sliceDie slice) = some i) : (s.spillOne slice).isSome = true := by
  unfold State.spillOne
  simp only [h1, h2, List.length_singleton, Nat.mod_one]
  rfl

/-- Nothing in memory or in a core is poisoned. -/
def unpoisoned (s : State) : Bool := s.poison.isEmpty && s.cores.all (fun e => e.2.poison.isEmpty)

theorem unpoisoned_core {s : State} (h : unpoisoned s = true) : s.poison = [] ∧ ∀ c, (s.core c).poison = [] := by
  simp only [unpoisoned, Bool.and_eq_true, List.isEmpty_iff, List.all_eq_true] at h
  refine ⟨h.1, fun c => ?_⟩
  unfold State.core
  have h2 := h.2
  generalize s.cores = l at h2
  induction l with
  | nil => rfl
  | cons e r ih =>
    unfold Assoc.find
    split
    · exact h2 e List.mem_cons_self
    · exact ih (fun x hx => h2 x (List.mem_cons_of_mem _ hx))

theorem witness_EngineEvents :
    (base.poison = [] ∧ ∀ c : Nat, (base.core c).poison = []) ∧
    (let k : TensorHandle := ⟨0x4000, true, 0x03, 2, 256, 512, 0, 0, 0, 0, 0x3FF⟩
     let j := jobOf 5 (.rksort (beads 1) k 0) none 0
     let s := base.upMyCore (fun c => { c with rsq := [j] })
     unpoisoned s = true ∧ s.rkNext 0 = some 0 ∧ headFor (s.core (posCore 0 0)).rsq 0 = some j ∧ j.prog + 1 < j.op.passes) ∧
    (let k : TensorHandle := ⟨0x4000, true, 0x03, 2, 256, 512, 0, 0, 0, 0, 0x3FF⟩
     let j := jobOf 5 (.rksort (beads 1) k 0) none 1
     let s := base.upMyCore (fun c => { c with rsq := [j] })
     unpoisoned s = true ∧ s.rkNext 0 = some 0 ∧ headFor (s.core (posCore 0 0)).rsq 0 = some j ∧ j.op.passes ≤ j.prog + 1) ∧
    (∀ p ∈ [0, 1], let j := jobOf 5 (.cpyf (small 0x2000 0x0A 8) 0) none p
     let s := base.upMyCore (fun c => { c with btq := [j] })
     unpoisoned s = true ∧ (s.core 0).btq = j :: [] ∧ (p = 0 ∧ j.prog = 0 ∨ j.prog ≠ 0)) ∧
    (let s := base.upBank 0 0 (fun b => { b with owner := some ⟨0, 0, 0⟩, releasing := true })
     unpoisoned s = true ∧ (s.bank 0 0).owner = some ⟨0, 0, 0⟩ ∧ (s.bank 0 0).releasing = true ∧ s.bankBusy ⟨0, 0, 0⟩ 0 0 = false) ∧
    (unpoisoned spilling = true ∧ (spilling.spillOne 0).isSome = true) ∧
    ((base.upPkg (fun p => { p with accs := [acc0 (some 0)] })).unspillOne 0).isSome = true := by
  refine ⟨unpoisoned_core ?_, ?_, ?_, ?_, ?_, ⟨?_, spillOne_single (e := acc0 none) (i := 0) ?_ ?_⟩, ?_⟩ <;> decide +kernel

/-- The jobs of one thread on each of the first two dies for the collective 1 of launch 0. -/
def colJobs (a b : JobOp) : List (Nat × Job) := [(0, jobOf 5 a none 0), (256, { jobOf 7 b none 0 with owner := ⟨1, 0, 0⟩ })]
/-- A part of two dies that they stand on. -/
def collecting (a b : JobOp) : State :=
  (((base.upCore 0 (fun c => { c with clq := [(jobOf 5 a none 0)] })).upCore 256 (fun c =>
    { c with clq := [{ jobOf 7 b none 0 with owner := ⟨1, 0, 0⟩ }] })).upPkg (fun p => { p with units := 0x30 }))

/-- What `Claims.joined` asks of these, as a computation. -/
theorem joined_iff {a b : JobOp} (h : ((collecting a b).presentDies.map (fun d => (collecting a b).colJob 0 d 1) == (colJobs a b).map some &&
    (colJobs a b).all (fun x => (collecting a b).colHead x) && (collecting a b).launch? 0 == some Launch.blank) = true) :
    Claims.joined (collecting a b) 0 1 (colJobs a b) := by
  simp only [Bool.and_eq_true, beq_iff_eq, List.all_eq_true] at h
  exact ⟨h.1.1, h.1.2, Launch.blank, h.2, by decide, by decide, rfl, rfl⟩

/-- R343: a sum of 4 elements on two dies, to all and scattered, and a broadcast from the second. -/
theorem witness_Collectives :
    (let h := small 0x2000 0x0A 8
     Claims.joined (collecting (.colred h h 0) (.colred h h 0)) 0 1 (colJobs (.colred h h 0) (.colred h h 0)) ∧
     (let s := collecting (.colred h h 0) (.colred h h 0)
      unpoisoned s = true ∧ s.memoryOk = true ∧ colFormat 0x0A = true ∧ (0 : BitVec 3).extractLsb' 1 2 ≠ 3 ∧ h.count = 4 ∧ h.space = true ∧
      h.fmt = 0x0A ∧ ∀ x ∈ colJobs (.colred h h 0) (.colred h h 0), x.2.fpm = 0 ∧ Claims.participant s x h 0x0A 4)) ∧
    (let h := small 0x2000 0x0A 8
     let d : TensorHandle := ⟨0x2000, true, 0x0A, 1, 2, 0, 1, 1, 0, 0, 0x3FF⟩
     Claims.joined (collecting (.colred d h 1) (.colred d h 1)) 0 1 (colJobs (.colred d h 1) (.colred d h 1)) ∧
     (let s := collecting (.colred d h 1) (.colred d h 1)
      unpoisoned s = true ∧ s.memoryOk = true ∧ (1 : BitVec 3).getLsbD 0 = true ∧ 4 % (colJobs (.colred d h 1) (.colred d h 1)).length = 0 ∧
      ∀ x ∈ colJobs (.colred d h 1) (.colred d h 1), x.2.fpm = 0 ∧ Claims.participant s x d 0x0A (4 / 2))) ∧
    (let h := small 0x2000 0x0A 8
     let e : TensorHandle := { h with rows := 0, cols := 0 }
     Claims.joined (collecting (.colbc h e) (.colbc h h)) 0 1 (colJobs (.colbc h e) (.colbc h h)) ∧
     (let s := collecting (.colbc h e) (.colbc h h)
      unpoisoned s = true ∧ s.memoryOk = true ∧ e.empty? = true ∧
      ∀ x ∈ colJobs (.colbc h e) (.colbc h h), x.2.fpm = 0 ∧ Claims.participant s x h 0x0A 4)) := by
  refine ⟨⟨joined_iff ?_, ?_⟩, ⟨joined_iff ?_, ?_⟩, joined_iff ?_, ?_⟩ <;> (try unfold Claims.participant) <;> decide +kernel

/-! Events of the memory system and of the scheduler. -/

/-- A D2 launch of one slice with rounds committed. -/
def d2Launch (rounds : Nat) : Launch :=
  { Launch.blank with record := { LaunchRec.blank with nslice := 1, ctl := 0x10 }, share := (0, 1), units := [(0, .bound ⟨0, 0, 0⟩)]
                      groups := [(0, ⟨[], [], rounds⟩)] }
/-- Its thread, which has ended a quantum. -/
def d2Thread (status : Status) (rounds : Nat) : State :=
  (on (fun t => { t with quanta := 1, qretired := 4096, status := status, bind := { t.bind with det := 2 } })).setLaunch 0
    (d2Launch rounds)

theorem witness_MemorySystemEvents :
    base.memoryOk = true ∧
    isOk ((mapped base).grant 0 (0 : BitVec 64).toNat .read true) = true ∧
    ((paged base).memoryOk = true ∧ (8 : BitVec 64).toNat < 2 ^ 55 ∧ isOk ((paged base).walkGrant 0 (8 : BitVec 64).toNat .write true) = true) ∧
    (let s := base.upMyCore (fun c => { c with l1 := [⟨none, 0, true, true, 5, 1, 3, 0x1234, 0, []⟩] })
     s.memoryOk = true ∧ (s.core 0).lineIx 0 (255 : BitVec 64).toNat = some 0 ∧ ((s.core 0).lineAt 0).rd = true) ∧
    (let u : Update := ⟨1, [0, 1, 0, 0, 0, 0, 0, 0, 0], [], []⟩
     let s := base.upDie 0 (fun d => { d with updates := [u] })
     s.memoryOk = true ∧ 1 < 9 ∧ (s.die 0).updates.find? (fun y => y.src == 1) = some u ∧ (s.die 0).canApply u = true) ∧
    (let s := mapped base
     (match s.replicaHome (s.tagOf 0 ((0 : BitVec 64).toNat / 256)) ((0 : BitVec 64).toNat / 256) with
      | some (r, h) => s.sliceDie h != 1 && (s.die 1).covers 1 (s.fillOf r h).2
      | none => false) = true ∧ s.presentDies.contains 1 = true ∧ (s.die 1).fills = []) ∧
    (let s := on (fun t => { t with status := .waiting .acquire })
     s.memoryOk = true ∧ (s.thread ⟨0, 0, 0⟩).status = .waiting .acquire ∧ s.pkg.clockAns.any (fun a => a.1 == ⟨0, 0, 0⟩ && a.2.1 == 8) = false) ∧
    (let s := (on (fun t => { t with status := .waiting .acquire })).upPkg (fun p => { p with
       clockAns := (List.range 9).map (fun d => (⟨0, 0, 0⟩, d, 0)) })
     (s.thread ⟨0, 0, 0⟩).status = .waiting .acquire ∧ (∀ d ∈ s.presentDies, (⟨0, 0, 0⟩, d, 0) ∈ s.pkg.clockAns) ∧
     (∀ a ∈ s.pkg.clockAns, a.2.2 ≤ (s.die 0).count a.2.1) ∧ (s.thread ⟨0, 0, 0⟩).d2 = false) ∧
    (let s := d2Thread .ready 0
     (s.thread ⟨0, 0, 0⟩).d2 = true ∧ (s.thread ⟨0, 0, 0⟩).status ≠ .free ∧ (s.thread ⟨0, 0, 0⟩).bind.qlen ≤ (s.thread ⟨0, 0, 0⟩).qretired) ∧
    (let s := d2Thread (.waiting .quant) 1
     (s.thread ⟨0, 0, 0⟩).status = .waiting .quant ∧ s.roundDone (s.thread ⟨0, 0, 0⟩) = true ∧ mayRun (s.thread ⟨0, 0, 0⟩) = true) ∧
    (let s := d2Thread (.waiting .quant) 0
     let l := d2Launch 0
     s.launch? 0 = some l ∧ l.record.isTxn = false ∧ l.record.det = 2 ∧ l.liveIn 0 = [0] ∧ l.spread 0 = false ∧ s.quantaOf l 0 = some 1 ∧
     (l.group 0).rounds < 1) := by
  refine ⟨?_, ?_, ?_, ?_, ?_, ?_, ?_, ?_, ?_, ?_, ?_⟩ <;> decide +kernel

/-- A launch of one slice at domain level 1. -/
def launch1 : Launch :=
  { Launch.blank with state := .ready, record := { LaunchRec.blank with nslice := 1, ctl := 0x20 }, share := (0, 1), ranges := [(0, 0, 1)] }
/-- A machine whose dies are powered, with that launch, changed. -/
def launched (f : Launch → Launch) : State :=
  ((List.range 9).foldl (fun s d => s.upDie d (fun x => { x with gated := false })) State.reset).setLaunch 1 (f launch1)

theorem witness_SchedulerEvents :
    (let z := launched id
     z.launch? 1 = some launch1 ∧ launch1.bindable = true ∧ launch1.record.paired = false ∧ z.firstInLine 1 = true ∧
     z.nextGroup 1 launch1 0 = some 0 ∧
     (match z.groupSlots 1 launch1 0 with | some m => z.chosenOk 1 false m [⟨0, 0, 0⟩] | none => false) = true ∧
     launch1.spread 0 = false ∧ z.gatedOf [⟨0, 0, 0⟩] = []) ∧
    (let s := on (fun t => { t with status := .waiting .halt })
     s.launch? 0 = some Launch.blank ∧ (s.thread ⟨0, 0, 0⟩).status = .waiting .halt ∧ (s.thread ⟨0, 0, 0⟩).bind.lid = 0 ∧
     (s.thread ⟨0, 0, 0⟩).txn = none ∧ (s.thread ⟨0, 0, 0⟩).bind.txn = false ∧ s.hasJobs ⟨0, 0, 0⟩ = false ∧
     s.roundDone (s.thread ⟨0, 0, 0⟩) = true ∧ (s.core 0).doneOf ⟨0, 0, 0⟩ = [] ∧ s.shadowsOf ⟨0, 0, 0⟩ = [] ∧ mayRun (s.thread ⟨0, 0, 0⟩) = true) ∧
    (let l := { launch1 with state := .running, units := [(0, .failed 9)], ranges := []
                             record := { launch1.record with ctl := 0x220 } }
     let s := launched (fun _ => l)
     s.launch? 1 = some l ∧ l.state.final = false ∧ l.rerunNext (l.record.groupOf 0) = some 0 ∧ l.liveIn (l.record.groupOf 0) = [] ∧ l.killed = none ∧ l.gang ≠ 3 ∧
     (s.threadsOf 1).any (fun x => l.record.groupOf (s.thread x).bind.unit == l.record.groupOf 0) = false ∧
     (s.freeSlots (⟨0, 0, 7⟩ : Tid).coreKey 1).contains ⟨0, 0, 7⟩ = true ∧ s.regionsFor l 1 = true ∧ s.gatedOf [⟨0, 0, 7⟩] = [] ∧
     l.record.paired = false) ∧
    (let s := (launched id).upPkg (fun p => { p with lastLid := 64 })
     s.launch? 1 = some launch1 ∧ s.pkg.ageq ≠ 0 ∧ launch1.state = .ready ∧ launch1.unbound = true ∧
     launch1.agedAt + s.pkg.ageq.toNat ≤ s.pkg.lastLid) ∧
    (let l := { launch1 with aged := 2 }
     let s := ((launched (fun _ => l)).upPkg (fun p => { p with lastLid := 64, units := 0x10 }))
     let s := { s with cores := (List.range 256).map (fun c => (c, { Core.reset with resident := some 0 })) }
     let s := (s.setLaunch 0 Launch.blank).setThread ⟨0, 0, 0⟩ { Thread.reset with status := .ready }
     let z := s.setLaunch 1 { l with starvedAt := s.pkg.lastLid }
     s.launch? 1 = some l ∧ l.bindable = true ∧ l.unbound = true ∧ s.pkg.ageq ≠ 0 ∧ s.canBind 1 l = false ∧
     s.lacksThreads 1 l = true ∧ l.starvedAt + s.pkg.ageq.toNat ≤ s.pkg.lastLid ∧ z.starvedInstance 1 l = some [0] ∧ (⟨0, 0, 0⟩ : Tid) ∈ s.boundTids ∧
     (s.thread ⟨0, 0, 0⟩).bind.txn = false ∧ (s.thread ⟨0, 0, 0⟩).bind.lid ≠ 1 ∧ s.prio (s.thread ⟨0, 0, 0⟩).bind.lid + 2 ≤ s.prio 1 ∧
     (⟨0, 0, 0⟩ : Tid).coreKey ∈ [0] ∧ (s.thread ⟨0, 0, 0⟩).status = .ready) ∧
    (let l := { launch1 with record := { launch1.record with nslice := 4 }, share := (0, 4), ranges := [(0, 0, 4)] }
     let s := launched (fun _ => l)
     s.launch? 1 = some l ∧ l.bindable = true ∧ l.record.replays = false ∧ 8 ∈ s.presentDies ∧ l.unitsLeft 8 = 0 ∧
     ∃ d ∈ s.presentDies, 2 ≤ l.unitsLeft d) := by
  refine ⟨?_, ?_, ?_, ?_, ?_, ?_⟩ <;> decide +kernel

/-! Faults, frames, sequencers, leases, gangs. -/

/-- A held packet of another slot. -/
def packet1 : HeldPacket := ⟨⟨0, 0, 1⟩, .BREAK, false, false, 4, 0, 7, 0, 0⟩
/-- A frame of a pre-empted thread of launch 0, slice 0. -/
def saved0 (kind : Nat) : Saved :=
  ⟨{ Thread.reset with status := .waiting .resumer }, 0, 1, 0, kind, liveAll, 0, 0, [], 0, none, false⟩
/-- Launch 0 of one slice at domain level 1, running, with its slice as given. -/
def launch0 (u : UnitState) : Launch :=
  { Launch.blank with record := { LaunchRec.blank with nslice := 1, ctl := 0x20 }, share := (0, 1), units := [(0, u)] }
/-- `base` with die 0 powered, a frame region, a supervisor on slot 1 and a fault ring, and its thread's condition and launch as given. -/
def faulted (st : Status) (u : UnitState) : State :=
  let s := (on (fun t => { t with status := st })).upDie 0 (fun d => { d with gated := false, ffrgn := 0xFFFF, supv := 0x900, fring := 0x1000 })
  (s.setLaunch 0 (launch0 u)).setThread ⟨0, 0, 1⟩ { Thread.reset with status := .ready, bind := { Binding.none with sup := true, lid := 5 } }

/-- A frozen thread's cause. -/
def broken : Freeze := ⟨.BREAK, 0, 7, 0⟩

theorem witness_FaultAndFrameEvents :
    (let s := base.upDie 1 (fun d => { d with held := [packet1] })
     s.memoryOk = true ∧ (s.die 1).held = packet1 :: [] ∧ s.supervisor 1 = none) ∧
    (let s := (faulted .ready (.bound ⟨0, 0, 0⟩)).upDie 0 (fun d => { d with held := [{ packet1 with tid := ⟨0, 0, 0⟩ }] })
     let d := s.die 0
     s.memoryOk = true ∧ s.supervisor 0 = some ⟨0, 0, 1⟩ ∧ (s.thread ⟨0, 0, 1⟩).status = .ready ∧ (⟨0, 0, 0⟩ : Tid) ≠ ⟨0, 0, 1⟩ ∧
     field d.fring 12 40 ≠ 0 ∧ d.ringRoom = true) ∧
    (let first := { packet1 with tid := ⟨0, 0, 0⟩ }
     let s := (faulted .ready (.bound ⟨0, 0, 0⟩)).upDie 0 (fun d => { d with prod := 1, held := [first] ++ packet1 :: [] })
     s.memoryOk = true ∧ (s.die 0).held = [first] ++ packet1 :: [] ∧ s.toFirmware 0 first = false ∧ (s.die 0).ringRoom = false ∧
     s.toFirmware 0 packet1 = true) ∧
    (let s := faulted (.frozen broken) (.bound ⟨0, 0, 0⟩)
     let t : Tid := ⟨0, 0, 0⟩
     s.memoryOk = true ∧ (s.thread t).status = .frozen broken ∧ s.presentDies.contains t.die = true ∧ broken.cause ≠ .TX_UNSTABLE ∧
     broken.cause ≠ .TX_LONG ∧ (s.thread t).d2 = false ∧ s.gangLost (s.thread t).bind.lid = false ∧ (s.thread t).joberr = 0 ∧
     s.launch? (s.thread t).bind.lid = some (launch0 (.bound t)) ∧ (launch0 (.bound t)).state.final = false ∧ s.hasJobs t = false ∧
     (s.thread t).txn = none ∧ s.shadowsOf t = [] ∧
     (s.upMyCore (fun c => { c with mxq := [jobOf 5 .mxzero (some 0) 0] })).hasJobs t = true) ∧
    (let s := faulted (.frozen ⟨.TX_UNSTABLE, 0, 0, 0⟩) (.bound ⟨0, 0, 0⟩)
     (s.thread ⟨0, 0, 0⟩).status = .frozen ⟨.TX_UNSTABLE, 0, 0, 0⟩ ∧ s.presentDies.contains 0 = true ∧
     (1 : BitVec 64).extractLsb' 0 2 = 1 ∧ (10 : BitVec 64).extractLsb' 0 2 = 2 ∧ (10 : BitVec 64).getLsbD 3 = true ∧
     (2 : BitVec 64).extractLsb' 0 2 = 2 ∧ (2 : BitVec 64).getLsbD 3 = false ∧ (3 : BitVec 64).extractLsb' 0 2 = 3) ∧
    (let s := faulted (.resuming broken) (.bound ⟨0, 0, 0⟩)
     s.memoryOk = true ∧ (s.thread ⟨0, 0, 0⟩).status = .resuming broken ∧ (s.thread ⟨0, 0, 0⟩).d2 = false ∧
     s.gangLost (s.thread ⟨0, 0, 0⟩).bind.lid = false ∧ (s.thread ⟨0, 0, 0⟩).joberr = 0) ∧
    ((base.thread ⟨0, 0, 0⟩).status = .ready ∧ (base.thread ⟨0, 0, 0⟩).bind.txn = false ∧ base.presentDies.contains 0 = true) ∧
    (let s := faulted (.waiting (.pageFault 0x10008 0)) (.bound ⟨0, 0, 0⟩)
     let t : Tid := ⟨0, 0, 0⟩
     let z := s.upDie 0 (fun d => { d with ffrgn := 0 })
     let y := s.upPkg (fun p => { p with pageFaults := [⟨0, 1, [t], 0, none⟩] })
     let page := ((s.thread t).bind.asid, (0x10008 : Word).toNat / 65536)
     s.memoryOk = true ∧ (s.thread t).status = .waiting (.pageFault 0x10008 0) ∧
     s.launch? (s.thread t).bind.lid = some (launch0 (.bound t)) ∧ s.askedFor t page = false ∧ s.inPlace t = false ∧
     s.hasJobs t = false ∧ s.shadowsOf t = [] ∧ s.frameRoom t.die ((s.faultFrameSize t + 8191) / 8192) = some 0 ∧
     z.memoryOk = true ∧ (z.thread t).status = .waiting (.pageFault 0x10008 0) ∧ z.inPlace t = true ∧ z.askedFor t page = false ∧
     y.memoryOk = true ∧ (y.thread t).status = .waiting (.pageFault 0x10008 0) ∧ y.askedFor t page = true ∧ t ∈ y.boundTids ∧
     y.mayResolve page = true ∧ y.mayKill page = true ∧
     y.launch? (y.thread t).bind.lid = some (launch0 (.bound t))) ∧
    (1 ≠ base.pkgId ∧ base.pageOwner 0 0 = base.pkgId) ∧
    (let s := faulted (.waiting (.drain 2 0 liveAll 0 0)) (.bound ⟨0, 0, 0⟩)
     let t : Tid := ⟨0, 0, 0⟩
     s.memoryOk = true ∧ (s.thread t).status = .waiting (.drain 2 0 liveAll 0 0) ∧ s.hasJobs t = false ∧
     s.launch? (s.thread t).bind.lid = some (launch0 (.bound t)) ∧ s.gangLost (s.thread t).bind.lid = false ∧ s.roundDone (s.thread t) = true ∧
     s.shadowsOf t = [] ∧ s.frameRoom t.die ((((s.observeAll t).contextFrame t 2 0 liveAll).length + 8191) / 8192) = some 0) ∧
    (∀ k ∈ [0, 2], let s := faulted .ready (.saved (saved0 k))
     s.memoryOk = true ∧ s.savedOf 0 0 = some (saved0 k) ∧ s.resumeSlot (saved0 k) ⟨0, 1, 7⟩ = true ∧ s.gatedOf [⟨0, 1, 7⟩] = [] ∧
     (saved0 k).thread.bind.paired = false ∧ (saved0 k).page = none) := by
  refine ⟨?_, ?_, ?_, ?_, ?_, ?_, ?_, ?_, ?_, ?_, ?_⟩ <;> decide +kernel

/-- A transaction as it is numbered. -/
def numbered : Txn := { tx1 with state := .numbered, passed := false, slots := txn0.slots, reqs := [] }
/-- A transaction launch of template slots as given, on powered dies, with array 0 registered. -/
def txLaunch (kind : BitVec 8) : Launch :=
  { Launch.blank with state := .running, record := { LaunchRec.blank with ctl := 0x21, ntx := 1, txset := [⟨kind, 0, 0, 0, 0, 0, 0, 0⟩] } }
/-- A machine with that launch and one transaction of it. -/
def sequencing (kind : BitVec 8) (x : Txn) : State :=
  (launched (fun _ => { txLaunch kind with txns := [(0, x)] })).upPkg (fun p => { p with arrays := [(0, array0)] })

theorem witness_SequencerEvents :
    (let z := sequencing 2 numbered
     z.seqTarget 0 (fun y => y.state == .numbered && !y.passed) (fun _ => true) = some (1, numbered) ∧ (z.recordOf 1).isRecon = false) ∧
    (let s := sequencing 3 numbered
     let l := { txLaunch 3 with txns := [(0, numbered)] }
     s.launch? 1 = some l ∧ s.passTarget 0 = some (1, numbered) ∧ s.firstInLine 1 = true ∧
     (match s.passSlots 1 0 numbered with
       | t :: _ => s.gatedOf [t] = []
       | [] => false) = true ∧ l.record.paired = false ∧ (s.regionOf 1 l numbered).isSome = true) ∧
    (let x := { numbered with passed := true, slots := txn1.slots }
     let s := sequencing 2 x
     let l := { txLaunch 2 with txns := [(0, x)] }
     let set := s.setOfSlots x.slots
     s.launch? 1 = some l ∧ s.reserveTarget 0 = some (1, x) ∧ s.firstInLine 1 = true ∧
     (match s.reserveSlots 1 0 x with
       | t :: _ => (s.gatedOf [t]).isEmpty && (s.holdLanding 1 0 l t set.need set.align).isSome
       | [] => false) = true) ∧
    (let x := { numbered with state := .reserved, passed := true, slots := txn1.slots }
     let s := sequencing 2 x
     let keys := (s.setOfSlots x.slots).keys
     s.seqTarget 0 (fun _ => true) (fun y => y.state == .reserved) = some (1, x) ∧ keys.length = 1 ∧
     (∀ k ∈ keys, s.ownsKey k.1 = true) ∧ ∀ j < 288, (s.lkmLoad j (keys.map Prod.fst)).1 ≤ 8192 ∧ (s.lkmLoad j (keys.map Prod.fst)).2 ≤ 16384) ∧
    (let s := (launched id).upPkg (fun p => { p with assigns := [(0, false, 256)] })
     s.pkg.assigns.contains (0, false, 256) = true ∧ 0 < (s.seqSpan false).2) ∧
    (let x := { numbered with state := .requested, slots := txn1.slots, reqs := [{ request false [] with queued := false }] }
     let s := sequencing 2 x
     lowestTxn (s.inFlight (s.keySlice ⟨0, 0, 0⟩) 0) = some (1, x) ∧ (s.launch? 1).isSome = true) ∧
    (launched id).inFlight 0 0 = [] ∧
    (let x := { numbered with state := .requested, slots := txn1.slots, landing := some ⟨0, 0, 0⟩, reqs := [request true []] }
     let s := sequencing 2 x
     let l := { txLaunch 2 with txns := [(0, x)] }
     s.launch? 1 = some l ∧ s.txn? 1 x.idx = some x ∧ x.reqs[0]? = some (request true []) ∧ x.landing = some ⟨0, 0, 0⟩ ∧
     x.copyOff (request true []).key = some 0x60000 ∧ 0 ∉ (request true []).pushed ∧ 16 * 0 < (request true []).push.bytes.length ∧
     x.state = .requested ∧ (∀ r ∈ x.reqs, r.granted = true) ∧ (s.regionOf 1 l x).isSome = true) ∧
    (let x := { numbered with state := .requested, slots := txn1.slots, landing := none, reqs := [request true [0]] }
     let s := sequencing 2 x
     let l := { txLaunch 2 with txns := [(0, x)] }
     let set := s.setOfSlots x.slots
     s.launch? 1 = some l ∧ s.txn? 1 x.idx = some x ∧ x.state = .requested ∧ x.landing = none ∧
     (match s.landingSlots 1 x.seqDie (s.homeCluster x) set.need set.align with
       | t :: _ => (s.gatedOf [t]).isEmpty && (s.holdLanding 1 x.idx l t set.need set.align).isSome
       | [] => false) = true) := by
  refine ⟨?_, ?_, ?_, ?_, ?_, ?_, ?_, ?_, ?_⟩ <;> decide +kernel

/-- `base` with one unit's status. -/
def unit (x : UnitId) (score : Nat) (l : LeaseState) (early : Bool) : State :=
  base.upPkg (fun p => { p with unitTab := [⟨x, score, l, false, 0, false, false, early, decide (1024 ≤ score)⟩] })

theorem inService_iff {s : State} {u : UnitId} (h : (s.isUnit u && (s.unitOf u).lease == .inService) = true) : Claims.inService s u := by
  simp only [Bool.and_eq_true, beq_iff_eq] at h
  exact h

theorem witness_LeasesAndTests :
    (base.pkg.unitTab.map (·.uid)).Nodup ∧ Claims.inService (unit ⟨1, 8, 31⟩ 256 .inService true) ⟨1, 8, 31⟩ ∧
    ((unit ⟨1, 8, 31⟩ 256 .inService true).leaseRoom ⟨1, 8, 31⟩ = true ∧ ((unit ⟨1, 8, 31⟩ 256 .inService true).unitOf ⟨1, 8, 31⟩).early = true) ∧
    (let s := unit ⟨2, 0, 0⟩ 192 .inService false
     (s.unitOf ⟨2, 0, 0⟩).score < 256 ∧ 192 ≤ (s.unitOf ⟨2, 0, 0⟩).score) ∧
    (let s := unit ⟨2, 0, 0⟩ 0 .testing false
     (s.unitOf ⟨2, 0, 0⟩).lease = .testing ∧ (⟨2, 0, 0⟩ : UnitId).cls = 2) ∧
    (let s := unit ⟨0, 0, 1⟩ 1024 .draining false
     (s.unitOf ⟨0, 0, 1⟩).lease = .draining ∧ s.drained ⟨0, 0, 1⟩ = true) ∧
    (let s := unit ⟨0, 0, 0⟩ 0 .draining false
     (s.unitOf ⟨0, 0, 0⟩).lease = .draining ∧ s.drained ⟨0, 0, 0⟩ = false) ∧
    (let s := unit ⟨0, 0, 1⟩ 0 .testing false
     (s.unitOf ⟨0, 0, 1⟩).lease = .testing ∧ (⟨0, 0, 1⟩ : UnitId).cls ≠ 2) ∧
    base.isUnit ⟨3, 0, 1⟩ = true ∧ base.isUnit ⟨4, 0, 3⟩ = true := by
  refine ⟨?_, inService_iff ?_, ?_, ?_, ?_, ?_, ?_, ?_, ?_, ?_⟩ <;> decide +kernel

/-- A gang launch of two packages, of which `lead` leads, on package 0; with TRMODE = 2 where `ctl` says so. -/
def gangLaunch (ctl lead gang : Nat) : Launch :=
  { Launch.blank with state := .ready, gang := gang
                      record := { LaunchRec.blank with ctl := BitVec.ofNat _ ctl, gang := BitVec.ofNat _ (2 * 2 ^ 32 + lead * 2 ^ 43), nslice := 2 } }
/-- That launch in a pod of two packages, with the ACKs given. -/
def ganged (ctl lead gang : Nat) (acks : List GangAck) : State :=
  (base.upPkg (fun p => { p with podcfg := 0x800#64, gangAcks := acks.map (fun a => (0, a)) })).setLaunch 1 (gangLaunch ctl lead gang)
/-- The ACK of a package of one die, with its traced range. -/
def ackOf (pkg nslice : Nat) (range : Option (Nat × Nat)) : GangAck := ⟨pkg, 0, nslice, 1, [32], range⟩

theorem witness_FailuresAndGangs :
    (base.pkg.stopped = false ∧ 1 ≤ (3 : BitVec 32).toNat ∧ (3 : BitVec 32).toNat ≤ 3) ∧
    (let s := base.upPkg (fun p => { p with dumpinfo := 2 })
     s.pkg.dumpinfo.extractLsb' 0 12 = 2#12 ∧ s.pkg.portA.present = true) ∧
    (base.isUnit ⟨0, 0, 0⟩ = true ∧ base.rectOf 0 (clusterOf 0) = none ∧ base.paPopulated (64 * 0) = true) ∧
    (let j := jobOf 5 .mxzero (some 0) 0
     let s := base.upMyCore (fun c => { c with mxq := [j] })
     (s.core (0 * 256 + 0)).mxq = j :: []) ∧
    (let s := base.upDie 0 (fun d => { d with crect := d.crect.set 0 0x400 })
     s.isUnit ⟨0, 0, 0⟩ = true ∧ (s.rectOf 0 (clusterOf 0)).isSome = true) ∧
    (let s := (on (fun t => { t with bind := { t.bind with paired := true } })).setThread ⟨0, 1, 0⟩ { Thread.reset with status := .shadow ⟨0, 0, 0⟩ }
     s.isLeader ⟨0, 0, 0⟩ = true ∧ ∀ y ∈ s.shadowsOf ⟨0, 0, 0⟩, (y.die, y.core) ≠ (0, 0)) ∧
    base.carries ⟨3, 0, 1⟩ = true ∧ base.carries ⟨4, 0, 3⟩ = true ∧
    (let s := ganged 0x400 0 0 []
     1 ≠ s.pkgId ∧ 1 < field s.pkg.podcfg 10 11 ∧ 1 ∉ s.pkg.silent) ∧
    (let s := (ganged 0x400 0 0 []).upPkg (fun p => { p with silent := [1] })
     1 ≠ s.pkgId ∧ 1 ∈ s.pkg.silent) ∧
    (∀ lead ∈ [0, 1], let s := ganged 0x400 lead 0 []
     let l := gangLaunch 0x400 lead 0
     s.launch? 1 = some l ∧ l.record.gangBit = true ∧ l.state = .ready ∧ l.gang = 0 ∧ s.pkg.silent.contains l.record.leader = false ∧
     l.record.leader = lead ∧ s.pkgId = 0) ∧
    (∀ n ∈ [2, 3], ∀ gone ∈ [[], [1]], ∀ ctl ∈ [0x400, 0x10410], ∀ at_ ∈ [0, 1],
     let s := (ganged ctl 0 1 [ackOf 0 2 (some (0, 1)), ackOf 1 n (some (1, 2 - at_))]).upPkg (fun p => { p with silent := gone })
     let l := gangLaunch ctl 0 1
     let acks := s.acksOf l.record
     s.launch? 1 = some l ∧ l.record.gangBit = true ∧ l.state = .ready ∧ l.gang = 1 ∧ l.reason = 0 ∧ l.record.leader = s.pkgId ∧
     l.record.gangSize ≤ acks.length ∧ acks.any (fun a => s.pkg.silent.contains a.pkg) = (gone == [1]) ∧
     acks.all (fun a => acks.all (fun b => a.rsig == b.rsig && a.nslice == b.nslice && a.dgrp == b.dgrp)) = (n == 2) ∧
     l.record.replays = (ctl == 0x10410) ∧ tiles l.record.nslice 0 acks = (at_ == 0)) ∧
    (let l := { gangLaunch 0x400 1 1 with started := [ackOf 0 2 none, ackOf 1 2 none] }
     let s := (ganged 0x400 1 1 []).setLaunch 1 l
     s.launch? 1 = some l ∧ l.record.gangBit = true ∧ l.state = .ready ∧ l.gang = 1 ∧ l.reason = 0 ∧ l.started ≠ []) ∧
    (let l := { gangLaunch 0x400 1 1 with reason := 15 }
     let s := (ganged 0x400 1 1 []).setLaunch 1 l
     s.launch? 1 = some l ∧ l.record.gangBit = true ∧ l.state.final = false ∧ l.gang ≤ 1 ∧ l.reason ≠ 0) := by
  refine ⟨?_, ?_, ?_, ?_, ?_, ?_, ?_, ?_, ?_, ?_, ?_, ?_, ?_, ?_⟩ <;> decide +kernel

/-! The front end, hosts and firmware. -/

/-- The bits of a packet (R353). -/
def packetBits (ty tspec a b c : Nat) : BitVec 256 := BitVec.ofNat 256 (ty + tspec * 2 ^ 16 + a * 2 ^ 64 + b * 2 ^ 128 + c * 2 ^ 192)
/-- A queue on slot 3 that holds a packet. -/
def feQueue (n : BitVec 256) : Queue :=
  { Queue.fresh with slot := some 3, ctl := 0x0800000100000000, win := [(0, 2 ^ 20, true, true)]
                     levels := [⟨0x1000, 8, 0, 4, none, [(0, n.extractLsb' 0 128), (1, n.extractLsb' 128 128)], false, false⟩] }
/-- A machine with 64 mapped lines, two launch records at 0x2000, the number 5 at 0x800, and queue 0 as given. -/
def fe (x : Queue) : State :=
  let s := { base with mem := ((Memory.writeBytes (Memory.writeBytes [] 0x800 [5]) 0x2000 [0x20, 0, 0, 0, 1]).writeBytes 0x2600 [0x20, 0, 0, 0, 1]) }
  s.upPkg (fun p => { p with
    images := p.images.map (fun i => { i with asid := 1 })
    l2 := (List.range 64).map (fun i => ⟨none, i, i, true, true, true, true, false⟩)
    queues := [(0, x)] })
/-- The span of an operand lies in the queue's window. -/
def spanOk (x : Queue) (o : Operand) (a n : Nat) (r w : Bool) : Bool := match x.span o a n r w with | .ok _ => true | .error _ => false
/-- A read or a write of the front end goes through. -/
def reads (n : BitVec 256) (a k : Nat) (f : State → List Byte → Bool) : Bool :=
  match (fe (feQueue n)).feRead (feQueue n).asid (Packet.ofBits n).opA a k with | .ok (s, bs) => f s bs | .error _ => false
/-- A write of the front end goes through. -/
def writes (s : State) (n : BitVec 256) (o : Operand) (a : Nat) (bs : List Byte) : Bool := isOk (s.feWrite (s.qPort 0) (feQueue n).asid o a bs)

/-- A packet of a type stands ready on slot 3. -/
theorem ready {n : BitVec 256} (h : ((fe (feQueue n)).onSlot 3 == some (0, feQueue n) && (fe (feQueue n)).queue 0 == feQueue n &&
    (feQueue n).packet == some (Packet.ofBits n) && (Packet.ofBits n).bad == none && !(Packet.ofBits n).bar) = true) :
    Claims.packetReady (fe (feQueue n)) 3 0 (feQueue n) (Packet.ofBits n) := by
  simp only [Bool.and_eq_true, beq_iff_eq, Bool.not_eq_true'] at h
  exact ⟨h.1.1.1.1, h.1.1.1.2, rfl, rfl, h.1.1.2, h.1.2, fun hb => absurd (hb.symm.trans h.2) (by decide)⟩

theorem witness_FrontEndEvents :
    (let s := base
     s.memoryOk = true ∧ s.dropsDoorbell false 32 0 true = true ∧ s.dropsDoorbell false 31 0 true = false ∧ s.dropsDoorbell false 31 0 false = false ∧ s.dropsDoorbell false 32 0 false = true) ∧
    (let s := { (base.upQueue 0 (fun x => { x with pending := true })) with mem := Memory.writeBytes [] 0 [0x10] }
     s.memoryOk = true ∧ (s.queue 0).killed = false ∧ (s.queue 0).pending = true ∧ s.pkg.hostGated = false ∧ (s.queue 0).ask = none ∧
     s.qState 0 = qIdle ∧ (BitVec.ofNat 32 (s.qGet 0 0 4)).getLsbD 4 = true) ∧
    (∀ a ∈ [false, true], let s := base.upQueue 0 (fun x => { x with pending := true, ask := some a })
     s.memoryOk = true ∧ (s.queue 0).killed = false ∧ (s.queue 0).pending = true ∧ s.pkg.hostGated = false ∧ (s.queue 0).busy = false ∧
     (s.queue 0).ask = some a) ∧
    (let s := { (base.upQueue 0 id) with mem := Memory.writeBytes [] 0x18 [1] }
     s.memoryOk = true ∧ (s.port false).slotport.getLsbD 31 = true ∧ s.onSlot 31 = none ∧ s.bestPending false = some 0) ∧
    (let s := { ((fe { feQueue 0 with run := 256 }).upQueue 1 id) with mem := Memory.writeBytes (Memory.writeBytes [] 0x118 [1]) 0x100 [2] }
     s.memoryOk = true ∧ s.onSlot 3 = some (0, { feQueue 0 with run := 256 }) ∧ s.queue 0 = { feQueue 0 with run := 256 } ∧
     256 ≤ ({ feQueue 0 with run := 256 } : Queue).run ∧ s.outranked 0 = true) ∧
    (let l : FeLevel := ⟨0x1000, 8, 0, 1, none, [], false, false⟩
     let x := { feQueue 0 with levels := [l] }
     let s := fe x
     s.memoryOk = true ∧ s.onSlot 3 = some (0, x) ∧ s.queue 0 = x ∧ x.killed = false ∧ x.fault = none ∧ l.held = [] ∧ l.pos < l.limit ∧
     spanOk x ⟨0, l.base⟩ l.base (32 * l.wrap) true false = true ∧ l.wanted = [0, 1] ∧
     ∀ g ∈ l.wanted, let a := l.addr (g / 2) + 16 * (g % 2); isOk (s.feRead x.asid ⟨0, a⟩ a 16) = true) ∧
    Claims.packetReady (fe (feQueue (packetBits 0 0 0 0 0))) 3 0 (feQueue (packetBits 0 0 0 0 0)) (Packet.ofBits (packetBits 0 0 0 0 0)) ∧
    (let n := packetBits 1 0 0x2000 0 0
     Claims.packetReady (fe (feQueue n)) 3 0 (feQueue n) (Packet.ofBits n) ∧ (Packet.ofBits n).ty = 1 ∧ spanOk (feQueue n) (Packet.ofBits n).opA 0x2000 1536 true false = true ∧
     (Packet.ofBits n).b = 0 ∧ (Packet.ofBits n).int = false ∧
     reads n 0x2000 1536 (fun s bs => s.refusal 1 .queue (LaunchRec.ofBytes bs) != some reasonNodeFull) = true) ∧
    (let n := packetBits 2 2 0x2000 0 0
     Claims.packetReady (fe (feQueue n)) 3 0 (feQueue n) (Packet.ofBits n) ∧ (Packet.ofBits n).ty = 2 ∧ spanOk (feQueue n) (Packet.ofBits n).opA 0x2000 3072 true false = true ∧
     (Packet.ofBits n).b = 0 ∧
     reads n 0x2000 3072 (fun s bs => bundleRefused 1 s (tabulate 2 (fun i => (bs.drop (1536 * i)).take 1536)) 0 == none) = true) ∧
    (∀ b ∈ [5, 6], let n := packetBits 3 0 0x800 b 0
     Claims.packetReady (fe (feQueue n)) 3 0 (feQueue n) (Packet.ofBits n) ∧ (Packet.ofBits n).ty = 3 ∧ spanOk (feQueue n) (Packet.ofBits n).opA 0x800 8 true false = true ∧
     reads n 0x800 8 (fun _ bs => decide ((Packet.ofBits n).b ≤ leNat bs) == (b == 5)) = true) ∧
    (∀ t ∈ [0, 1], let n := packetBits 4 t 0x800 6 0
     Claims.packetReady (fe (feQueue n)) 3 0 (feQueue n) (Packet.ofBits n) ∧ (Packet.ofBits n).ty = 4 ∧ (Packet.ofBits n).tspec = t ∧
     spanOk (feQueue n) (Packet.ofBits n).opA 0x800 8 true true = true ∧ reads n 0x800 8 (fun s bs => writes s n (Packet.ofBits n).opA 0x800 (leBytes 8 ((leNat bs * t + 6) % 2 ^ 64))) = true) ∧
    (let n := packetBits 5 0 0x3000 2 0
     Claims.packetReady (fe (feQueue n)) 3 0 (feQueue n) (Packet.ofBits n) ∧ (Packet.ofBits n).ty = 5 ∧ (feQueue n).ask = none ∧ (feQueue n).levels.length < 3 ∧
     spanOk (feQueue n) (Packet.ofBits n).opA 0x3000 64 true false = true) ∧
    (∀ c ∈ [0, 1], let n := packetBits 6 (256 + c) 0x800 5 0
     Claims.packetReady (fe (feQueue n)) 3 0 (feQueue n) (Packet.ofBits n) ∧ (Packet.ofBits n).ty = 6 ∧ (feQueue n).runsPast 1 = false ∧
     (feQueue n).levels.map (fun l => decide (l.pos + 1 + 1 ≤ l.limit)) = [true] ∧ spanOk (feQueue n) (Packet.ofBits n).opA 0x800 8 true false = true ∧ reads n 0x800 8 (fun _ bs => predHolds c (leNat bs) 5 == (c == 0)) = true) ∧
    (let n := packetBits 7 1 3 0 0
     Claims.packetReady (fe (feQueue n)) 3 0 (feQueue n) (Packet.ofBits n) ∧ (Packet.ofBits n).ty = 7 ∧ (feQueue n).ask = none ∧ (feQueue n).levels.map (·.loop) = [none] ∧ (feQueue n).runsPast 1 = false ∧ (Packet.ofBits n).a ≠ 0) ∧
    (let n := packetBits 8 0 0 0 0
     Claims.packetReady (fe (feQueue n)) 3 0 (feQueue n) (Packet.ofBits n) ∧ (Packet.ofBits n).ty = 8 ∧ (feQueue n).levels.map (·.loop) = [none]) ∧
    (let n := packetBits 9 0 0x800 0x820 0x20
     Claims.packetReady (fe (feQueue n)) 3 0 (feQueue n) (Packet.ofBits n) ∧ (Packet.ofBits n).ty = 9 ∧ 0x800 + 0x20 ≤ 0x820 ∧
     spanOk (feQueue n) (Packet.ofBits n).opA 0x800 0x20 true false = true ∧ spanOk (feQueue n) (Packet.ofBits n).opB 0x820 0x20 false true = true ∧
     reads n 0x800 0x20 (fun s bs => writes s n (Packet.ofBits n).opB 0x820 bs) = true) ∧
    (let l := { Launch.blank with signal := some (0, 0, 0x800), state := .complete }
     let s := (fe (feQueue 0)).setLaunch 1 l
     s.memoryOk = true ∧ s.launch? 1 = some l ∧ l.state.final = true ∧ isOk (s.feWrite (s.qPort 0) l.asid ⟨0x10, 0x800⟩ 0x800 (leBytes 8 3)) = true) := by
  refine ⟨?_, ?_, ?_, ?_, ?_, ?_, ready ?_, ⟨ready ?_, ?_⟩, ⟨ready ?_, ?_⟩, fun b hb => ⟨ready (by revert b; decide +kernel), by revert b; decide +kernel⟩,
    fun t ht => ⟨ready (by revert t; decide +kernel), by revert t; decide +kernel⟩, ⟨ready ?_, ?_⟩, fun t ht => ⟨ready (by revert t; decide +kernel), by revert t; decide +kernel⟩, ⟨ready ?_, ?_⟩, ⟨ready ?_, ?_⟩, ⟨ready ?_, ?_⟩,
    ?_⟩ <;> decide +kernel

/-- An empty image of version 1 under a key whose modulus is a prime, with the signature computed from it outside the model. -/
def image1 : FwImage where
  version := 1
  body := []
  digest := 0xcf83e1357eefb8bdf1542850d66d8007d620e4050b5715dc83f4a921d36ce9ce47d0d13c5d85f2b0ff8318d2877eec2f63b931bd47417a81a538327af927da3e
  key := BitVec.ofNat 4096 (2 ^ 4096 - 2549)
  signature := 0x8459592c3e0626f79d4e2ff0d2f30c64456b0a87f4d0861d16a5a024b685993120780a6e64397a71af14a544f5a4ac10be4f57df3a33dcec9b1b720ca82799c25a83ce07721f1b2ceef833053ddb8349d156c1869522060873389b06544d214bc6af6c00721151d3b200696df77893520022c73f036a7f73ccb7b0ad1fe63b758e2c39e1820dc481b693449e6120029d43ca6d0fcb860902923c60f705578bc34fdd6b195adcb7b160702d80dc3b543b2d5fbfe6b5cf2916aaadab804fdf99fc91045edfa8f2fb941bd6e0af0dadfa7c1eaccd28b86b16f7767437d4c829176d5fa129a3bf3837db9b03dd0004ed2a6cc078d6c8b9cb1e37eee37be7f519872dfd089b7496c8426fef50ebad6d3f7a3765c4a69c5907f8368f970d412013056db8a34cab1d3cb98110de80b9cbafc542de8285c8bb0234fd9e8f7d967b0f2456f0fab8e62f7b53ba484ebb372e180a370faf42d3f04225c6708b3b26e81fa9da57ecea533ff72be4746afde110a59b906c2e4dc17a30b3da9a21e4233c497b5f0e19a1bbcc8f6be9cf0ec21788d0f679a8d80caa834e265cdf7b713d29051c32ad6af6cf8077d0e7f39ce1a3494253244493ad058ae9a69d2c7b74dbc22668716b00f2371644e1e9f3cb68aea79f37e37adc7dae081a15f99bb650919344c39269f80dff5d40298446004cfd1edc68c63eb1b3bf760c73a3dd2885b9b3cf3def
  raises := true
/-- The fused hash of its key. -/
def keyHash1 : BitVec 512 := 0xb633365db01b34ae01e6916099a88fb254f178818b607af66c94cb3eaa39f17e042f4711249f1568545496e6cedbfe7c2c6ee843cdf98407200d8593f591e074

/-- FIPS 180-4: the digest of the empty message. -/
theorem test_sha_empty : (sha512 image1.body == beBytes 64 image1.digest.toNat) = true := by decide +kernel
/-- R455: the digest of the key, computed outside the model. -/
theorem test_sha_key : (sha512 (beBytes 512 image1.key.toNat) == beBytes 64 keyHash1.toNat) = true := by decide +kernel
/-- R455: the signature, computed outside the model, verifies. -/
theorem test_pss_verify : pssVerify image1.key image1.signature image1.message = true := by decide +kernel

/-- A package with that image in both flash slots. -/
def flashed (least : BitVec 32) : State :=
  base.upPkg (fun p => { p with flashA := image1, flashB := image1, keyHash := keyHash1, minVersion := least })

theorem accepts_flashed (least : BitVec 32) : (flashed least).pkg.accepts image1 = decide (least ≤ 1) := by
  show (sha512 image1.body == beBytes 64 image1.digest.toNat && sha512 (beBytes 512 image1.key.toNat) == beBytes 64 keyHash1.toNat &&
    pssVerify image1.key image1.signature image1.message && decide (least ≤ 1)) = _
  rw [test_sha_empty, test_sha_key, test_pss_verify]
  rfl

theorem find_either (f : FwImage → Bool) (i : FwImage) :
    [(false, i), (true, i)].find? (fun e => f e.2) = if f i then some (false, i) else none := by
  simp only [List.find?_cons, List.find?_nil]
  cases f i <;> rfl

theorem boot_flashed (least : BitVec 32) :
    (flashed least).pkg.bootImage = if decide (least ≤ 1) then some (false, image1) else none := by
  have h : (flashed least).pkg.bootOrder = [(false, image1), (true, image1)] := rfl
  unfold Package.bootImage
  rw [h, find_either (flashed least).pkg.accepts, accepts_flashed]

theorem witness_HostAndFirmwareEvents :
    (let s := base
     s.memoryOk = true ∧ (s.port true).present = true ∧ (2 ^ 36 - 1) + ([1] : List Byte).length ≤ 2 ^ 36 ∧
     s.paPopulated ((s.port true).hapbase.toNat * 2 ^ 36 + (2 ^ 36 - 1)) = true ∧ (s.port true).busy = false ∧ 8 ∈ s.presentDies ∧
     s.computeIdle 8 = true ∧ (s.die 8).gated = true ∧ s.pkg.tripped = false ∧ (0 : Nat) < 1 ∧ 1200 ≤ 2400) ∧
    (let s := base.upPkg (fun p => { p with tripped := true })
     s.memoryOk = true ∧ s.pkg.tripped = true) ∧
    (let s := base.upPort false (fun p => { p with busy := true })
     s.memoryOk = true ∧ (s.port false).busy = true) ∧
    ((flashed 2).memoryOk = true ∧ (flashed 2).pkg.bootImage = none) ∧
    ((flashed 1).memoryOk = true ∧ (flashed 1).pkg.bootImage = some (false, image1)) := by
  refine ⟨?_, ?_, ?_, ⟨?_, (boot_flashed 2).trans (if_neg (by decide))⟩, ?_, (boot_flashed 1).trans (if_pos (by decide))⟩ <;> decide +kernel

/-! States for the further clauses of statements. -/

/-- The thread of `cleaving` on a die with room for frames. -/
def leaving (f : Thread → Thread) : State := (cleaving f).upDie 0 (fun d => { d with ffrgn := 0xFFFF })

/-- A CLEAVE at each level: with a request to leave that takes effect, with one that is deferred for want of room, and at D2. -/
theorem witness_CleaveRequests :
    (let s := leaving (fun t => { t with preempt := true })
     s.cleaveEntry s.me 0 = some (1, 0) ∧ s.me.bind.txn = false ∧ s.me.rebuild = none ∧ s.me.d2 = false ∧ s.canPreempt s.cur 1 = true) ∧
    (∀ ev ∈ [false, true], let s := cleaving (fun t => { t with preempt := true, evm := 1, bind := { t.bind with capev := ev } })
     s.cleaveEntry s.me 0 = some (1, 0) ∧ s.me.bind.txn = false ∧ s.me.rebuild = none ∧ s.me.d2 = false ∧ s.canPreempt s.cur 1 = false ∧
     s.capPending s.me = ev) ∧
    (let s := cleaving (fun t => { t with bind := { t.bind with det := 2 } })
     s.cleaveEntry s.me 0 = some (1, 0) ∧ s.me.rebuild = none ∧ s.me.d2 = true ∧ s.canPreempt s.cur 1 = false ∧ s.capPending s.me = false) := by
  decide +kernel

/-- The closing CLEAVE of a stub, with a pending failure of a job, a capacity event, or neither. -/
theorem witness_ClosingCleave :
    ∀ fail ∈ [0, 0x030105], ∀ ev ∈ [false, true],
      let s := leaving (fun t => { t with rebuild := some ⟨0, 0x40⟩, preempt := true, evm := 1, joberr := BitVec.ofNat 24 fail, bind := { t.bind with capev := ev } })
      s.cleaveEntry s.me 0 = some (1, 0) ∧ s.me.bind.txn = false ∧ s.me.d2 = false ∧ s.me.rebuild = some ⟨(0 : BitVec 12).toNat, 0x40⟩ ∧
      s.me.joberr = BitVec.ofNat 24 fail ∧ s.capPending s.me = ev := by decide +kernel

/-- At the limit with a true guard and even targets, at an even PC, and with a vector instruction whose names pass the checks. -/
theorem witness_RetirementLimits :
    let s := vectors (fun t => { t with clvcnt := 65536 })
    s.me.guard ⟨false, 0⟩ = true ∧ (s.me.rs 1).getLsbD 0 = false ∧ (s.me.rs 30).getLsbD 0 = false ∧ s.me.bind.txn = false ∧
    s.me.clvcnt = s.me.bind.clvmax ∧ s.me.pc.getLsbD 0 = false ∧ (∃ u, vCheck s.me [28, 0] [1] = .ok u) :=
  ⟨by decide +kernel, by decide +kernel, by decide +kernel, by decide +kernel, by decide +kernel, by decide +kernel, (), by rfl⟩

/-- The granted line of a state whose core holds no line of the address. -/
theorem granted_of {s s' : State} {va : Nat} {k : AccessKind} {g : Grant} (h : grantData s va k = .ok (s', g)) (p : g.pline < 2 ^ 43)
    (n : s.myCore.lineIx s.me.bind.asid va = none) : Claims.granted s va k s' g := ⟨h, p, fun _ hi => nomatch n.symm.trans hi⟩

/-- A load and a plain and a releasing store of a line that the L1 holds, and a load of one that it does not, beside a dirty line. -/
theorem witness_LinesOfTheL1 :
    (let s := cached (fun t => t.ws 1 0xF8)
     Claims.plainThread s ∧ Claims.clean s ∧ Claims.dataAddress s 1 3 0 % 8 = 0 ∧
     s.myCore.lineIx s.me.bind.asid (Claims.dataAddress s 1 3 0) = some 0 ∧
     (s.myCore.lineAt 0).rd = true ∧ (s.myCore.lineAt 0).wr = true ∧ sectorsOf (Claims.dataAddress s 1 3 0 % 256) 8 &&& ~~~(s.myCore.lineAt 0).valid = 0 ∧
     (s.myCore.lineAt 0).poison = 0) ∧
    (let s := mapped ((regs 0 0 0).upMyCore (fun c => { c with l1 := [⟨none, 3, true, true, 6, 3, 1, 0x1234, 0, []⟩] }))
     Claims.plainThread s ∧ Claims.clean s ∧ Claims.granted s (Claims.dataAddress s 1 3 0) .read s grant5 ∧ s.cur.core < 256 ∧
     s.myCore.lineIx s.me.bind.asid (Claims.dataAddress s 1 3 0) = none ∧ s.myDie.replicas = [] ∧
     (∀ l ∈ s.myCore.l1, l.pline = grant5.pline → l.dirty = 0) ∧ s.myCore.l1q ≠ 0 ∧ grant5.tbl = false) :=
  ⟨⟨plain_iff (by decide +kernel), by unfold Claims.clean; decide +kernel, by decide +kernel⟩, plain_iff (by decide +kernel),
    by unfold Claims.clean; decide +kernel, granted_of (by rfl) (by decide) (by decide +kernel), by decide +kernel⟩

/-- An atomic on a line that its core's L1 holds, without and with a release. -/
theorem witness_AtomicOn :
    ∀ o ∈ [(0 : BitVec 2), 3], let s := mapped (cached (fun t => t.ws 1 8))
      let z := Claims.atomicOn s (s.me.rs 1).toNat o
      (s.me.rs 1).toNat % 8 = 0 ∧ (s.myCore.lineIx s.me.bind.asid (s.me.rs 1).toNat).isSome = true ∧ z.unmarked = true ∧
      isOk (grantData z (s.me.rs 1).toNat .write) = true ∧ z.myCore.lineIx z.me.bind.asid (s.me.rs 1).toNat = none ∧
      isOk (grantHome z (s.me.rs 1).toNat .read) = true := by decide +kernel

/-- R51, R52: 2^127 twice is in range; the greatest count of wraps leaves it; the numbers and marks of read-outs. -/
theorem witness_WideSums :
    (Claims.finite binary32 0x7F000000 = true ∧ Claims.finite binary32 0x7F800001 = false ∧ (0x13 : BitVec 6).extractLsb' 2 2 = 0 ∧
     -128 ≤ ((0 : Int) + Claims.value binary32 0x7F000000 / 2 ^ 1051 + 2 ^ 319) / 2 ^ 320 ∧
     ((0 : Int) + Claims.value binary32 0x7F000000 / 2 ^ 1051 + 2 ^ 319) / 2 ^ 320 ≤ 127 ∧
     ¬(2 ^ 319 - 1 + 127 * 2 ^ 320 + Claims.value binary32 0x7F000000 / 2 ^ 1051 + 2 ^ 319) / 2 ^ 320 ≤ 127) ∧
    ((((WideAcc.zero.add 0 0x7F000000).1.add 0 1).1).xsat = false ∧ (((WideAcc.zero.add 0 1).1.add 0 0x7F000000).1).xsat = false) ∧
    (∀ c ∈ [{ WideAcc.zero with nan := true }, { WideAcc.zero with pinf := true, ninf := true }, { WideAcc.zero with ninf := true },
        { WideAcc.zero with xc := 1 }, WideAcc.zero, { WideAcc.zero with val := 3 }],
      binary32 ∈ [binary32, binary64] ∧ (c.nan || c.pinf || c.ninf || c.xc != 0 || c.val != 0 || !c.any) = true) := by decide +kernel

/-- A thread with a dirty line below D2, one at D2, and the paths of XFENCE. -/
theorem witness_FenceStates :
    (let s := (on id).upMyCore (fun c => { c with l1 := [⟨none, 3, true, true, 6, 3, 1, 0x1234, 0, []⟩] })
     s.me.mayRetire ∧ s.memoryOk = true ∧ s.me.d2 = false) ∧
    (let s := on (fun t => { t with bind := { t.bind with det := 2 } })
     s.me.mayRetire ∧ s.memoryOk = true ∧ s.me.d2 = true ∧ s.me.qended = false ∧ s.me.rebuild = none) ∧
    ((3 : BitVec 8) >>> 1 ≠ 0 ∧ (1 : BitVec 8) >>> 1 = 0 ∧ (3 : BitVec 8).getLsbD 0 = true ∧ (6 : BitVec 8).getLsbD 0 = false) :=
  ⟨⟨(mayRetire_iff _).2 (by decide +kernel), by decide +kernel⟩, ⟨(mayRetire_iff _).2 (by decide +kernel), by decide +kernel⟩, by decide⟩

/-- Waits on circular buffer 1 that a job could end, that none could, and those of a waiting thread. -/
theorem witness_BufferWaits :
    (∀ busy ∈ [false, true],
     let s := (vectors (fun t => t.wc 1 ring1)).upMyCore (fun c => { c with btq := if busy then
       [jobOf 5 (.cpywFill 1 tile4) none 0, jobOf 6 (.cpywDrain tile4 1) none 0] else [] })
     plain s = true ∧ (s.me.rc 1).valid = true ∧ (s.me.rc 1).fill.toNat < (3 : BitVec 8).toNat ∧ (3 : BitVec 8).toNat ≤ (s.me.rc 1).count.toNat ∧
     (s.me.rc 1).count.toNat - (s.me.rc 1).fill.toNat < (3 : BitVec 8).toNat ∧ s.cbFilling s.cur 1 = busy ∧ s.cbDraining s.cur 1 = busy) ∧
    (∀ full ∈ [false, true], ∀ busy ∈ [false, true],
     let s := (vectors (fun t => { t.wc 1 ring1 with status := .waiting (.cb full 1 3) })).upMyCore (fun c => { c with btq := if busy then
       [jobOf 5 (.cpywFill 1 tile4) none 0, jobOf 6 (.cpywDrain tile4 1) none 0] else [] })
     plain s = true ∧ s.me.status = .waiting (.cb full 1 3) ∧ (s.me.rc 1).fill.toNat < (3 : BitVec 8).toNat ∧ s.cbFilling s.cur 1 = busy ∧
     s.cbDraining s.cur 1 = busy) := by decide +kernel

/-- A commit whose tile is mapped, of the own package's array and of another's; the copies of a TXEND; a grant that is held. -/
theorem witness_CommittedTile :
    (let q : KeyReq := { request true [0] with copy := some ⟨List.replicate array0.tsz 3, []⟩ }
     let x := { tx1 with state := .committing, reqs := [q, { q with committed := true }, { q with write := false }] }
     let s := mapped (transacting txn1 x)
     (mayRun s.me && s.me.bind.txn && s.me.txn == some txn1) = true ∧ s.memoryOk = true ∧ x.reqs[0]? = some q ∧ q.write = true ∧
     s.arrayOf q.key = some array0 ∧ array0.owner = s.pkgId ∧ (array0.owner + 1) ≠ s.pkgId ∧
     isOk (s.homeCells array0.asid true (linesFor array0.tsz) (array0.tileVa q.key.tr q.key.tc) (List.replicate array0.tsz 3)) = true) ∧
    (let s := transacting txn1 tx1
     ∀ r ∈ tx1.reqs, (txn1.copyOf r.key).isSome = true ∧ s.arrayOf r.key = some array0) := by decide +kernel

/-- A thread with circular buffer 1 whose core has a block transfer at its head. -/
def transferring (op : JobOp) (prog : Nat) (fail : Option Nat) : State :=
  (on (fun t => t.wc 1 ring1)).upMyCore (fun c => { c with btq := [{ jobOf 5 op none prog with fail := fail }] })

/-- What `Claims.btuHead` asks of it, as a computation. -/
theorem btuHead_iff {op : JobOp} (h : ((transferring op 0 none).copiesOf ⟨0, 0, 0⟩ == [] && (transferring op 0 none).memoryOk &&
    ((transferring op 0 none).core 0).btq == [jobOf 5 op none 0]) = true) :
    Claims.btuHead (transferring op 0 none) 0 (jobOf 5 op none 0) [] := by
  simp only [Bool.and_eq_true, beq_iff_eq] at h
  exact ⟨h.2, (fun _ hx => nomatch hx), rfl, rfl, h.1.1, h.1.2⟩

/-- A tile of a scaled format. -/
def scaledTile (base : BitVec 55) : TensorHandle := ⟨base, true, 0x0E, 2, 2, 2, 1, 1, 0, 0x10, 0x3FF⟩
/-- A tile of 3 slots of `ring1`. -/
def wideTile : TensorHandle := ⟨0x4000, true, 0x0A, 1, 192, 0, 0, 8, 0, 0, 0x3FF⟩

/-- R337, R338: each transfer at its start, with its failures, and at its end. -/
theorem witness_BlockTransfers :
    let a := small 0x2000 0x0A 8
    let d := small 0x2100 0x09 4
    let ix := small 0x2200 0x03 4
    (∀ op ∈ [JobOp.cpy d a 1, .cpy (scaledTile 0x2400) (scaledTile 0x2500) 1, .cpyg d a ix, .cpyf d 0x3F80, .cpywFill 1 a, .cpywFill 1 wideTile,
        .cpywDrain a 1, .cpywDrain wideTile 1],
      (let s := transferring op 0 none
       unpoisoned s = true ∧ s.unmarked = true ∧
       (s.copiesOf ⟨0, 0, 0⟩ == [] && s.memoryOk && (s.core 0).btq == [jobOf 5 op none 0]) = true) ∧
      (let s := transferring op 1 none
       unpoisoned s = true ∧ s.unmarked = true ∧ (s.core 0).btq = [jobOf 5 op none 1] ∧ ((s.thread ⟨0, 0, 0⟩).rc 1).valid = true)) ∧
    (∀ h ∈ [a, d, ix, scaledTile 0x2400, scaledTile 0x2500, wideTile], Claims.inPads h ∧ Claims.apart h) ∧
    (d.isScaled = false ∧ a.isScaled = false ∧ (scaledTile 0x2400).isScaled = true ∧ d.tileRows d.at_ = a.tileRows a.at_ ∧
     d.tileCols d.at_ = a.tileCols a.at_) ∧
    (let h := scaledTile 0x2400
     h.rows.toNat * h.stride.toNat + h.cols.toNat * h.eb ≤ h.spoff.toNat ∧ h.col0 h.at_ % 64 = (scaledTile 0x2500).col0 0 % 64) ∧
    (let s := transferring (.cpyg d a ix) 0 none
     (∀ i < d.tileRows d.at_, Claims.elemOfPad s ⟨0, 0, 0⟩ ix ix.at_ 0 i < a.rows.toNat) ∧
     let z := s.upMyCore (fun c => { c with scratch := c.scratch.writeBytes 0x2202 [5] })
     a.rows.toNat ≤ Claims.elemOfPad z ⟨0, 0, 0⟩ ix ix.at_ 0 1) ∧
    Claims.slotsOf a ring1 ≤ ring1.count.toNat - ring1.fill.toNat ∧ ring1.count.toNat - ring1.fill.toNat < Claims.slotsOf wideTile ring1 ∧
    Claims.slotsOf a ring1 ≤ ring1.fill.toNat ∧ ring1.fill.toNat < Claims.slotsOf wideTile ring1 ∧
    ((transferring (.cpywFill 1 a) 1 (some 3)).core 0).btq.all (fun j => j.fail.isSome) = true := by
  unfold Claims.inPads Claims.apart
  decide +kernel

/-- R245: a slice with an entry that stands and one that is spilled. -/
theorem witness_AccSpills :
    (let s := spilling
     s.memoryOk = true ∧ (s.pkg.accs.Pairwise (fun x y => x.asid ≠ y.asid ∨ x.va ≠ y.va)) ∧
     (∃ e ∈ s.pkg.accs, e.spilled = none ∧ s.slotOf e = 0) ∧
     (s.pkg.accs.filter (fun e => e.spilled.isSome && s.accDie e == s.sliceDie 0)).length < 1024 * ((s.die (s.sliceDie 0)).accspill.toNat % 2 ^ 16)) ∧
    (let s := base.upPkg (fun p => { p with accs := [acc0 (some 0)] })
     s.memoryOk = true ∧ (s.pkg.accs.Pairwise (fun x y => x.asid ≠ y.asid ∨ x.va ≠ y.va)) ∧
     (∃ e ∈ s.pkg.accs, e.spilled.isSome = true ∧ s.slotOf e = 0) ∧
     (s.pkg.accs.filter (fun e => e.spilled.isNone && s.slotOf e == 0)).length < 4096) := by decide +kernel

/-- A cluster whose matrix engine runs a job. -/
def multiplying (j : Job) (bad : Bool) : State :=
  (base.upMyCore (fun c => { c with mxq := [j], atten := [0x3F800000] })).upBank 0 0 (fun b => { b with poison := bad })

theorem mxeRuns_iff {j : Job} {bad : Bool} (h : ((multiplying j bad).turn 0 == some (0, 1) &&
    headFor ((multiplying j bad).core (posCore 0 0)).mxq 0 == some j && j.bank == some 0 && j.fail == none &&
    ((multiplying j bad).core j.owner.coreKey).poison == [] && (multiplying j bad).copiesOf j.owner == [] && (multiplying j bad).memoryOk) = true) :
    Claims.mxeRuns (multiplying j bad) 0 (posCore 0 0) j 0 := by
  simp only [Bool.and_eq_true, beq_iff_eq] at h
  obtain ⟨⟨⟨⟨⟨⟨h1, h2⟩, h3⟩, h4⟩, h5⟩, h6⟩, h7⟩ := h
  exact ⟨0, 1, h1, rfl, h2, h3, h4, h5, h6, h7⟩

/-- R311, R313 to R317: products of integers and of binary32 numbers in one and in two groups, with and without an output, gathered rows,
ranked rows with a good and a bad bead string, a poisoned bank, and the transfers of a bank. -/
theorem witness_MultiplySteps :
    let i := small 0x1000 0 2
    let f := small 0x2000 0x0A 8
    let long : TensorHandle := ⟨0x4000, true, 0x0A, 32, 32, 128, 5, 5, 0, 0, 0x3FF⟩
    (∀ op ∈ [JobOp.mxmul i i none, .mxmul f f (some f), .mxmul long long none, .mxgmul f f [1, 0] none, .mxrank (beads 1) f none, .mxload f,
        .mxstore f, .mxzero], ∀ p ∈ [0, 1], ∀ bad ∈ [false, true],
      let j := jobOf 5 op (some 0) p
      let s := multiplying j bad
      (s.turn 0 == some (0, 1) && headFor (s.core (posCore 0 0)).mxq 0 == some j && j.bank == some 0 && j.fail == none &&
        (s.core j.owner.coreKey).poison == [] && s.copiesOf j.owner == [] && s.memoryOk) = true ∧ (s.bank j.cl 0).poison = bad) ∧
    (∀ op ∈ [JobOp.mxmul i i none, .mxmul f f (some f), .mxmul long long none, .mxgmul f f [1, 0] none, .mxrank (beads 1) f none],
      let j := jobOf 5 op (some 0) 0
      (Claims.multiply (multiplying j false) j).any (fun q => decide (1 ≤ q.n) && decide (q.n ≤ 64) && q.reads.all (fun h => !h.isDs8)) = true ∧
      j.fpm.extractLsb' 2 2 = 0) ∧
    (let j := jobOf 5 (.mxmul long long none) (some 0) 0
     (Claims.multiply (multiplying j false) j).any (fun q => decide (16 * (j.prog + 1) < q.k)) = true) ∧
    (let j := jobOf 5 (.mxrank (beads 1) f none) (some 0) 0
     let z := (multiplying j false).upMyCore (fun c => { c with scratch := c.scratch.writeBytes 0x3004 [1, 0, 0, 0, 2] })
     Claims.beadsOk ((multiplying j false).core 0) (beads 1) f = true ∧ Claims.beadsOk (z.core 0) (beads 1) f = false) ∧
    f.space = true ∧ f.isScaled = false ∧ Claims.apart f ∧ 1 ≤ f.tileCols f.at_ ∧ f.tileCols f.at_ ≤ 64 := by
  unfold Claims.apart
  decide +kernel

/-- A cluster whose rank and select unit is at the last pass of a job. -/
def ranking (j : Job) (f : Core → Core) : State := base.upMyCore (fun c => f { c with rsq := [j] })

theorem lastPass_iff {j : Job} {f : Core → Core} (h : ((ranking j f).unmarked && unpoisoned (ranking j f) && (ranking j f).memoryOk && j.fail == none &&
    (ranking j f).copiesOf j.owner == [] && decide (j.op.passes ≤ j.prog + 1) && (ranking j f).rkNext 0 == some 0 &&
    headFor ((ranking j f).core (posCore 0 0)).rsq 0 == some j) = true) : Claims.lastPass (ranking j f) 0 (posCore 0 0) j := by
  simp only [Bool.and_eq_true, beq_iff_eq, decide_eq_true_eq] at h
  obtain ⟨⟨⟨⟨⟨⟨⟨h1, h2⟩, h3⟩, h4⟩, h5⟩, h6⟩, h7⟩, h8⟩ := h
  exact ⟨h1, (unpoisoned_core h2).2, h3, h4, h5, h6, 0, h7, rfl, h8⟩

/-- A scratchpad with the words given at 0x3000. -/
def padAt (ws : List Nat) (c : Core) : Core := { c with scratch := c.scratch.writeBytes 0x3000 (ws.flatMap (leBytes 4)), recon := [7, 8] }

/-- R326, R327, R329, R330: two runs of keys; table images that are valid and not; a vector of 4 from ranks 3 and 3 again, and strings that
are none. -/
theorem witness_RankResults :
    (let k := small 0x2000 0x0A 8
     ∀ op ∈ [JobOp.rksort (beads 1) k 0, .rktopk (beads 2) k 0, .rktab (small 0x3000 0x0A 8), .rkval k (beads 1)],
      let j := jobOf 5 op none (op.passes - 1)
      let s := ranking j id
      (s.unmarked && unpoisoned s && s.memoryOk && j.fail == none && s.copiesOf j.owner == [] && decide (j.op.passes ≤ j.prog + 1) &&
        s.rkNext 0 == some 0 && headFor (s.core (posCore 0 0)).rsq 0 == some j) = true) ∧
    (let k := small 0x2000 0x0A 8
     k.rows.toNat * k.cols.toNat ≤ 65536 ∧
     ∀ run < 2, (8 + 2 * (rankRun k.fmt 0 0 [0, 0]).length + 15) / 16 * 16 ≤ (beads 2).stride.toNat) ∧
    (∀ ws ∈ [[0, 5, 0, 0, 6], [1, 5, 0, 0, 6], [2, 0, 0, 0], [0x3FF0000, 0, 0, 0], [0x4000000, 0, 0, 0], [0, 0, 1, 0]],
     let m := (padAt ws Core.reset).scratch
     let ok := m.num 0x3000 2 < 2 ∧ m.num 0x3002 2 < 1024 ∧ m.num 0x3008 8 = 0 ∧
       0x3000 + 16 + (m.num 0x3002 2 % 1024 + 1) * 4 ≤ (padAt ws Core.reset).scratchSize
     ok ↔ (ws.getD 0 0 < 2 ∨ ws.getD 0 0 = 0x3FF0000) ∧ ws.getD 2 0 = 0) ∧
    (let d := small 0x2000 0x0A 8
     let m := (padAt [4, 2, 0x30003] Core.reset).scratch
     Claims.apart d ∧ m.num 0x3000 4 = d.rows.toNat * d.cols.toNat ∧ m.num 0x3004 4 = 2 ∧ (∀ q < 2, m.num (0x3008 + 2 * q) 2 = 3) ∧
     0x3000 + 8 + 2 * 2 ≤ Core.reset.scratchSize) := by
  unfold Claims.apart
  refine ⟨?_, ?_, ?_, ?_⟩ <;> decide +kernel

/-- A replica of line 5 of address line 0. -/
def replica5 : Replica := ⟨0, none, 0, 5, 0x77, true, [], []⟩

/-- A sector filled from a replica and from memory; an update of a line of which the die holds a replica; a round of buffered bytes. -/
theorem witness_BytesOfEvents :
    (∀ rs ∈ [[], [replica5]], let s := (base.upMyCore (fun c => { c with l1 := [⟨none, 0, true, true, 5, 1, 3, 0x1234, 0, []⟩] }))
     let s := s.upDie 0 (fun d => { d with replicas := rs })
     s.memoryOk = true ∧ (s.core 0).lineIx 0 (128 : BitVec 64).toNat = some 0 ∧ ((s.core 0).lineAt 0).rd = true ∧
     ((s.core 0).lineAt 0).valid.getLsbD 1 = false ∧
     (((s.die 0).replicas.find? (fun r => r.vline == 0 && r.pline == 5 && tagMatches r.asid 0)).isSome = (rs != []))) ∧
    (let u : Update := ⟨1, [0, 1, 0, 0, 0, 0, 0, 0, 0], [(5 * 256, 9), (5 * 256, 8)], []⟩
     let s := base.upDie 0 (fun d => { d with updates := [u], replicas := [replica5] })
     s.memoryOk = true ∧ (s.die 0).updates.find? (fun y => y.src == 1) = some u ∧ (s.die 0).canApply u = true ∧
     (s.die 0).replicas[0]? = some replica5 ∧ Claims.lastOf u.cells (5 * 256) 0 = 8) ∧
    (let s := (d2Thread (.waiting .quant) 0).upMe (fun t => { t with d2buf := [⟨0x10, some 0x50, false, 3, 0x0201⟩] })
     let l := d2Launch 0
     let ts := (l.liveIn 0).filterMap (fun i => match Assoc.find i l.units with | some (.bound t) => some t | _ => none)
     s.memoryOk = true ∧ s.launch? 0 = some l ∧ l.record.isTxn = false ∧ l.record.det = 2 ∧ l.liveIn 0 ≠ [] ∧ l.spread 0 = false ∧
     s.quantaOf l 0 = some 1 ∧ ts = [⟨0, 0, 0⟩] ∧ ts.Nodup ∧ (∀ t ∈ ts, (∀ e ∈ (s.thread t).d2buf, e.pgran.isSome = true) ∧
       ∀ k ∈ (s.core t.coreKey).l1, k.dirty = 0) ∧
     Claims.lastOf (ts.flatMap (fun t => (s.thread t).d2buf.flatMap Claims.masked)) 0x501 0 = 2) := by decide +kernel

/-- Every sequencer of the package has announced 300 to slice `j`. -/
def announced (j : Nat) (s : State) : State :=
  s.upPkg (fun p => { p with hzSeen := (List.range 9).map (fun d => ((hzSlice j false, d), 300)) })

/-- A request that stands below the horizon with none before it, one that does not, and a push. -/
theorem witness_Grants :
    (let x := { numbered with state := .requested, slots := txn1.slots, reqs := [{ request false [] with queued := false }] }
     let s := sequencing 2 x
     let j := s.keySlice ⟨0, 0, 0⟩
     let y := { x with reqs := [request false []] }
     let z := announced j (s.setTxn 1 x.idx y)
     s.presentDies ≠ [] ∧ lowestTxn (s.inFlight j 0) = some (1, x) ∧ (z.pkg.launches.map Prod.fst).Nodup ∧
     (∀ e ∈ z.pkg.launches, (e.2.txns.map Prod.fst).Nodup) ∧ z.txn? 1 0 = some y ∧ y.reqs[0]? = some (request false []) ∧
     (request false []).queued = true ∧ (request false []).released = false ∧ z.ownsKey (request false []).key = true ∧
     (∀ d ∈ z.presentDies, y.rn < z.hzFrom j d false) ∧ z.keyPod (request false []).key = false ∧
     ¬(∀ d ∈ s.presentDies, 300 < (announced j s).hzFrom j d false) ∧ z.pkg.podReqs = []) ∧
    (let x := { numbered with state := .requested, slots := txn1.slots, landing := some ⟨0, 0, 0⟩, reqs := [request true []] }
     let s := sequencing 2 x
     s.memoryOk = true ∧ s.shadowsOf ⟨0, 0, 0⟩ = [] ∧ x.copyOff (request true []).key = some 0x60000 ∧
     0 ∉ (request true []).pushed ∧ 16 * 0 < (request true []).push.bytes.length) := by decide +kernel

/-- Errors met in an L2 line, in a replica, and in memory whose channel is in service and retired. -/
theorem witness_StorageErrors :
    (mapped base).pkg.l2.any (fun r => r.pline == 5) = true ∧
    ((base.upDie 0 (fun d => { d with replicas := [replica5] })).die 0).replicas.find? (fun r => r.pline == 5) = some replica5 ∧
    (∀ ls ∈ [LeaseState.inService, .retired], let s := unit ⟨2, 0, channelOf (64 * 4)⟩ 0 ls false
     s.paPopulated (64 * 4) = true ∧ (s.unitOf ⟨2, 0, channelOf (64 * 4)⟩).lease = ls ∧ ∃ c < 32, (s.unitOf ⟨2, 64 * 4 / 2 ^ 36, c⟩).lease ≠ .retired) := by
  decide +kernel

/-- Silence of a package whose gang has started, of a leader before START, and of a member as the leader waits. -/
theorem witness_Silence :
    (let l := { gangLaunch 0x400 1 2 with started := [ackOf 0 2 none, ackOf 1 2 none] }
     let s := (ganged 0x400 1 2 []).setLaunch 1 l
     1 ≠ s.pkgId ∧ 1 < s.podSize ∧ 1 ∉ s.pkg.silent ∧ (s.pkg.launches.map Prod.fst).Nodup ∧ s.launch? 1 = some l ∧ l.record.gangBit = true ∧
     l.state = .ready ∧ l.gang ≠ 3 ∧ l.killed = none ∧ (∃ a ∈ l.started, a.pkg = 1) ∧ s.threadsOf 1 = [] ∧ (∀ f ∈ l.frames, f.kind ≠ 0)) ∧
    (let l := gangLaunch 0x400 1 1
     let s := ganged 0x400 1 1 []
     s.launch? 1 = some l ∧ l.beforeStart = true ∧ l.reason = 0 ∧ l.record.leader = 1 ∧ l.gang = 1 ∧ l.killed = none) ∧
    (let l := gangLaunch 0x400 0 1
     let s := ganged 0x400 0 1 [ackOf 1 2 none]
     s.launch? 1 = some l ∧ l.beforeStart = true ∧ l.reason = 0 ∧ l.record.leader = s.pkgId ∧ (∃ a ∈ s.acksOf l.record, a.pkg = 1) ∧
     (∀ e ∈ s.pkg.launches, e.2.record.gangBit = true → e.2.record.gid = l.record.gid → e.1 = 1)) := by decide +kernel

/-- A silent leader as the counter ends, START with every member heard and with one silent, and an ABORT. -/
theorem witness_GangStarts :
    (let l := gangLaunch 0x400 1 0
     let s := (ganged 0x400 1 0 []).upPkg (fun p => { p with silent := [1] })
     s.launch? 1 = some l ∧ l.record.gangBit = true ∧ l.state = .ready ∧ l.gang = 0 ∧ s.pkg.silent.contains l.record.leader = true) ∧
    (∀ gone ∈ [[], [1]],
     let l := { gangLaunch 0x400 1 1 with started := [ackOf 0 2 none, ackOf 1 2 none] }
     let s := ((ganged 0x400 1 1 []).setLaunch 1 l).upPkg (fun p => { p with silent := gone })
     s.launch? 1 = some l ∧ l.gang = 1 ∧ l.reason = 0 ∧ l.started ≠ [] ∧ l.record.replays = false ∧ l.killed = none ∧
     l.started.any (fun a => s.pkg.silent.contains a.pkg) = (gone == [1])) ∧
    (let l := { gangLaunch 0x400 1 1 with reason := 15 }
     l.state.final = false ∧ l.beforeStart = true ∧ l.reason ≠ 0) := by decide +kernel

/-- Packets with an error of each kind, on a queue whose window is the first MiB, readable and not writable. -/
theorem witness_PacketFaults :
    (let n := packetBits 10 0 0 0 0
     let s := fe (feQueue n)
     s.memoryOk = true ∧ s.onSlot 3 = some (0, feQueue n) ∧ s.queue 0 = feQueue n ∧ (feQueue n).killed = false ∧ (feQueue n).fault = none ∧
     (feQueue n).packet = some (Packet.ofBits n) ∧ (feQueue n).levels.length = 1 ∧ Claims.malformed (Packet.ofBits n) ≠ []) ∧
    ([packetBits 7 1 3 0 0, packetBits 7 200 3 0 0, packetBits 8 0 0 0 0, packetBits 6 (256 * 200) 0x800 0 0, packetBits 5 0 0x3000 2 0,
        packetBits 9 0 0x800 0x810 0x20, packetBits 9 0 0x800 0x100000 0x20, packetBits 3 0 0x100000 0 0, packetBits 3 0 0x80000 0 0].all
      (fun n => (feQueue n).packet == some (Packet.ofBits n) && Claims.malformed (Packet.ofBits n) == [] && !(Packet.ofBits n).bar) = true) ∧
    (let n := packetBits 7 1 3 0 0
     let x := { feQueue n with levels := (feQueue n).levels.map (fun l => { l with loop := some (0, 1, 1) }) }
     (fe x).onSlot 3 = some (0, x) ∧ x.packet = some (Packet.ofBits n) ∧ x.levels.all (fun l => l.loop.isSome) = true) ∧
    (let x := { feQueue 0 with levels := (feQueue 0).levels ++ (feQueue 0).levels }
     x.runsPast 200 = true ∧ x.levels.all (fun l => l.loop.isNone) = true) ∧
    (let n := packetBits 5 0 0x3000 2 0
     let x := { feQueue n with levels := (feQueue n).levels ++ (feQueue n).levels ++ (feQueue n).levels }
     (fe x).onSlot 3 = some (0, x) ∧ 3 ≤ x.levels.length) ∧
    (0x800 < 0x810 + 0x20 ∧ 0x810 < 0x800 + 0x20) ∧
    (Claims.spans (Packet.ofBits (packetBits 9 0 0x800 0x100000 0x20)))[1]? = some (0x10, 0x100000, 0x100000, 0x20, false, true) ∧
    Claims.windowed (feQueue 0) 0x800 0x20 true false ∧ ¬Claims.windowed (feQueue 0) 0x100000 0x20 false true ∧
    (let x := { feQueue 0 with win := [(0, 2 ^ 20, true, false)] }
     Claims.windowed x 0x800 8 false false ∧ ¬Claims.windowed x 0x800 8 true true) ∧
    (let s := { (fe (feQueue 0)).upPkg (fun p => { p with astb := 1 }) with mem := Memory.writeBytes [] 8 (leBytes 8 0x10001) }
     match s.grant ((feQueue 0).ctl.extractLsb' 32 16) 0x80000 .read true with
      | .error c => c == .PAGE_ABSENT
      | .ok _ => false) = true ∧
    (let s := fe (feQueue 0)
     let s := s.upPkg (fun p => { p with l2 := [⟨none, 8, 8, false, true, true, true, false⟩] })
     match s.grant ((feQueue 0).ctl.extractLsb' 32 16) 0x800 .read true with
      | .error c => c != .PAGE_ABSENT
      | .ok _ => false) = true := by
  unfold Claims.windowed
  refine ⟨?_, ?_, ?_, ?_, ?_, ?_, ?_, ?_, ?_, ?_, ?_, ?_⟩ <;> decide +kernel

/-- A package that is still to boot. -/
theorem witness_BootsFirst :
    State.reset.halted = true ∧ State.reset.boots = true ∧ State.reset.urgent = [] ∧ State.reset.agenda = [] := by decide +kernel

/-! Fetching, encodings, memory. -/

theorem witness_StepRunsDecoded :
    (let s := State.reset.withFetchWord 16 0x70EC
     s.halted = false ∧ s.agentTurn = false ∧ Claims.fetched s s.me.pc 0x70EC ∧ (0x70EC : BitVec 16).getLsbD 0 = false ∧
     isOk (decodeEnc (.h16 0x70EC)) = true) ∧
    (let s := State.reset.withFetchWord 16 0
     s.halted = false ∧ s.agentTurn = false ∧ Claims.fetched s s.me.pc 0 ∧ isOk (decodeEnc (.h16 0)) = false) ∧
    (let s := State.reset.withFetchWord 32 0x48D00291
     s.halted = false ∧ s.agentTurn = false ∧ Claims.fetched s s.me.pc 0x0291 ∧ (0x0291 : BitVec 16).getLsbD 0 = true ∧
     Claims.fetched s (s.me.pc + 2) 0x48D0 ∧ isOk (decodeEnc (.w32 (0x48D0#16 ++ 0x0291#16))) = true) ∧ Claims.nothingPending base := by
  unfold Claims.fetched Claims.nothingPending
  refine ⟨?_, ?_, ?_, ?_⟩ <;> decide +kernel

theorem witness_StoppedPackage :
    (let s := base.upPkg (fun p => { p with stopped := true })
     s.halted = true ∧ (s.urgent ++ s.agenda).head? = none ∧ (match step s with | .next _ => true | _ => false) = true) ∧
    (let s := { base.upPkg (fun p => { p with bootst := 15 }) with agenda := [.doorbellRing false 0 0] }
     s.halted = true ∧ s.stillHappens (.doorbellRing false 0 0) = true ∧ (match step s with | .next _ => true | _ => false) = true) := by
  decide +kernel

theorem witness_StepKeepsMemory : base.memoryOk = true ∧ (match step base with | .next _ => true | _ => false) = true := by decide +kernel

theorem witness_RoundTrip : (Instr.addi 5 0 0x2468).wf = true ∧ encode (.addi 5 0 0x2468) = some (.w32 0x48D00291) := by decide +kernel

theorem witness_OneWordEach :
    takeEnc (Enc.w32 0x48D00291).halves = some (.w32 0x48D00291) ∧ decodeTableWord 32 0x48D00291 = some (.addi 5 0 0x2468) ∧
    takeEnc (Enc.h16 0x70EC).halves = some (.h16 0x70EC) ∧ decodeTableWord 16 0x70EC = some (.vmax16 false 7 28) := by decide +kernel

theorem witness_RegisterFrames :
    (∃ t, exec (.add ⟨false, 0⟩ 4 5 6) (regs 1 2 3) = .next t) ∧ Instr.add ⟨false, 0⟩ 4 5 6 ∈ Claims.scalarForms ⟨false, 0⟩ 4 5 6 0 0 0 ∧
    (∃ t, exec (.cmpeq ⟨false, 0⟩ 1 2 3) (regs 1 2 3) = .next t) ∧ Instr.cmpeq ⟨false, 0⟩ 1 2 3 ∈ Claims.predicateForms ⟨false, 0⟩ 1 0 0 2 3 0 ∧
    (∃ t, exec (.vadd 2 0 1 0 28) (vectors id) = .next t) ∧ Instr.vadd 2 0 1 0 28 ∈ Claims.vectorForms 2 0 1 0 28 0 :=
  ⟨⟨_, by rfl⟩, by decide +kernel, ⟨_, by rfl⟩, by decide +kernel, ⟨_, by rfl⟩, by decide +kernel⟩

theorem witness_MemoryLaws : Memory.wf [] = true ∧ Memory.wf (Memory.writeBytes [] 8 [1, 0, 2]) = true ∧ Memory.writeBytes [] 8 [0] = [] := by
  decide +kernel

/-! Single steps. -/

/-- The thread's registers after a word that is fetched and run from a state. -/
noncomputable def ran (w : Nat) (s : State) : Thread := match step (s.withFetchWord 32 w) with | .next t => t.me | _ => Thread.reset

/-- R112: the second step of building 0x12345678. -/
theorem test_step_ldhi : (ran 0xACF0529B (on (fun t => t.ws 5 0x2468))).rs 5 = 0x12345678 := by decide +kernel

/-- R107: −2⁶³ divided by −1, and a division by 0. -/
theorem test_step_div :
    (match exec (.div ⟨false, 0⟩ 4 1 2) (regs 0x8000000000000000 0xFFFFFFFFFFFFFFFF 0) with | .next t => t.me.rs 4 | _ => 0) = 0x8000000000000000 ∧
    (match exec (.div ⟨false, 0⟩ 4 1 3) (regs 5 0 0) with | .next t => t.me.rs 4 | _ => 0) = 0xFFFFFFFFFFFFFFFF := by decide +kernel

/-- R74: a word that is no instruction freezes the thread with the word in INFO. -/
theorem test_step_illegal : (ran 0x00000001 base).status = .frozen ⟨.ILLEGAL, 0, 1, 0⟩ ∧ (ran 0x00000001 base).pc = 0 := by decide +kernel

/-- R25: SRR of a supervisor index from user level raises PRIV. -/
theorem test_step_priv : (ran 0x08C4027B base).status = .frozen ⟨.PRIV, 0, 0, 0⟩ := by decide +kernel

/-- R160: HNEXT on the last of four tiles goes back to the first. -/
theorem test_step_cursor : (match exec (.hnext 1) (on (fun t => t.wh 1 tile4)) with | .next t => (t.me.rh 1).cur | _ => 0) = 0 := by decide +kernel

/-- R11: VADD with v28 pops the load queue. -/
theorem test_step_vadd :
    (match exec (.vadd 2 0 1 0 28) (vectors id) with | .next t => (t.me.ldq.length, Claims.el 32 0 (t.me.vRead 32 1).2) | _ => (9, 0)) = (0, 0x109) := by
  decide +kernel

/-- R237: ACAS that finds another value keeps it and returns it. -/
theorem test_step_acas :
    (match exec (.acas 3 1 2 true 0) (mapped (regs 0 7 9)) with | .next t => (t.me.rs 3, t.mem) | _ => (1, [])) = (0, []) := by decide +kernel

end Sys2Proof.Tests
end

section
/-! THE LAWS OF BYTE MEMORIES (R7, R18): what writing a list of bytes leaves to be read, and that a canonical memory is its contents. -/

namespace Sys2Proof.Machine

theorem Memory.wfFrom_cons {lo a : Nat} {v : Byte} {r : Memory} :
    Memory.wfFrom lo ((a, v) :: r) = true ↔ lo ≤ a ∧ v ≠ Memory.unlisted ∧ Memory.wfFrom (a + 1) r = true := by
  simp [Memory.wfFrom, and_assoc]

theorem Memory.read_cons (a x : Nat) (v : Byte) (r : Memory) : Memory.read ((a, v) :: r) x = if a = x then v else Memory.read r x := rfl

/-- The first byte of a list is written below the others, which do not reach it again. -/
theorem Memory.read_writeBytes {m : Memory} (a b : Nat) (bs : List Byte) (hm : m.wf = true) :
    (m.writeBytes a bs).read b = if a ≤ b ∧ b < a + bs.length then bs.getD (b - a) 0 else m.read b := by
  induction bs generalizing m a with
  | nil => exact (if_neg (by simp)).symm
  | cons v r ih =>
    have htail := ih (a + 1) (Memory.write_wf a v hm)
    rw [Memory.read_write a b v hm] at htail
    rw [Memory.writeBytes, htail, List.length_cons]
    obtain hb | rfl | hb := Nat.lt_trichotomy b a
    · rw [if_neg (by omega), if_neg (by omega), if_neg (by omega)]
    · rw [if_neg (by omega), if_pos rfl, if_pos (by omega), Nat.sub_self, List.getD_cons_zero]
    · obtain ⟨k, rfl⟩ := Nat.exists_eq_add_of_lt hb
      rw [if_neg (by omega : ¬ a + k + 1 = a), show a + k + 1 - (a + 1) = k by omega, show a + k + 1 - a = k + 1 by omega,
        List.getD_cons_succ]
      exact ite_congr (by simp only [eq_iff_iff]; omega) (fun _ => rfl) (fun _ => rfl)

/-- An entry of a canonical memory is read at its address, where a memory that begins above reads as unlisted. -/
theorem Memory.le_of_read_head {a b : Nat} {v : Byte} {r m : Memory} (hv : v ≠ Memory.unlisted) (hm : m.wfFrom b = true)
    (h : Memory.read ((a, v) :: r) a = m.read a) : b ≤ a := by
  refine Nat.le_of_not_lt fun hb => ?_
  rw [Memory.read_cons, if_pos rfl, Memory.read_below hm hb] at h
  exact hv h

/-- Two canonical memories of equal contents begin with one entry, and their rests are canonical memories of equal contents. -/
theorem Memory.eq_of_read_eq {m m' : Memory} {lo : Nat} (hm : m.wfFrom lo = true) (hm' : m'.wfFrom lo = true)
    (h : ∀ a, m.read a = m'.read a) : m = m' := by
  induction m generalizing lo m' with
  | nil =>
    cases m' with
    | nil => rfl
    | cons e r' =>
      obtain ⟨a, v⟩ := e
      obtain ⟨-, hv, -⟩ := Memory.wfFrom_cons.mp hm'
      have hle := Memory.le_of_read_head (b := a + 1) hv rfl (h a).symm
      omega
  | cons e r ih =>
    obtain ⟨a, v⟩ := e
    obtain ⟨-, hv, hr⟩ := Memory.wfFrom_cons.mp hm
    cases m' with
    | nil =>
      have hle := Memory.le_of_read_head (b := a + 1) hv rfl (h a)
      omega
    | cons e' r' =>
      obtain ⟨a', v'⟩ := e'
      obtain ⟨-, hv', hr'⟩ := Memory.wfFrom_cons.mp hm'
      have hle' : a' ≤ a := Memory.le_of_read_head hv (Memory.wfFrom_cons.mpr ⟨Nat.le_refl _, hv', hr'⟩) (h a)
      have hle : a ≤ a' := Memory.le_of_read_head hv' (Memory.wfFrom_cons.mpr ⟨Nat.le_refl _, hv, hr⟩) (h a').symm
      obtain rfl : a = a' := Nat.le_antisymm hle hle'
      have hhead : v = v' := by simpa [Memory.read_cons] using h a
      have htail : r = r' := ih hr hr' fun x => by
        by_cases hx : a = x
        · rw [Memory.read_below hr (by omega), Memory.read_below hr' (by omega)]
        · simpa [Memory.read_cons, hx] using h x
      rw [hhead, htail]

/-- Settles O60: the read-after-write lemmas of bytes and byte lists, and the extensionality of canonical memories. -/
theorem memoryLaws : Obligations.MemoryLaws := by
  unfold Obligations.MemoryLaws
  exact ⟨fun _ a b v hm => ⟨Memory.write_wf a v hm, Memory.read_write a b v hm⟩,
    fun _ a b bs hm => ⟨Memory.writeBytes_wf a bs hm, Memory.read_writeBytes a b bs hm⟩,
    fun _ _ => Memory.eq_of_read_eq⟩

end Sys2Proof.Machine
end

section
/-! THE FIELDS OF A WORD PUT TOGETHER AGAIN: the reverse of the laws of Laws/Fields.lean, for words that were split and not packed. -/

namespace Sys2Proof

/-! What a field that was matched or tested holds. -/

theorem ofNat_eq {w n : Nat} {x : BitVec w} (h : x.toNat = n) : BitVec.ofNat w n = x := by
  rw [← h, BitVec.ofNat_toNat, BitVec.setWidth_eq]

theorem zero_eq {w : Nat} {x : BitVec w} (h : (x == 0) = true) : 0#w = x := (eq_of_beq h).symm

/-! Fields that held a flag or a register number from 0 to 7. -/

@[simp] theorem ofBit_bit (x : BitVec 1) : ofBit (bit x) = x := by revert x; decide
@[simp] theorem up5_lo3 {x : BitVec 5} (h : hi2 x = 0) : up5 (lo3 x) = x := by revert x; decide
@[simp] theorem up4_lo3b {x : BitVec 4} (h : hi1 x = 0) : up4 (lo3b x) = x := by revert x; decide

/-- The fields that were cut from a word side by side, put together again, are the cut that covers both. -/
theorem append_cut {w k n s : Nat} {x : BitVec w} {y : BitVec k} {z : BitVec n} (hz : z = x.extractLsb' s n)
    (hy : y = x.extractLsb' (s + n) k) : y ++ z = x.extractLsb' s (k + n) := by
  subst hy hz
  exact BitVec.extractLsb'_append_extractLsb'_eq_extractLsb' rfl

/-- Two cuts that leave nothing out make up the whole word. -/
theorem append_whole {k n : Nat} {x : BitVec (k + n)} {y : BitVec k} {z : BitVec n} (hz : z = x.extractLsb' 0 n)
    (hy : y = x.extractLsb' n k) : y ++ z = x := (append_cut hz (by simpa using hy)).trans BitVec.extractLsb'_eq_self

theorem ofBool_eq_bit0 {w : Nat} {x : BitVec w} {b : Bool} (h : x.getLsbD 0 = b) : BitVec.ofBool b = x.extractLsb' 0 1 := by
  ext i hi
  obtain rfl : i = 0 := by omega
  simpa using h.symm

/-! A word with its lowest bit set is the packing of its fields, in every format (R62, R66). -/

theorem RF.pack_unpack {w : BitVec 32} (hw : w.getLsbD 0 = true) : (RF.unpack w).pack = w :=
  append_whole (ofBool_eq_bit0 hw) <| append_cut rfl <| append_cut rfl <| append_cut rfl <| append_cut rfl <| append_cut rfl <|
    append_cut rfl rfl
theorem IF.pack_unpack {w : BitVec 32} (hw : w.getLsbD 0 = true) : (IF.unpack w).pack = w :=
  append_whole (ofBool_eq_bit0 hw) <| append_cut rfl <| append_cut rfl <| append_cut rfl rfl
theorem KF.pack_unpack {w : BitVec 32} (hw : w.getLsbD 0 = true) : (KF.unpack w).pack = w :=
  append_whole (ofBool_eq_bit0 hw) <| append_cut rfl <| append_cut rfl <| append_cut rfl <| append_cut rfl rfl
theorem MF.pack_unpack {w : BitVec 32} (hw : w.getLsbD 0 = true) : (MF.unpack w).pack = w :=
  append_whole (ofBool_eq_bit0 hw) <| append_cut rfl <| append_cut rfl <| append_cut rfl <| append_cut rfl <| append_cut rfl <|
    append_cut rfl rfl
theorem BF.pack_unpack {w : BitVec 32} (hw : w.getLsbD 0 = true) : (BF.unpack w).pack = w :=
  append_whole (ofBool_eq_bit0 hw) <| append_cut rfl <| append_cut rfl <| append_cut rfl rfl
theorem VF.pack_unpack {w : BitVec 32} (hw : w.getLsbD 0 = true) : (VF.unpack w).pack = w :=
  append_whole (ofBool_eq_bit0 hw) <| append_cut rfl <| append_cut rfl <| append_cut rfl <| append_cut rfl <| append_cut rfl <|
    append_cut rfl rfl
theorem EF.pack_unpack {w : BitVec 32} (hw : w.getLsbD 0 = true) : (EF.unpack w).pack = w :=
  append_whole (ofBool_eq_bit0 hw) <| append_cut rfl <| append_cut rfl <| append_cut rfl <| append_cut rfl <| append_cut rfl <|
    append_cut rfl rfl
theorem SF.pack_unpack {w : BitVec 32} (hw : w.getLsbD 0 = true) : (SF.unpack w).pack = w :=
  append_whole (ofBool_eq_bit0 hw) <| append_cut rfl <| append_cut rfl <| append_cut rfl <| append_cut rfl rfl

/-- A halfword with its lowest bit clear is the packing of its fields (R62, R64). -/
theorem lane_join {h : BitVec 16} {op : BitVec 4} (h0 : h.getLsbD 0 = false) (ho : op = h.extractLsb' 1 4) :
    h.extractLsb' 15 1 ++ h.extractLsb' 10 5 ++ h.extractLsb' 5 5 ++ op ++ 0#1 = h :=
  append_whole (ofBool_eq_bit0 h0) <| append_cut ho <| append_cut rfl <| append_cut rfl rfl

/-! The places of a cleavage index in its three fields. -/

theorem cut_2_5_5_at_10_2 (x : BitVec 2) (y z : BitVec 5) : BitVec.extractLsb' 10 2 (x ++ y ++ z : BitVec 12) = x := by
  rw [BitVec.extractLsb'_append_eq_of_le (by decide)]
  exact BitVec.extractLsb'_append_eq_left
theorem cut_2_5_5_at_5_5 (x : BitVec 2) (y z : BitVec 5) : BitVec.extractLsb' 5 5 (x ++ y ++ z : BitVec 12) = y := by
  rw [BitVec.extractLsb'_append_eq_of_le (by decide)]
  exact BitVec.extractLsb'_append_eq_right
theorem cut_2_5_5_at_0_5 (x : BitVec 2) (y z : BitVec 5) : BitVec.extractLsb' 0 5 (x ++ y ++ z : BitVec 12) = z :=
  BitVec.extractLsb'_append_eq_right

end Sys2Proof
end

section
/-! EVERY DECODER IS EXACT (R6, R67, R74, R87). A decoder matches the function field and tests the fields its row leaves unused; the
encoder writes the matched function and zeros there. So the words of the accepted instruction agree with those that were read field by
field, and joining the fields gives the words back. -/

namespace Sys2Proof.Laws.OneWord

/-- The answer of a decoder to the words `e` is exact: an instruction it names is well-formed and is encoded by `e` and nothing
else. -/
def Exact (e : Enc) (r : Except DecodeError Instr) : Prop := ∀ i, r = .ok i → i.wf = true ∧ encode i = some e

theorem Exact.error (e : Enc) (r : DecodeError) : Exact e (.error r) := fun _ h => nomatch h

/-- The test that every decoder ends with. The words are compared with those the encoder makes of the fields that were read. -/
theorem Exact.guard {e e' : Enc} {i : Instr} (r : DecodeError) (hi : encode i = some e') (he : e' = e) :
    Exact e (if i.wf then .ok i else .error r) := by
  intro j hj
  split at hj
  case isTrue hw =>
    cases hj
    exact ⟨hw, he ▸ hi⟩
  case isFalse => cases hj

theorem Exact.accept {e e' : Enc} {i : Instr} (hi : encode i = some e') (he : e' = e) : Exact e (accept i) :=
  .guard .illFormed hi he

theorem Exact.acceptIf {e e' : Enc} {ok : Bool} {i : Instr} (hi : encode i = some e') (he : ok = true → e' = e) :
    Exact e (acceptIf ok i) := by
  unfold Sys2Proof.acceptIf
  split
  case isTrue hok => exact .accept hi (he hok)
  case isFalse => exact .error e _

theorem Exact.of_eq {w w' : BitVec 32} {r : Except DecodeError Instr} (h : w' = w) (hr : Exact (.w32 w') r) : Exact (.w32 w) r := h ▸ hr

/-! The majors whose operands are whole fields: a row with no unused field, or one whose unused fields are tested. -/

theorem decAlu_exact {x : RF} (hm : 1#6 = x.major) : Exact (.w32 x.pack) (decAlu x) := by
  obtain ⟨_, f6, gn, gp, b, a, d⟩ := x
  obtain rfl : 1#6 = _ := hm
  unfold decAlu
  split
  iterate 13
    next h =>
      obtain rfl := ofNat_eq h
      exact .accept rfl (by simp)
  · exact .error _ _

theorem decMul_exact {x : RF} (hm : 2#6 = x.major) : Exact (.w32 x.pack) (decMul x) := by
  obtain ⟨_, f6, gn, gp, b, a, d⟩ := x
  obtain rfl : 2#6 = _ := hm
  unfold decMul
  split
  iterate 7
    next h =>
      obtain rfl := ofNat_eq h
      exact .accept rfl (by simp)
  · exact .error _ _

theorem decBit_exact {x : RF} (hm : 3#6 = x.major) : Exact (.w32 x.pack) (decBit x) := by
  obtain ⟨_, f6, gn, gp, b, a, d⟩ := x
  obtain rfl : 3#6 = _ := hm
  unfold decBit
  split
  iterate 5
    next h =>
      obtain rfl := ofNat_eq h
      exact .acceptIf rfl (by simp +contextual)
  iterate 2
    next h =>
      obtain rfl := ofNat_eq h
      exact .accept rfl (by simp)
  iterate 3
    next h =>
      obtain rfl := ofNat_eq h
      exact .acceptIf rfl (by simp +contextual)
  · exact .error _ _

theorem decCmp_exact {x : RF} (hm : 4#6 = x.major) : Exact (.w32 x.pack) (decCmp x) := by
  obtain ⟨_, f6, gn, gp, b, a, d⟩ := x
  obtain rfl : 4#6 = _ := hm
  unfold decCmp
  split
  iterate 6
    next h =>
      obtain rfl := ofNat_eq h
      exact .acceptIf rfl (by simp +contextual)
  · exact .error _ _

theorem decPred_exact {x : RF} (hm : 5#6 = x.major) : Exact (.w32 x.pack) (decPred x) := by
  obtain ⟨_, f6, gn, gp, b, a, d⟩ := x
  obtain rfl : 5#6 = _ := hm
  unfold decPred
  split
  iterate 5
    next h =>
      obtain rfl := ofNat_eq h
      exact .acceptIf rfl (by simp +contextual)
  · exact .error _ _

theorem decPar_exact {x : RF} (hm : 57#6 = x.major) : Exact (.w32 x.pack) (decPar x) := by
  obtain ⟨_, f6, gn, gp, b, a, d⟩ := x
  obtain rfl : 57#6 = _ := hm
  unfold decPar
  split
  iterate 7
    next h =>
      obtain rfl := ofNat_eq h
      exact .acceptIf rfl (by simp +contextual)
  · exact .error _ _

theorem decK_exact {x : KF} (hm : 16#6 = x.major) : Exact (.w32 x.pack) (decK x) := by
  obtain ⟨_, f7, k, a, d⟩ := x
  obtain rfl : 16#6 = _ := hm
  unfold decK
  split
  iterate 2
    next h =>
      obtain rfl := ofNat_eq h
      exact .acceptIf rfl (by simp +contextual)
  iterate 5
    next h =>
      obtain rfl := ofNat_eq h
      exact .accept rfl (by simp)
  next h =>
    obtain rfl := ofNat_eq h
    exact .acceptIf rfl (by simp +contextual)
  · exact .error _ _

theorem decVInt_exact {x : VF} (hm : 32#6 = x.major) : Exact (.w32 x.pack) (decVInt x) := by
  obtain ⟨_, f5, esz, mask, vb, va, vd⟩ := x
  obtain rfl : 32#6 = _ := hm
  unfold decVInt
  split
  iterate 20
    next h =>
      obtain rfl := ofNat_eq h
      exact .accept rfl (by simp)
  iterate 4
    next h =>
      obtain rfl := ofNat_eq h
      exact .acceptIf rfl (by simp +contextual)
  · exact .error _ _

theorem decVFloat_exact {x : VF} (hm : 33#6 = x.major) : Exact (.w32 x.pack) (decVFloat x) := by
  obtain ⟨_, f5, esz, mask, vb, va, vd⟩ := x
  obtain rfl : 33#6 = _ := hm
  unfold decVFloat
  split
  iterate 6
    next h =>
      obtain rfl := ofNat_eq h
      exact .accept rfl (by simp)
  iterate 3
    next h =>
      obtain rfl := ofNat_eq h
      exact .acceptIf rfl (by simp +contextual)
  · exact .error _ _

theorem decVCmp_exact {x : VF} (hm : 34#6 = x.major) : Exact (.w32 x.pack) (decVCmp x) := by
  obtain ⟨_, f5, esz, mask, vb, va, vd⟩ := x
  obtain rfl : 34#6 = _ := hm
  unfold decVCmp
  split
  iterate 14
    next h =>
      obtain rfl := ofNat_eq h
      exact .acceptIf rfl (by simp +contextual)
  · exact .error _ _

theorem decVRed_exact {x : VF} (hm : 36#6 = x.major) : Exact (.w32 x.pack) (decVRed x) := by
  obtain ⟨_, f5, esz, mask, vb, va, vd⟩ := x
  obtain rfl : 36#6 = _ := hm
  unfold decVRed
  split
  iterate 14
    next h =>
      obtain rfl := ofNat_eq h
      exact .acceptIf rfl (by simp +contextual)
  · exact .error _ _

theorem decVPerm_exact {x : VF} (hm : 37#6 = x.major) : Exact (.w32 x.pack) (decVPerm x) := by
  obtain ⟨_, f5, esz, mask, vb, va, vd⟩ := x
  obtain rfl : 37#6 = _ := hm
  unfold decVPerm
  split
  iterate 8
    next h =>
      obtain rfl := ofNat_eq h
      exact .accept rfl (by simp)
  iterate 2
    next h =>
      obtain rfl := ofNat_eq h
      exact .acceptIf rfl (by simp +contextual)
  · exact .error _ _

theorem decVLoad_exact {x : VF} (hm : 38#6 = x.major) : Exact (.w32 x.pack) (decVLoad x) := by
  obtain ⟨_, f5, esz, mask, vb, va, vd⟩ := x
  obtain rfl : 38#6 = _ := hm
  unfold decVLoad
  split
  iterate 4
    next h =>
      obtain rfl := ofNat_eq h
      exact .accept rfl (by simp)
  · exact .error _ _

theorem decVStore_exact {x : VF} (hm : 39#6 = x.major) : Exact (.w32 x.pack) (decVStore x) := by
  obtain ⟨_, f5, esz, mask, vb, va, vd⟩ := x
  obtain rfl : 39#6 = _ := hm
  unfold decVStore
  split
  iterate 4
    next h =>
      obtain rfl := ofNat_eq h
      exact .accept rfl (by simp)
  · exact .error _ _

theorem decVGath_exact {x : VF} (hm : 40#6 = x.major) : Exact (.w32 x.pack) (decVGath x) := by
  obtain ⟨_, f5, esz, mask, vb, va, vd⟩ := x
  obtain rfl : 40#6 = _ := hm
  unfold decVGath
  split
  iterate 4
    next h =>
      obtain rfl := ofNat_eq h
      exact .accept rfl (by simp)
  · exact .error _ _

theorem decVCb_exact {x : VF} (hm : 41#6 = x.major) : Exact (.w32 x.pack) (decVCb x) := by
  obtain ⟨_, f5, esz, mask, vb, va, vd⟩ := x
  obtain rfl : 41#6 = _ := hm
  unfold decVCb
  split
  iterate 2
    next h =>
      obtain rfl := ofNat_eq h
      exact .acceptIf rfl (by simp +contextual)
  · exact .error _ _

theorem decVFma_exact {x : VF} (hm : 42#6 = x.major) : Exact (.w32 x.pack) (decVFma x) := by
  obtain ⟨_, f5, esz, mask, vb, va, vd⟩ := x
  obtain rfl : 42#6 = _ := hm
  unfold decVFma
  split
  iterate 5
    next h =>
      obtain rfl := ofNat_eq h
      exact .accept rfl (by simp)
  · exact .error _ _

theorem decVSpec_exact {x : VF} (hm : 43#6 = x.major) : Exact (.w32 x.pack) (decVSpec x) := by
  obtain ⟨_, f5, esz, mask, vb, va, vd⟩ := x
  obtain rfl : 43#6 = _ := hm
  unfold decVSpec
  split
  iterate 7
    next h =>
      obtain rfl := ofNat_eq h
      exact .acceptIf rfl (by simp +contextual)
  · exact .error _ _

theorem decVLane_exact {x : VF} (hm : 44#6 = x.major) : Exact (.w32 x.pack) (decVLane x) := by
  obtain ⟨_, f5, esz, mask, vb, va, vd⟩ := x
  obtain rfl : 44#6 = _ := hm
  unfold decVLane
  split
  iterate 3
    next h =>
      obtain rfl := ofNat_eq h
      exact .accept rfl (by simp)
  iterate 4
    next h =>
      obtain rfl := ofNat_eq h
      exact .acceptIf rfl (by simp +contextual)
  · exact .error _ _

theorem decHandle_exact {x : EF} (hm : 48#6 = x.major) : Exact (.w32 x.pack) (decHandle x) := by
  obtain ⟨_, f5, x, acc, hb, ha, hd⟩ := x
  obtain rfl : 48#6 = _ := hm
  unfold decHandle
  split
  iterate 11
    next h =>
      obtain rfl := ofNat_eq h
      exact .acceptIf rfl (by simp +contextual)
  · exact .error _ _

theorem decMxe_exact {x : EF} (hm : 52#6 = x.major) : Exact (.w32 x.pack) (decMxe x) := by
  obtain ⟨_, f5, x, acc, hb, ha, hd⟩ := x
  obtain rfl : 52#6 = _ := hm
  unfold decMxe
  split
  iterate 3
    next h =>
      obtain rfl := ofNat_eq h
      exact .accept rfl (by simp)
  iterate 6
    next h =>
      obtain rfl := ofNat_eq h
      exact .acceptIf rfl (by simp +contextual)
  · exact .error _ _

theorem decRsu_exact {x : EF} (hm : 54#6 = x.major) : Exact (.w32 x.pack) (decRsu x) := by
  obtain ⟨_, f5, x, acc, hb, ha, hd⟩ := x
  obtain rfl : 54#6 = _ := hm
  unfold decRsu
  split
  iterate 5
    next h =>
      obtain rfl := ofNat_eq h
      exact .acceptIf rfl (by simp +contextual)
  · exact .error _ _

theorem decCle_exact {x : EF} (hm : 55#6 = x.major) : Exact (.w32 x.pack) (decCle x) := by
  obtain ⟨_, f5, x, acc, hb, ha, hd⟩ := x
  obtain rfl : 55#6 = _ := hm
  unfold decCle
  split
  iterate 3
    next h =>
      obtain rfl := ofNat_eq h
      exact .acceptIf rfl (by simp +contextual)
  · exact .error _ _

theorem decSys_exact {x : SF} (hm : 61#6 = x.major) : Exact (.w32 x.pack) (decSys x) := by
  obtain ⟨_, f3, sidx, a, d⟩ := x
  obtain rfl : 61#6 = _ := hm
  unfold decSys
  split
  iterate 7
    next h =>
      obtain rfl := ofNat_eq h
      exact .acceptIf rfl (by simp +contextual)
  · exact .error _ _

theorem decLaunch_exact {x : SF} (hm : 62#6 = x.major) : Exact (.w32 x.pack) (decLaunch x) := by
  obtain ⟨_, f3, sidx, a, d⟩ := x
  obtain rfl : 62#6 = _ := hm
  unfold decLaunch
  split
  next h =>
    obtain rfl := ofNat_eq h
    exact .accept rfl (by simp)
  iterate 3
    next h =>
      obtain rfl := ofNat_eq h
      exact .acceptIf rfl (by simp +contextual)
  · exact .error _ _

/-! The majors that cut an operand out of a field, or read a field of their own layout. -/

theorem decCtl_exact {x : RF} (hm : 31#6 = x.major) : Exact (.w32 x.pack) (decCtl x) := by
  obtain ⟨_, f6, gn, gp, b, a, d⟩ := x
  obtain rfl : 31#6 = _ := hm
  unfold decCtl
  split
  iterate 5
    next h =>
      obtain rfl := ofNat_eq h
      exact .acceptIf rfl (by simp +contextual)
  next h =>
    obtain rfl := ofNat_eq h
    refine .acceptIf rfl fun hok => ?_
    obtain ⟨⟨rfl, rfl⟩, hb⟩ : (gn = 0 ∧ gp = 0) ∧ b.extractLsb' 2 3 = 0#3 := by simpa using hok
    rw [cut_2_5_5_at_10_2, cut_2_5_5_at_5_5, cut_2_5_5_at_0_5, append_whole rfl hb.symm]
  · exact .error _ _

theorem decBtu_exact {x : EF} (hm : 53#6 = x.major) : Exact (.w32 x.pack) (decBtu x) := by
  obtain ⟨_, f5, s, acc, hb, ha, hd⟩ := x
  obtain rfl : 53#6 = _ := hm
  unfold decBtu
  split
  iterate 4
    next h =>
      obtain rfl := ofNat_eq h
      exact .acceptIf rfl (by simp +contextual)
  next h =>
    obtain rfl := ofNat_eq h
    split
    · exact .error _ _
    next hacc =>
      obtain rfl : acc = 0 := by simpa using hacc
      split
      next hfill =>
        obtain rfl : hb = 0 := by simpa using hfill
        exact .acceptIf rfl (by simp +contextual)
      split
      next hdrain =>
        obtain rfl : hb = 1 := by simpa using hdrain
        exact .acceptIf rfl (by simp +contextual)
      · exact .error _ _
  · exact .error _ _

theorem decFence_exact {x : SF} (hm : 56#6 = x.major) : Exact (.w32 x.pack) (decFence x) := by
  obtain ⟨_, f3, sidx, a, d⟩ := x
  obtain rfl : 56#6 = _ := hm
  unfold decFence
  split
  iterate 2
    next h =>
      obtain rfl := ofNat_eq h
      exact .acceptIf rfl (by simp +contextual)
  next h =>
    obtain rfl := ofNat_eq h
    refine .acceptIf rfl fun hok => ?_
    obtain ⟨⟨rfl, rfl⟩, hz⟩ : (a = 0 ∧ d = 0) ∧ sidx.extractLsb' 0 8 = 0 := by simpa using hok
    rw [show sidx.extractLsb' 10 2 ++ sidx.extractLsb' 8 2 ++ 0#8 = sidx from append_whole hz.symm (append_cut rfl rfl)]
  next h =>
    obtain rfl := ofNat_eq h
    refine .acceptIf rfl fun hok => ?_
    obtain ⟨⟨rfl, rfl⟩, hz⟩ : (a = 0 ∧ d = 0) ∧ sidx.extractLsb' 10 2 = 0 := by simpa using hok
    rw [show 0#2 ++ sidx.extractLsb' 8 2 ++ sidx.extractLsb' 0 8 = sidx from append_whole rfl (append_cut rfl hz.symm)]
  · exact .error _ _

theorem decPool_exact {x : SF} (hm : 59#6 = x.major) : Exact (.w32 x.pack) (decPool x) := by
  obtain ⟨_, f3, sidx, a, d⟩ := x
  obtain rfl : 59#6 = _ := hm
  have slots (hz : sidx.extractLsb' 7 5 = 0) : 0#5 ++ sidx.extractLsb' 0 7 = sidx := append_whole rfl hz.symm
  unfold decPool
  split
  next h =>
    obtain rfl := ofNat_eq h
    exact .acceptIf rfl (by simp +contextual)
  iterate 3
    next h =>
      obtain rfl := ofNat_eq h
      exact .acceptIf rfl (by simp +contextual [slots])
  · exact .error _ _

theorem decTx_exact {x : SF} (hm : 60#6 = x.major) : Exact (.w32 x.pack) (decTx x) := by
  obtain ⟨_, f3, sidx, a, d⟩ := x
  obtain rfl : 60#6 = _ := hm
  have handle (hz : d.extractLsb' 4 1 = 0) : 0#1 ++ d.extractLsb' 0 4 = d := append_whole rfl hz.symm
  have slot (hz : sidx.extractLsb' 4 8 = 0) : 0#8 ++ sidx.extractLsb' 0 4 = sidx := append_whole rfl hz.symm
  have access (hz : sidx.extractLsb' 5 7 = 0) : 0#7 ++ sidx.extractLsb' 4 1 ++ sidx.extractLsb' 0 4 = sidx :=
    append_whole rfl (append_cut rfl hz.symm)
  unfold decTx
  split
  next h =>
    obtain rfl := ofNat_eq h
    exact .acceptIf rfl (by simp +contextual)
  next h =>
    obtain rfl := ofNat_eq h
    refine .acceptIf rfl fun hok => ?_
    obtain ⟨⟨rfl, hd⟩, hs⟩ : (a = 0 ∧ d.extractLsb' 4 1 = 0) ∧ sidx.extractLsb' 4 8 = 0 := by simpa using hok
    rw [handle hd, slot hs]
  iterate 3
    next h =>
      obtain rfl := ofNat_eq h
      exact .acceptIf rfl (by simp +contextual [slot, access])
  · exact .error _ _

theorem decShift_exact {x : IF} (hm : 12#6 = x.major) : Exact (.w32 x.pack) (decShift x) := by
  obtain ⟨_, imm, a, d⟩ := x
  obtain rfl : 12#6 = _ := hm
  unfold decShift
  split
  iterate 4
    next h =>
      refine .acceptIf rfl fun hok => ?_
      rw [append_whole rfl (append_cut (zero_eq hok) (ofNat_eq h))]
  · exact .error _ _

theorem decCmpi_exact {x : IF} (hm : 14#6 = x.major) : Exact (.w32 x.pack) (decCmpi x) := by
  obtain ⟨_, imm, a, d⟩ := x
  obtain rfl : 14#6 = _ := hm
  unfold decCmpi
  split
  iterate 6
    next h =>
      refine .acceptIf rfl fun hok => ?_
      rw [append_whole rfl (ofNat_eq h), up5_lo3 (eq_of_beq hok)]
  · exact .error _ _

theorem decCbw_exact {x : IF} (hm : 58#6 = x.major) : Exact (.w32 x.pack) (decCbw x) := by
  obtain ⟨_, imm, a, d⟩ := x
  obtain rfl : 58#6 = _ := hm
  unfold decCbw
  split
  · exact .error _ _
  next hok =>
    obtain ⟨⟨rfl, hd⟩, hz⟩ : (a = 0 ∧ hi2 d = 0) ∧ imm.extractLsb' 8 4 = 0#4 := by simpa using hok
    split
    iterate 4
      next h =>
        refine .accept rfl ?_
        rw [append_whole rfl (append_cut hz.symm (ofNat_eq h)), up5_lo3 hd]
    · exact .error _ _

theorem decMem_exact {x : MF} : Exact (.w32 x.pack) (decMem x) := by
  obtain ⟨major, off, ord, size, sp, base, data⟩ := x
  unfold decMem
  split
  next h =>
    obtain rfl := ofNat_eq h
    refine .acceptIf rfl fun hok => ?_
    rw [ofBit_bit, ofBit_bit, append_whole rfl (zero_eq hok)]
  next h =>
    obtain rfl := ofNat_eq h
    refine .acceptIf rfl fun hok => ?_
    rw [ofBit_bit, ofBit_bit, append_whole (zero_eq hok) rfl]
  next h =>
    obtain rfl := ofNat_eq h
    refine .acceptIf rfl fun hok => ?_
    obtain rfl : sp = 1 := eq_of_beq hok
    rw [ofBit_bit, ofBit_bit, append_whole rfl rfl]
  next h =>
    obtain rfl := ofNat_eq h
    exact .acceptIf rfl (by simp +contextual)
  · exact .error _ _

theorem decAtom_exact {x : MF} (hm : 24#6 = x.major) : Exact (.w32 x.pack) (decAtom x) := by
  obtain ⟨_, off, ord, size, sp, base, data⟩ := x
  obtain rfl : 24#6 = _ := hm
  unfold decAtom
  dsimp only
  split
  · exact .error _ _
  next hok =>
    obtain ⟨rfl, hs⟩ : sp = 0 ∧ size.extractLsb' 1 1 = 1 := by simpa using hok
    have width : 1#1 ++ ofBit (bit (size.extractLsb' 0 1)) = size := append_whole (ofBit_bit _) hs.symm
    have word (hd : ¬ bit (size.extractLsb' 0 1) = true) : (2 : BitVec 2) = size := by
      rw [← width, (Bool.not_eq_true _).mp hd]; rfl
    split
    iterate 10
      next h =>
        refine .accept rfl ?_
        rw [width, append_whole rfl (ofNat_eq h)]
    next h =>
      split
      · exact .error _ _
      next hd =>
        refine .accept rfl ?_
        rw [word hd, append_whole rfl (ofNat_eq h)]
    next h =>
      split
      · exact .error _ _
      next hd =>
        refine .acceptIf rfl fun hdata => ?_
        rw [word hd, append_whole rfl (ofNat_eq h), eq_of_beq hdata]
    next h =>
      split
      · exact .error _ _
      next hd =>
        refine .acceptIf rfl fun hb => ?_
        rw [word hd, append_whole (zero_eq hb) (ofNat_eq h)]
    next h =>
      refine .acceptIf rfl fun hb => ?_
      rw [width, append_whole (zero_eq hb) (ofNat_eq h)]
    · exact .error _ _

/-! A halfword. -/

theorem decode16_exact {h : BitVec 16} (h0 : h.getLsbD 0 = false) : Exact (.h16 h) (decode16 h) := by
  unfold decode16
  dsimp only
  split
  iterate 15
    next ho =>
      refine .guard _ rfl ?_
      rw [ofBit_bit, lane_join h0 (ofNat_eq ho)]
  next =>
    have ho : (h.extractLsb' 1 4).toNat = 15 := by
      have := (h.extractLsb' 1 4).isLt
      grind
    refine .guard _ rfl ?_
    rw [ofBit_bit, lane_join h0 (ofNat_eq ho)]

/-! The majors of one instruction, and a 32-bit word of any major. -/

theorem IF.exact_accept {m : BitVec 6} {x : IF} {i : Instr}
    (hi : encode i = some (.w32 (IF.pack ⟨m, x.imm, BitVec.ofFin x.a.toFin, BitVec.ofFin x.d.toFin⟩))) (hm : m = x.major) :
    Exact (.w32 x.pack) (accept i) := .accept hi (by rw [hm])

theorem BF.exact_accept {m : BitVec 6} {x : BF} {i : Instr}
    (hi : encode i = some (.w32 (BF.pack ⟨m, x.off, ofBit (bit x.neg), BitVec.ofFin x.pred.toFin⟩))) (hm : m = x.major) :
    Exact (.w32 x.pack) (accept i) := .accept hi (by rw [hm, ofBit_bit])

theorem loop_exact {x : IF} (hm : 30#6 = x.major) : Exact (.w32 x.pack) (acceptIf (x.d == 0) (.loop x.a.toFin x.imm)) :=
  .acceptIf rfl fun hd => by
    obtain ⟨_, imm, a, d⟩ := x
    obtain rfl : 30#6 = _ := hm
    obtain rfl : d = 0 := eq_of_beq hd
    rfl

theorem vcvt_exact {x : VF} (hm : 35#6 = x.major) :
    Exact (.w32 x.pack) (accept (.vcvt x.f5 x.vb x.esz x.mask.toFin x.vd.toFin x.va.toFin)) :=
  .accept rfl (by rw [hm])

theorem decode32_exact {w : BitVec 32} (hw : w.getLsbD 0 = true) : Exact (.w32 w) (decode32 w) := by
  unfold decode32
  split
  next h => exact .of_eq (RF.pack_unpack hw) (decAlu_exact (ofNat_eq h))
  next h => exact .of_eq (RF.pack_unpack hw) (decMul_exact (ofNat_eq h))
  next h => exact .of_eq (RF.pack_unpack hw) (decBit_exact (ofNat_eq h))
  next h => exact .of_eq (RF.pack_unpack hw) (decCmp_exact (ofNat_eq h))
  next h => exact .of_eq (RF.pack_unpack hw) (decPred_exact (ofNat_eq h))
  next h => exact .of_eq (IF.pack_unpack hw) (IF.exact_accept rfl (ofNat_eq h))
  next h => exact .of_eq (IF.pack_unpack hw) (IF.exact_accept rfl (ofNat_eq h))
  next h => exact .of_eq (IF.pack_unpack hw) (IF.exact_accept rfl (ofNat_eq h))
  next h => exact .of_eq (IF.pack_unpack hw) (IF.exact_accept rfl (ofNat_eq h))
  next h => exact .of_eq (IF.pack_unpack hw) (IF.exact_accept rfl (ofNat_eq h))
  next h => exact .of_eq (KF.pack_unpack hw) (decK_exact (ofNat_eq h))
  next h => exact .of_eq (IF.pack_unpack hw) (loop_exact (ofNat_eq h))
  next h => exact .of_eq (RF.pack_unpack hw) (decCtl_exact (ofNat_eq h))
  next h => exact .of_eq (VF.pack_unpack hw) (decVInt_exact (ofNat_eq h))
  next h => exact .of_eq (VF.pack_unpack hw) (decVFloat_exact (ofNat_eq h))
  next h => exact .of_eq (VF.pack_unpack hw) (decVCmp_exact (ofNat_eq h))
  next h => exact .of_eq (VF.pack_unpack hw) (decVRed_exact (ofNat_eq h))
  next h => exact .of_eq (VF.pack_unpack hw) (decVPerm_exact (ofNat_eq h))
  next h => exact .of_eq (VF.pack_unpack hw) (decVLoad_exact (ofNat_eq h))
  next h => exact .of_eq (VF.pack_unpack hw) (decVStore_exact (ofNat_eq h))
  next h => exact .of_eq (VF.pack_unpack hw) (decVGath_exact (ofNat_eq h))
  next h => exact .of_eq (VF.pack_unpack hw) (decVCb_exact (ofNat_eq h))
  next h => exact .of_eq (VF.pack_unpack hw) (decVFma_exact (ofNat_eq h))
  next h => exact .of_eq (VF.pack_unpack hw) (decVSpec_exact (ofNat_eq h))
  next h => exact .of_eq (VF.pack_unpack hw) (decVLane_exact (ofNat_eq h))
  next h => exact .of_eq (EF.pack_unpack hw) (decHandle_exact (ofNat_eq h))
  next h => exact .of_eq (EF.pack_unpack hw) (decMxe_exact (ofNat_eq h))
  next h => exact .of_eq (EF.pack_unpack hw) (decBtu_exact (ofNat_eq h))
  next h => exact .of_eq (EF.pack_unpack hw) (decRsu_exact (ofNat_eq h))
  next h => exact .of_eq (EF.pack_unpack hw) (decCle_exact (ofNat_eq h))
  next h => exact .of_eq (SF.pack_unpack hw) (decFence_exact (ofNat_eq h))
  next h => exact .of_eq (RF.pack_unpack hw) (decPar_exact (ofNat_eq h))
  next h => exact .of_eq (SF.pack_unpack hw) (decPool_exact (ofNat_eq h))
  next h => exact .of_eq (SF.pack_unpack hw) (decTx_exact (ofNat_eq h))
  next h => exact .of_eq (SF.pack_unpack hw) (decSys_exact (ofNat_eq h))
  next h => exact .of_eq (SF.pack_unpack hw) (decLaunch_exact (ofNat_eq h))
  next h => exact .of_eq (BF.pack_unpack hw) (BF.exact_accept rfl (ofNat_eq h))
  next h => exact .of_eq (BF.pack_unpack hw) (BF.exact_accept rfl (ofNat_eq h))
  next h => exact .of_eq (VF.pack_unpack hw) (vcvt_exact (ofNat_eq h))
  next h => exact .of_eq (IF.pack_unpack hw) (decShift_exact (ofNat_eq h))
  next h => exact .of_eq (IF.pack_unpack hw) (decCmpi_exact (ofNat_eq h))
  next h => exact .of_eq (IF.pack_unpack hw) (decCbw_exact (ofNat_eq h))
  next => exact .of_eq (MF.pack_unpack hw) decMem_exact
  next => exact .of_eq (MF.pack_unpack hw) decMem_exact
  next => exact .of_eq (MF.pack_unpack hw) decMem_exact
  next => exact .of_eq (MF.pack_unpack hw) decMem_exact
  next h => exact .of_eq (MF.pack_unpack hw) (decAtom_exact (ofNat_eq h))
  · exact .error _ _

/-! Bit 0 of the first halfword is that of the length (R62). -/

theorem takeEnc_h16 {h : BitVec 16} (ht : takeEnc (Enc.h16 h).halves = some (.h16 h)) : h.getLsbD 0 = false := by
  rw [Enc.halves, takeEnc] at ht
  split at ht
  case isTrue => cases ht
  case isFalse h0 => simpa using h0

theorem takeEnc_w32 {w : BitVec 32} (ht : takeEnc (Enc.w32 w).halves = some (.w32 w)) : w.getLsbD 0 = true := by
  rw [Enc.halves, takeEnc] at ht
  split at ht
  case isTrue h0 => simpa using h0
  case isFalse => cases ht

/-- A word whose length bit says its length is read exactly. -/
theorem decodeEnc_exact {e : Enc} (ht : takeEnc e.halves = some e) : Exact e (decodeEnc e) := by
  cases e with
  | h16 h => exact decode16_exact (takeEnc_h16 ht)
  | w32 w => exact decode32_exact (takeEnc_w32 ht)

/-- Settles O53: every decoder reads its words exactly, major by major and function by function. -/
theorem oneWordEach : Obligations.OneWordEach := by
  unfold Obligations.OneWordEach
  exact fun _ i ht => decodeEnc_exact ht i

end Sys2Proof.Laws.OneWord
end
